-- ==== Sys2Proof/Word.lean ====
section
/-! DEFINITION. The word types of the device: 64-bit registers and memory words (R27, R61), bytes (R5). -/

namespace Sys2Proof

/-- A 64-bit register, memory word or pointer. -/
abbrev Word := BitVec 64

/-- One byte of memory. -/
abbrev Byte := BitVec 8

/-- A floating-point, integer or raw element of an accumulator tile (R261). -/
abbrev Elem := BitVec 32

end Sys2Proof
end

