-- ==== Sys2Proof/Config.lean ====
section
/-! DEFINITION. What the spec leaves open, as constants without a body: nothing in Lean can find a value of one, so a
statement that holds here holds whatever the value is. Each is applied to the counter `State.free`, which every use advances,
or to the operands it depends on. -/

namespace Sys2Proof.Config

/-- A 64-bit value the spec does not state (log 5). -/
opaque freeWord : Nat → Word

/-- The digest of the boot ROM (R373; log 5). -/
opaque romDigest : BitVec 256

/-- Which of the 64 entries of a full buffer-entry cache a new entry replaces (R35 gives no policy; log 16). -/
opaque evict : Nat → Nat

/-- Which of the halfwords that a fetch may return it does return: the newest where the number is 0 (R111; log 36). -/
opaque oldFetch : Nat → Nat

/-- Which of the values that a word of an operand has held since a matrix command started the array reads: the newest where the number is
0 (R89; log 11). The second number is the place of the element. -/
opaque oldOperand : Nat → Nat → Nat

/-- The result of a row function of R268 in the case that 512 bits of precision do not decide its rounding (log 20). -/
opaque undecidedRounding : Nat → BitVec 32 → BitVec 32

end Sys2Proof.Config
end

