-- ==== Sys2Proof/Machine/Formats.lean ====
section
/-! DEFINITION. Number formats and arithmetic (spec/09, R130 to R146, R207, R208, R265 to R271): every operation computes an
exact dyadic number, sign × m × 2^e, and rounds it once. -/

namespace Sys2Proof.Machine

open Sys2Proof (Word Byte Elem)

/-! ### Rounding -/

/-- An IEEE datum: fraction width `p` is 23 for fp32 and 7 for bf16 (R130). A NaN carries the payload below its quiet bit. -/
inductive FVal where
  | nan (payload : Nat)
  | inf (neg : Bool)
  | fin (neg : Bool) (m : Nat) (e : Int)
  deriving DecidableEq, Repr

def sgn (p : Nat) (x : Nat) : Bool := x / 2 ^ (p + 8) % 2 == 1
def mag (p : Nat) (x : Nat) : Nat := x % 2 ^ (p + 8)

def decodeF (p : Nat) (x : Nat) : FVal :=
  let ex := x / 2 ^ p % 256
  let fr := x % 2 ^ p
  if ex = 255 then (if fr = 0 then .inf (sgn p x) else .nan (fr % 2 ^ (p - 1)))
  else if ex = 0 then .fin (sgn p x) fr (-126 - p)
  else .fin (sgn p x) (2 ^ p + fr) ((ex : Int) - 127 - p)

/-- Bits of an infinity, of the quiet NaN with a payload and sign 0, and of the NaN that no operand supplied (R143). -/
def infF (p : Nat) (neg : Bool) : Nat := (if neg then 2 ^ (p + 8) else 0) + 255 * 2 ^ p
def quietF (p payload : Nat) : Nat := 255 * 2 ^ p + 2 ^ (p - 1) + payload % 2 ^ (p - 1)
def newNanF (p : Nat) : Nat := 255 * 2 ^ p + (2 ^ p - 1)
def isNanF (p x : Nat) : Bool := x / 2 ^ p % 256 == 255 && x % 2 ^ p != 0
def signF (p : Nat) (neg : Bool) : Nat := if neg then 2 ^ (p + 8) else 0

/-- Does the rounding mode take the magnitude up? Modes of c.round (R145): 0 nearest even, 1 toward zero, 2 toward −∞,
3 toward +∞. -/
def roundsUp (mode : Nat) (neg : Bool) (odd : Bool) (rem half : Nat) : Bool :=
  match mode with
  | 0 => decide (half < rem) || (decide (rem = half) && odd)
  | 1 => false
  | 2 => neg && decide (rem ≠ 0)
  | _ => !neg && decide (rem ≠ 0)

/-- Overflow goes to an infinity or to the largest finite magnitude, as the mode has it. -/
def overflowF (p mode : Nat) (neg : Bool) : Nat :=
  let toInf := match mode with
    | 0 => true
    | 1 => false
    | 2 => neg
    | _ => !neg
  if toInf then infF p neg else signF p neg + 255 * 2 ^ p - 1

/-- Round(±m × 2^e, fmt, mode), with subnormals (R8, R145). -/
def roundF (p mode : Nat) (neg : Bool) (m : Nat) (e : Int) : Nat :=
  if m = 0 then signF p neg
  else
    let top : Int := (Nat.log2 m : Int) + e
    let q : Int := max (top - p) (-126 - p)
    let sh : Int := q - e
    let mant :=
      if sh ≤ 0 then m * 2 ^ (-sh).toNat
      else
        let d := 2 ^ sh.toNat
        let t := m / d
        if roundsUp mode neg (t % 2 == 1) (m % d) (d / 2) then t + 1 else t
    let q2 : Int := if mant < 2 ^ (p + 1) then q else q + 1
    let mant2 := if mant < 2 ^ (p + 1) then mant else mant / 2
    if mant2 < 2 ^ p then signF p neg + mant2
    else
      let ex : Int := q2 + p + 127
      if 255 ≤ ex then overflowF p mode neg else signF p neg + ex.toNat * 2 ^ p + (mant2 - 2 ^ p)

/-- The NaN with the lowest payload among the operands that are NaN, made quiet, sign 0 (R143). -/
def nanOf (p : Nat) (xs : List Nat) : Option Nat :=
  match (xs.filter (isNanF p)).map (fun x => x % 2 ^ (p - 1)) with
  | [] => none
  | y :: ys => some (quietF p (ys.foldl min y))

/-! ### Exact sums and products -/

/-- Sign of an exact zero sum: −0 when every term is −0, else +0, and −0 toward −∞ when the signs differ (IEEE 754). -/
def zeroSign (mode : Nat) (a b : Bool) : Bool := if a = b then a else mode == 2

/-- ±m × 2^e as an integer count of 2^low, for low ≤ e. -/
def scaled (neg : Bool) (m : Nat) (e low : Int) : Int :=
  let v : Int := (m * 2 ^ (e - low).toNat : Nat)
  if neg then -v else v

def roundInt (p mode : Nat) (v : Int) (low : Int) (zeroNeg : Bool) : Nat :=
  if v = 0 then signF p zeroNeg else roundF p mode (decide (v < 0)) v.natAbs low

/-- The sum of two dyadics, rounded once. -/
def addFin (p mode : Nat) (n1 : Bool) (m1 : Nat) (e1 : Int) (n2 : Bool) (m2 : Nat) (e2 : Int) : Nat :=
  let low := min e1 e2
  roundInt p mode (scaled n1 m1 e1 low + scaled n2 m2 e2 low) low (zeroSign mode n1 n2)

def addF (p mode a b : Nat) : Nat :=
  match nanOf p [a, b] with
  | some n => n
  | none =>
    match decodeF p a, decodeF p b with
    | .fin n1 m1 e1, .fin n2 m2 e2 => addFin p mode n1 m1 e1 n2 m2 e2
    | .inf n1, .inf n2 => if n1 = n2 then infF p n1 else newNanF p
    | .inf n1, _ => infF p n1
    | _, .inf n2 => infF p n2
    | _, _ => newNanF p

def negF (p x : Nat) : Nat := if sgn p x then x - 2 ^ (p + 8) else x + 2 ^ (p + 8)

def subF (p mode a b : Nat) : Nat := addF p mode a (negF p b)

def mulF (p mode a b : Nat) : Nat :=
  match nanOf p [a, b] with
  | some n => n
  | none =>
    match decodeF p a, decodeF p b with
    | .fin n1 m1 e1, .fin n2 m2 e2 => roundF p mode (n1 != n2) (m1 * m2) (e1 + e2)
    | .inf n1, .fin n2 m2 _ => if m2 = 0 then newNanF p else infF p (n1 != n2)
    | .fin n1 m1 _, .inf n2 => if m1 = 0 then newNanF p else infF p (n1 != n2)
    | .inf n1, .inf n2 => infF p (n1 != n2)
    | _, _ => newNanF p

/-- a × b + c, rounded once. -/
def fmaF (p mode a b c : Nat) : Nat :=
  match nanOf p [a, b, c] with
  | some n => n
  | none =>
    match decodeF p a, decodeF p b, decodeF p c with
    | .fin n1 m1 e1, .fin n2 m2 e2, .fin n3 m3 e3 => addFin p mode (n1 != n2) (m1 * m2) (e1 + e2) n3 m3 e3
    | .fin _ _ _, .fin _ _ _, .inf n3 => infF p n3
    | x, y, z =>
      let prod : Option Bool := match x, y with   -- sign of an infinite product; none for 0 × ∞
        | .inf n1, .fin n2 m2 _ => if m2 = 0 then none else some (n1 != n2)
        | .fin n1 m1 _, .inf n2 => if m1 = 0 then none else some (n1 != n2)
        | .inf n1, .inf n2 => some (n1 != n2)
        | _, _ => none
      match prod, z with
      | none, _ => newNanF p
      | some n, .inf n3 => if n = n3 then infF p n else newNanF p
      | some n, _ => infF p n

/-- A quotient or root known to lie strictly between m and m + 1 keeps one more nonzero bit below. -/
def sticky (m : Nat) (e : Int) (exact : Bool) : Nat × Int := if exact then (m, e) else (4 * m + 1, e - 2)

def divF (p mode a b : Nat) : Nat :=
  match nanOf p [a, b] with
  | some n => n
  | none =>
    match decodeF p a, decodeF p b with
    | .fin n1 m1 e1, .fin n2 m2 e2 =>
      if m2 = 0 then (if m1 = 0 then newNanF p else infF p (n1 != n2))
      else
        let (q, e) := sticky (m1 * 2 ^ 64 / m2) (e1 - e2 - 64) (m1 * 2 ^ 64 % m2 == 0)
        if m1 = 0 then signF p (n1 != n2) else roundF p mode (n1 != n2) q e
    | .inf n1, .fin n2 _ _ => infF p (n1 != n2)
    | .fin n1 _ _, .inf n2 => signF p (n1 != n2)
    | _, _ => newNanF p

/-- Integer square root, one bit at a time. -/
def isqrtFrom (n : Nat) : Nat → Nat → Nat
  | 0, r => r
  | k + 1, r => if (r + 2 ^ k) * (r + 2 ^ k) ≤ n then isqrtFrom n k (r + 2 ^ k) else isqrtFrom n k r

def isqrt (n : Nat) : Nat := isqrtFrom n (Nat.log2 n / 2 + 1) 0

/-- Root of m × 2^e: with an even exponent, the integer root of m and whether it is exact. -/
def rootOf (m : Nat) (e : Int) : Nat × Int :=
  let m' := if e % 2 = 0 then m * 2 ^ 64 else m * 2 ^ 65
  let e' := if e % 2 = 0 then e - 64 else e - 65
  let r := isqrt m'
  sticky r (e' / 2) (r * r == m')

def sqrtF (p mode a : Nat) : Nat :=
  match nanOf p [a] with
  | some n => n
  | none =>
    match decodeF p a with
    | .fin neg m e =>
      if m = 0 then signF p neg
      else if neg then newNanF p
      else
        let (r, e') := rootOf m e
        roundF p mode false r e'
    | .inf neg => if neg then newNanF p else infF p false
    | .nan _ => newNanF p

/-! ### Order -/

/-- Order of the non-NaN data, −0 below +0. -/
def keyF (p x : Nat) : Int := if sgn p x then -(mag p x : Int) - 1 else (mag p x : Int)

/-- Order in which +0 = −0. -/
def valF (p x : Nat) : Int := if sgn p x then -(mag p x : Int) else (mag p x : Int)

def minF (p a b : Nat) : Nat :=
  match nanOf p [a, b] with
  | some n => n
  | none => if keyF p b < keyF p a then b else a

def maxF (p a b : Nat) : Nat :=
  match nanOf p [a, b] with
  | some n => n
  | none => if keyF p a < keyF p b then b else a

def eqF (p a b : Nat) : Bool := !isNanF p a && !isNanF p b && decide (valF p a = valF p b)
def ltF (p a b : Nat) : Bool := !isNanF p a && !isNanF p b && decide (valF p a < valF p b)
def leF (p a b : Nat) : Bool := !isNanF p a && !isNanF p b && decide (valF p a ≤ valF p b)

/-- relu (R265): the value above 0; +0 otherwise; a NaN made quiet with sign 0. -/
def reluF (p x : Nat) : Nat :=
  if isNanF p x then quietF p (x % 2 ^ (p - 1)) else if sgn p x || mag p x == 0 then 0 else x

/-! ### Conversions (R133 to R135) -/

/-- A value between formats: a NaN with its fp32 payload, an infinity, a dyadic, or a log value with its exponent in eighths. -/
inductive Val where
  | nan (payload : Nat)
  | inf (neg : Bool)
  | num (neg : Bool) (m : Nat) (e : Int)
  | log (neg : Bool) (ex : Int)
  deriving DecidableEq, Repr

/-- Table T of R132. -/
def tableT (f : Nat) : Nat :=
  match f with
  | 0 => 1024 | 1 => 1117 | 2 => 1218 | 3 => 1328 | 4 => 1448 | 5 => 1579 | 6 => 1722 | _ => 1878

/-- The table value of a log exponent E: T[f] × 2^(i − 10). -/
def logValue (neg : Bool) (ex : Int) : Val := .num neg (tableT (ex % 8).toNat) (ex / 8 - 10)

/-- Signed reading of `n` bits. -/
def signed (n x : Nat) : Int := if x % 2 ^ n < 2 ^ (n - 1) then (x % 2 ^ n : Int) else (x % 2 ^ n : Int) - 2 ^ n

def valOfInt (v scale : Int) : Val := .num (decide (v < 0)) v.natAbs scale

/-- Format codes of R83 and R293. -/
abbrev fFP32 : Nat := 0
abbrev fBF16 : Nat := 1
abbrev fLG8 : Nat := 2
abbrev fLG6 : Nat := 3
abbrev fI8 : Nat := 4
abbrev fN8 : Nat := 5
abbrev fI32 : Nat := 6
abbrev fRAW : Nat := 7

def scaleVal (x : Val) (scale : Int) : Val :=
  match x with
  | .num n m e => .num n m (e + scale)
  | v => v

/-- What a decoding reader reads from stored bits (R85, R130 to R132). -/
def decodeElem (fmt : Nat) (scale : Int) (x : Nat) : Val :=
  match fmt with
  | 0 => match decodeF 23 x with
    | .nan pl => .nan pl
    | .inf n => .inf n
    | .fin n m e => .num n m (e + scale)
  | 1 => match decodeF 7 x with
    | .nan pl => .nan (pl * 2 ^ 16)
    | .inf n => .inf n
    | .fin n m e => .num n m (e + scale)
  | 2 => if x % 256 = 0x40 then .num false 0 0 else if x % 256 = 0xC0 then .nan 0x3FFFFF
    else .log (x / 128 % 2 == 1) (signed 7 x + 8 * scale)
  | 3 => if x % 64 = 0x10 then .num false 0 0 else if x % 64 = 0x30 then .nan 0x3FFFFF
    else .log (x / 32 % 2 == 1) (2 * signed 5 x + 8 * scale)
  | 4 => valOfInt (signed 8 x) scale
  | 5 => valOfInt (x % 256 : Nat) scale
  | 6 => valOfInt (signed 32 x) 0
  | _ => valOfInt (x : Nat) 0

/-- Nearest integer, ties to even (R133). -/
def nearestInt (neg : Bool) (m : Nat) (e : Int) : Int :=
  let a : Nat :=
    if 0 ≤ e then m * 2 ^ e.toNat
    else
      let d := 2 ^ (-e).toNat
      let t := m / d
      if roundsUp 0 neg (t % 2 == 1) (m % d) (d / 2) then t + 1 else t
  if neg then -(a : Int) else (a : Int)

def clampInt (lo hi v : Int) : Int := if v < lo then lo else if hi < v then hi else v

/-- An integer as the bits of an `n`-bit field. -/
def intBits (n : Nat) (v : Int) : Nat := (v % 2 ^ n).toNat

/-- Number of the thresholds 2^((2j − 1)/(2n)), j = 1 … n, that m / 2^top reaches: (m / 2^top)^(2n) ≥ 2^(2j − 1), decided
exactly in integers (R134). -/
def thresholds (n m top : Nat) : Nat :=
  ((List.range n).filter (fun j => 2 ^ (2 * n * top + (2 * j + 1)) ≤ m ^ (2 * n))).length

/-- A log code from its exponent in units of the format (R134): saturated above, the zero code below. -/
def logCode (fmt : Nat) (neg : Bool) (l : Int) : Nat :=
  if fmt = 2 then
    if l < -63 then 0x40 else (if neg then 0x80 else 0) + intBits 7 (min l 63)
  else if l < -15 then 0x10 else (if neg then 0x20 else 0) + intBits 5 (min l 15)

/-- Half of an exponent in eighths, ties to even (R135). -/
def halfEven (x : Int) : Int := if x % 2 = 0 then x / 2 else if (x / 2) % 2 = 0 then x / 2 else x / 2 + 1

/-- Conversion into an IEEE format (R133). A zero of either sign gives +0. -/
def toIeee (p : Nat) (scale : Int) (v : Val) : Nat :=
  match v with
  | .nan pl => quietF p (if p = 23 then pl else pl / 2 ^ 16)
  | .inf n => infF p n
  | .num n m e => if m = 0 then 0 else roundF p 0 n m (e - scale)
  | .log n ex =>
    match logValue n ex with
    | .num n m e => roundF p 0 n m (e - scale)
    | _ => 0

/-- Conversion into an integer format: nearest, ties to even, saturated; NaN gives 0 (R133). -/
def toInt (lo hi : Int) (scale : Int) (v : Val) : Int :=
  match v with
  | .nan _ => 0
  | .inf n => if n then lo else hi
  | .num n m e => clampInt lo hi (nearestInt n m (e - scale))
  | .log n ex =>
    match logValue n ex with
    | .num n m e => clampInt lo hi (nearestInt n m (e - scale))
    | _ => 0

/-- Conversion into a log format (R134, R135). -/
def toLog (fmt : Nat) (scale : Int) (v : Val) : Nat :=
  match v with
  | .nan _ => if fmt = 2 then 0xC0 else 0x30
  | .inf n => logCode fmt n (if fmt = 2 then 63 else 15)
  | .num n m e =>
    if m = 0 then (if fmt = 2 then 0x40 else 0x10)
    else
      let top := Nat.log2 m
      let ex : Int := (top : Int) + e - scale
      if fmt = 2 then logCode 2 n (8 * ex + thresholds 8 m top) else logCode 3 n (4 * ex + thresholds 4 m top)
  | .log n ex =>
    let x := ex - 8 * scale
    if fmt = 2 then logCode 2 n x else logCode 3 n (halfEven x)

/-- Round(x × 2^−SCALE, fmt, RNE) as stored bits (R86, R133). -/
def encodeElem (fmt : Nat) (scale : Int) (v : Val) : Nat :=
  match fmt with
  | 0 => toIeee 23 scale v
  | 1 => toIeee 7 scale v
  | 2 => toLog 2 scale v
  | 3 => toLog 3 scale v
  | 4 => intBits 8 (toInt (-128) 127 scale v)
  | 5 => intBits 8 (toInt 0 255 scale v)
  | 6 => intBits 32 (toInt (-2 ^ 31) (2 ^ 31 - 1) 0 v)
  | _ => 0

/-- Bytes of an element (R294); lg6 is 6 bits. -/
def elemBytes (fmt : Nat) : Nat :=
  match fmt with
  | 0 => 4 | 1 => 2 | 6 => 4 | _ => 1

/-- fp32 to i32 and back, as the scalar and row conversions have them. -/
def cvtI32 (x : Nat) : Int := toInt (-2 ^ 31) (2 ^ 31 - 1) 0 (decodeElem 0 0 x)
def cvtFp32 (x : Nat) : Nat := toIeee 23 0 (decodeElem 6 0 x)

/-- bf16 widened exactly, as the operand of an add (R233, R288); a NaN gets sign 0 and its quiet bit set (R133). -/
def widenBf16 (x : Nat) : Nat := if isNanF 7 x then quietF 23 (x % 2 ^ 6 * 2 ^ 16) else x % 2 ^ 16 * 2 ^ 16

/-- bf16 converted to fp32 (R271): exact, and a zero of either sign converts to +0 (R133). -/
def bf16ToFp32 (x : Nat) : Nat := if x % 2 ^ 15 = 0 then 0 else widenBf16 x

/-! ### Functions of R268, by bounds that are narrowed until both round alike -/

/-- A real number between lo and hi, both counts of 2^−P. -/
structure Bounds where
  lo : Int
  hi : Int
  deriving DecidableEq, Repr

/-- Floor and ceiling of a / b for b > 0. -/
def floorDiv (a b : Int) : Int := a / b
def ceilDiv (a b : Int) : Int := -(-a / b)

/-- Σ y^n / n! for 0 ≤ y, with y and the terms as counts of 2^−P; `t` bounds the term before. -/
def expTerms (P : Nat) (y : Bounds) : Nat → Nat → Bounds → Bounds → Bounds
  | 0, _, _, sum => sum
  | k + 1, n, t, sum =>
    let t' : Bounds := ⟨floorDiv (t.lo * y.lo) (2 ^ P * n), ceilDiv (t.hi * y.hi) (2 ^ P * n)⟩
    expTerms P y k (n + 1) t' ⟨sum.lo + t'.lo, sum.hi + t'.hi⟩

/-- Bounds squared `k` times. -/
def squareTimes (P : Nat) : Nat → Bounds → Bounds
  | 0, b => b
  | k + 1, b => squareTimes P k ⟨floorDiv (b.lo * b.lo) (2 ^ P), ceilDiv (b.hi * b.hi) (2 ^ P)⟩

/-- e^(m × 2^e) for a number below 2^8: the series at m × 2^e / 2^9 (below 1/2), then squared nine times. The tail after
`P` terms is below the last unit, which the upper bound takes in. -/
def expBounds (P : Nat) (m : Nat) (e : Int) : Bounds :=
  let x := e - 9 + P
  let y : Bounds := if 0 ≤ x then ⟨(m * 2 ^ x.toNat : Nat), (m * 2 ^ x.toNat : Nat)⟩
    else ⟨(m / 2 ^ (-x).toNat : Nat), (m / 2 ^ (-x).toNat + 1 : Nat)⟩
  let one : Int := 2 ^ P
  let s := expTerms P y P 1 ⟨one, one⟩ ⟨one, one⟩
  squareTimes P 9 ⟨s.lo, s.hi + 2⟩

/-- Quotient of two positive numbers. -/
def divBounds (P : Nat) (a b : Bounds) : Bounds := ⟨floorDiv (a.lo * 2 ^ P) b.hi, ceilDiv (a.hi * 2 ^ P) b.lo⟩

/-- Σ z^(2k+1) / (2k+1) for 0 ≤ z ≤ 1/3. -/
def atanhTerms (P : Nat) (zz : Bounds) : Nat → Nat → Bounds → Bounds → Bounds
  | 0, _, _, sum => sum
  | k + 1, n, t, sum =>
    let t' : Bounds := ⟨floorDiv (t.lo * zz.lo) (2 ^ P), ceilDiv (t.hi * zz.hi) (2 ^ P)⟩
    atanhTerms P zz k (n + 2) t' ⟨sum.lo + floorDiv t'.lo n, sum.hi + ceilDiv t'.hi n⟩

/-- ln(a / b) for b ≤ a ≤ 2b, as twice the inverse hyperbolic tangent of (a − b)/(a + b). -/
def lnRatio (P a b : Nat) : Bounds :=
  let z : Bounds := ⟨floorDiv ((a - b) * 2 ^ P : Int) (a + b), ceilDiv ((a - b) * 2 ^ P : Int) (a + b)⟩
  let zz : Bounds := ⟨floorDiv (z.lo * z.lo) (2 ^ P), ceilDiv (z.hi * z.hi) (2 ^ P)⟩
  let s := atanhTerms P zz P 3 z z
  ⟨2 * s.lo, 2 * s.hi + 2⟩

/-- ln(m × 2^e) = (log2 m + e) ln 2 + ln(m / 2^log2 m). -/
def lnBounds (P m : Nat) (e : Int) : Bounds :=
  let top := Nat.log2 m
  let k : Int := (top : Int) + e
  let l2 := lnRatio P 2 1
  let r := lnRatio P m (2 ^ top)
  let kl : Bounds := if 0 ≤ k then ⟨k * l2.lo, k * l2.hi⟩ else ⟨k * l2.hi, k * l2.lo⟩
  ⟨kl.lo + r.lo, kl.hi + r.hi⟩

/-- Both bounds rounded to fp32, if they round alike. -/
def agree (P : Nat) (b : Bounds) : Option Nat :=
  let r (v : Int) := roundF 23 0 (decide (v < 0)) v.natAbs (-P)
  if r b.lo = r b.hi && decide (0 < b.lo ∨ b.hi < 0) then some (r b.lo) else none

/-- The first precision at which the bounds agree. -/
def firstAgree (f : Nat → Bounds) : List Nat → Option Nat
  | [] => none
  | P :: ps => match agree P (f P) with
    | some r => some r
    | none => firstAgree f ps

def precisions : List Nat := [256, 384, 512]

/-- The rounding that the bounds decide, or the free value of log 20. -/
def decided (fn : Nat) (x : Nat) (f : Nat → Bounds) : Nat :=
  (firstAgree f precisions).getD (Config.undecidedRounding fn (BitVec.ofNat 32 x)).toNat

/-- Is m × 2^e at least k? -/
def atLeast (m : Nat) (e : Int) (k : Nat) : Bool :=
  if 0 ≤ e then decide (k ≤ m * 2 ^ e.toNat) else decide (k * 2 ^ (-e).toNat ≤ m)

def oneF : Nat := 0x3F800000

/-- Bounds of e^x for a sign and a magnitude. -/
def expSigned (P : Nat) (neg : Bool) (m : Nat) (e : Int) : Bounds :=
  if neg then divBounds P ⟨2 ^ P, 2 ^ P⟩ (expBounds P m e) else expBounds P m e

/-- e^x (R268): above 0x7F7F_FFFF is +∞; e^−104 rounds to +0. -/
def expF (x : Nat) : Nat :=
  match nanOf 23 [x] with
  | some n => n
  | none =>
    match decodeF 23 x with
    | .inf neg => if neg then 0 else infF 23 false
    | .fin neg m e =>
      if m = 0 then oneF
      else if atLeast m e 105 then (if neg then 0 else infF 23 false)
      else decided 0 x (fun P => expSigned P neg m e)
    | .nan _ => newNanF 23

def logF (x : Nat) : Nat :=
  match nanOf 23 [x] with
  | some n => n
  | none =>
    match decodeF 23 x with
    | .inf neg => if neg then newNanF 23 else infF 23 false
    | .fin neg m e =>
      if m = 0 then infF 23 true
      else if neg then newNanF 23
      else if x = oneF then 0
      else decided 1 x (fun P => lnBounds P m e)
    | .nan _ => newNanF 23

def rcpF (mode x : Nat) : Nat := divF 23 mode oneF x

/-- 1 ÷ √x, rounded once to nearest even (R268). -/
def rsqrtF (x : Nat) : Nat :=
  match nanOf 23 [x] with
  | some n => n
  | none =>
    match decodeF 23 x with
    | .inf neg => if neg then newNanF 23 else 0
    | .fin neg m e =>
      if m = 0 then infF 23 neg
      else if neg then newNanF 23
      else
        let m' := if e % 2 = 0 then m else 2 * m
        let e' := if e % 2 = 0 then e else e - 1
        let q := isqrt (2 ^ 256 / m')
        let (r, e2) := sticky q (-128 - e' / 2) (q * q * m' == 2 ^ 256)
        roundF 23 0 false r e2
    | .nan _ => newNanF 23

/-- tanh x: ±1 once e^(2x) leaves it no nearer neighbour. -/
def tanhF (x : Nat) : Nat :=
  match nanOf 23 [x] with
  | some n => n
  | none =>
    match decodeF 23 x with
    | .inf neg => signF 23 neg + oneF
    | .fin neg m e =>
      if m = 0 then signF 23 neg
      else if atLeast m e 100 then signF 23 neg + oneF
      else
        let f (P : Nat) : Bounds :=
          let w := expBounds P m (e + 1)
          divBounds P ⟨w.lo - 2 ^ P, w.hi - 2 ^ P⟩ ⟨w.lo + 2 ^ P, w.hi + 2 ^ P⟩
        signF 23 neg + decided 5 (mag 23 x) f
    | .nan _ => newNanF 23

def sigmF (x : Nat) : Nat :=
  match nanOf 23 [x] with
  | some n => n
  | none =>
    match decodeF 23 x with
    | .inf neg => if neg then 0 else oneF
    | .fin neg m e =>
      if m = 0 then 0x3F000000
      else if atLeast m e 105 then (if neg then 0 else oneF)
      else decided 6 x (fun P =>
        let w := expSigned P (!neg) m e
        divBounds P ⟨2 ^ P, 2 ^ P⟩ ⟨w.lo + 2 ^ P, w.hi + 2 ^ P⟩)
    | .nan _ => newNanF 23

end Sys2Proof.Machine
end

