-- ==== Sys2Proof/Syntax.lean ====
section
/-! DEFINITION. The steps of the device: one constructor per row of the opcode table. The first 288 are the
instructions of R190, with their fields as raw bits of the width the encoding gives them (register numbers, immediates and
offsets not yet extended). The other 131 are the device's own steps and what the outside world does to it; their
operands say which tile, context, request or function takes the step, and, where the spec leaves a choice to firmware or
to a host, that choice. -/

namespace Sys2Proof

/-- The steps of the device. -/
inductive Instr where
  /-- MV_N (R192). Compact move: acts as add gx, gy, g0. -/
  | mvN (x : BitVec 5) (y : BitVec 5)
  /-- LI_N (R192). Compact load immediate: acts as addi gx, g0 with the sign-extended y field. -/
  | liN (x : BitVec 5) (imm : BitVec 5)
  /-- ADD_N (R192). Compact add: gx gets gx plus gy. -/
  | addN (x : BitVec 5) (y : BitVec 5)
  /-- ADDI_N (R192). Compact add immediate: gx gets gx plus sext(y). -/
  | addiN (x : BitVec 5) (imm : BitVec 5)
  /-- SUB_N (R192). Compact subtract: gx gets gx minus gy. -/
  | subN (x : BitVec 5) (y : BitVec 5)
  /-- SHLI_N (R192). Compact shift left by the unsigned y field. -/
  | shliN (x : BitVec 5) (imm : BitVec 5)
  /-- AND_N (R192). Compact and: gx gets gx and gy. -/
  | andN (x : BitVec 5) (y : BitVec 5)
  /-- SHRI_N (R192). Compact logical shift right by the unsigned y field. -/
  | shriN (x : BitVec 5) (imm : BitVec 5)
  /-- OR_N (R192). Compact or: gx gets gx or gy. -/
  | orN (x : BitVec 5) (y : BitVec 5)
  /-- SRAI_N (R192). Compact arithmetic shift right by the unsigned y field. -/
  | sraiN (x : BitVec 5) (imm : BitVec 5)
  /-- XOR_N (R192). Compact xor: gx gets gx xor gy. -/
  | xorN (x : BitVec 5) (y : BitVec 5)
  /-- ANDI_N (R192). Compact and immediate with the sign-extended y field. -/
  | andiN (x : BitVec 5) (imm : BitVec 5)
  /-- LD_N (R192). Compact 8-byte plain load from the pointer in gy. -/
  | ldN (x : BitVec 5) (y : BitVec 5)
  /-- LDSP_N (R192). Compact 8-byte plain load from g3 plus 8y. -/
  | ldspN (x : BitVec 5) (imm : BitVec 5)
  /-- ST_N (R192). Compact 8-byte plain store of gx to the pointer in gy. -/
  | stN (x : BitVec 5) (y : BitVec 5)
  /-- STSP_N (R192). Compact 8-byte plain store of gx to g3 plus 8y. -/
  | stspN (x : BitVec 5) (imm : BitVec 5)
  /-- BEQZ_N (R192). Compact branch if gx is zero, with a 6-bit halfword offset. -/
  | beqzN (x : BitVec 5) (off : BitVec 6)
  /-- BNEZ_N (R192). Compact branch if gx is non-zero, with a 6-bit halfword offset. -/
  | bnezN (x : BitVec 5) (off : BitVec 6)
  /-- J_N (R192). Compact jump by an 11-bit halfword offset. -/
  | jN (off : BitVec 11)
  /-- JR_N (R192). Compact register jump to gx. -/
  | jrN (x : BitVec 5)
  /-- CALLR_N (R192). Compact register call to gx with the link in g1. -/
  | callrN (x : BitVec 5)
  /-- RET_N (R192). Compact return to g1. -/
  | retN
  /-- NOP_N (R192). Compact no-operation. -/
  | nopN
  /-- ADDSP_N (R192). Compact stack adjust: g3 gets g3 plus 8 times the sign-extended x:y field. -/
  | addspN (imm : BitVec 10)
  /-- ADD (R203). d gets a plus b modulo 2^64. -/
  | add (d : BitVec 5) (a : BitVec 5) (b : BitVec 5)
  /-- SUB (R203). d gets a minus b modulo 2^64. -/
  | sub (d : BitVec 5) (a : BitVec 5) (b : BitVec 5)
  /-- AND (R203). d gets a and b. -/
  | and (d : BitVec 5) (a : BitVec 5) (b : BitVec 5)
  /-- OR (R203). d gets a or b. -/
  | or (d : BitVec 5) (a : BitVec 5) (b : BitVec 5)
  /-- XOR (R203). d gets a xor b. -/
  | xor (d : BitVec 5) (a : BitVec 5) (b : BitVec 5)
  /-- ANDN (R203). d gets a and not b. -/
  | andn (d : BitVec 5) (a : BitVec 5) (b : BitVec 5)
  /-- SHL (R203). d gets a shifted left by b[5:0]. -/
  | shl (d : BitVec 5) (a : BitVec 5) (b : BitVec 5)
  /-- SHR (R203). d gets a shifted right by b[5:0], zero filled. -/
  | shr (d : BitVec 5) (a : BitVec 5) (b : BitVec 5)
  /-- SRA (R203). d gets a shifted right by b[5:0], sign filled. -/
  | sra (d : BitVec 5) (a : BitVec 5) (b : BitVec 5)
  /-- MUL (R203). d gets the low 64 bits of a times b. -/
  | mul (d : BitVec 5) (a : BitVec 5) (b : BitVec 5)
  /-- MULH (R203). d gets the high 64 bits of the signed product. -/
  | mulh (d : BitVec 5) (a : BitVec 5) (b : BitVec 5)
  /-- MULHU (R203). d gets the high 64 bits of the unsigned product. -/
  | mulhu (d : BitVec 5) (a : BitVec 5) (b : BitVec 5)
  /-- DIV (R204). Signed division truncated toward zero, never trapping, with the edge results of R204. -/
  | div (d : BitVec 5) (a : BitVec 5) (b : BitVec 5)
  /-- DIVU (R204). Unsigned division, all ones for a zero divisor. -/
  | divu (d : BitVec 5) (a : BitVec 5) (b : BitVec 5)
  /-- REM (R204). Signed remainder taking the sign of a. -/
  | rem (d : BitVec 5) (a : BitVec 5) (b : BitVec 5)
  /-- REMU (R204). Unsigned remainder. -/
  | remu (d : BitVec 5) (a : BitVec 5) (b : BitVec 5)
  /-- SLT (R205). d gets 1 if a is less than b as signed, else 0. -/
  | slt (d : BitVec 5) (a : BitVec 5) (b : BitVec 5)
  /-- SLTU (R205). d gets 1 if a is less than b as unsigned, else 0. -/
  | sltu (d : BitVec 5) (a : BitVec 5) (b : BitVec 5)
  /-- MIN (R205). d gets the signed smaller of a and b. -/
  | min (d : BitVec 5) (a : BitVec 5) (b : BitVec 5)
  /-- MAX (R205). d gets the signed larger of a and b. -/
  | max (d : BitVec 5) (a : BitVec 5) (b : BitVec 5)
  /-- CLZ (R205). d gets the number of leading zero bits of a. -/
  | clz (d : BitVec 5) (a : BitVec 5)
  /-- POPC (R205). d gets the number of one bits of a. -/
  | popc (d : BitVec 5) (a : BitVec 5)
  /-- ADDI (R206). d gets a plus sext(imm11). -/
  | addi (d : BitVec 5) (a : BitVec 5) (imm : BitVec 11)
  /-- ANDI (R206). d gets a and sext(imm11). -/
  | andi (d : BitVec 5) (a : BitVec 5) (imm : BitVec 11)
  /-- ORI (R206). d gets a or sext(imm11). -/
  | ori (d : BitVec 5) (a : BitVec 5) (imm : BitVec 11)
  /-- XORI (R206). d gets a xor sext(imm11). -/
  | xori (d : BitVec 5) (a : BitVec 5) (imm : BitVec 11)
  /-- SLTI (R206). Signed compare of a with sext(imm11). -/
  | slti (d : BitVec 5) (a : BitVec 5) (imm : BitVec 11)
  /-- SLTUI (R206). Unsigned compare of a with sext(imm11). -/
  | sltui (d : BitVec 5) (a : BitVec 5) (imm : BitVec 11)
  /-- SHLI (R206). Shift left by an unsigned immediate 0-63. -/
  | shli (d : BitVec 5) (a : BitVec 5) (imm : BitVec 11)
  /-- SHRI (R206). Logical shift right by an unsigned immediate 0-63. -/
  | shri (d : BitVec 5) (a : BitVec 5) (imm : BitVec 11)
  /-- SRAI (R206). Arithmetic shift right by an unsigned immediate 0-63. -/
  | srai (d : BitVec 5) (a : BitVec 5) (imm : BitVec 11)
  /-- ADD_FP32 (R207). Scalar fp32 addition rounded in c.round. -/
  | addFp32 (d : BitVec 5) (a : BitVec 5) (b : BitVec 5)
  /-- SUB_FP32 (R207). Scalar fp32 subtraction. -/
  | subFp32 (d : BitVec 5) (a : BitVec 5) (b : BitVec 5)
  /-- MUL_FP32 (R207). Scalar fp32 multiplication. -/
  | mulFp32 (d : BitVec 5) (a : BitVec 5) (b : BitVec 5)
  /-- DIV_FP32 (R207). Scalar fp32 division using one of four divide units. -/
  | divFp32 (d : BitVec 5) (a : BitVec 5) (b : BitVec 5)
  /-- SQRT_FP32 (R207). Scalar fp32 square root. -/
  | sqrtFp32 (d : BitVec 5) (a : BitVec 5)
  /-- MIN_FP32 (R207). Scalar fp32 minimum with -0 below +0. -/
  | minFp32 (d : BitVec 5) (a : BitVec 5) (b : BitVec 5)
  /-- MAX_FP32 (R207). Scalar fp32 maximum with -0 below +0. -/
  | maxFp32 (d : BitVec 5) (a : BitVec 5) (b : BitVec 5)
  /-- FMA_FP32 (R207). Scalar fused multiply-add a times b plus c with one rounding. -/
  | fmaFp32 (d : BitVec 5) (a : BitVec 5) (b : BitVec 5) (c : BitVec 5)
  /-- SEQ_FP32 (R207). Scalar fp32 equality compare, 0 on NaN. -/
  | seqFp32 (d : BitVec 5) (a : BitVec 5) (b : BitVec 5)
  /-- SLT_FP32 (R207). Scalar fp32 less-than compare, 0 on NaN. -/
  | sltFp32 (d : BitVec 5) (a : BitVec 5) (b : BitVec 5)
  /-- CVT_I32_FP32 (R207). Converts fp32 to i32 by R133, sign-extended. -/
  | cvtI32Fp32 (d : BitVec 5) (a : BitVec 5)
  /-- CVT_FP32_I32 (R207). Converts i32 to fp32 by R133. -/
  | cvtFp32I32 (d : BitVec 5) (a : BitVec 5)
  /-- LUI (R209). d gets sext(imm20) shifted left by 12. -/
  | lui (d : BitVec 5) (imm : BitVec 20)
  /-- LPC (R209). d gets the program counter plus sext(imm20) times 2 within the code index. -/
  | lpc (d : BitVec 5) (imm : BitVec 20)
  /-- PMK (R210). Makes a pointer from an index in a and an offset in b. -/
  | pmk (d : BitVec 5) (a : BitVec 5) (b : BitVec 5)
  /-- PIDX (R210). Extracts the buffer index of a pointer. -/
  | pidx (d : BitVec 5) (a : BitVec 5)
  /-- POFF (R210). Extracts the offset of a pointer. -/
  | poff (d : BitVec 5) (a : BitVec 5)
  /-- PADD (R210). Adds b to the offset of pointer a modulo 2^46, keeping the index. -/
  | padd (d : BitVec 5) (a : BitVec 5) (b : BitVec 5)
  /-- BFX (R211). Extracts a sign-extended bit field of a. -/
  | bfx (d : BitVec 5) (a : BitVec 5) (b : BitVec 5) (imm : BitVec 6)
  /-- BFXU (R211). Extracts a zero-extended bit field of a. -/
  | bfxu (d : BitVec 5) (a : BitVec 5) (b : BitVec 5) (imm : BitVec 6)
  /-- BFI (R211). Inserts the low bits of a into a field of d. -/
  | bfi (d : BitVec 5) (a : BitVec 5) (b : BitVec 5) (imm : BitVec 6)
  /-- BR_EQ (R213). Branches if a equals b. -/
  | brEq (a : BitVec 5) (b : BitVec 5) (off : BitVec 11)
  /-- BR_NE (R213). Branches if a differs from b. -/
  | brNe (a : BitVec 5) (b : BitVec 5) (off : BitVec 11)
  /-- BR_LT (R213). Branches if a is less than b, signed. -/
  | brLt (a : BitVec 5) (b : BitVec 5) (off : BitVec 11)
  /-- BR_GE (R213). Branches if a is at least b, signed. -/
  | brGe (a : BitVec 5) (b : BitVec 5) (off : BitVec 11)
  /-- BR_LTU (R213). Branches if a is less than b, unsigned. -/
  | brLtu (a : BitVec 5) (b : BitVec 5) (off : BitVec 11)
  /-- BR_GEU (R213). Branches if a is at least b, unsigned. -/
  | brGeu (a : BitVec 5) (b : BitVec 5) (off : BitVec 11)
  /-- BR_LTZ (R213). Branches if a is negative. -/
  | brLtz (a : BitVec 5) (off : BitVec 11)
  /-- BR_GEZ (R213). Branches if a is not negative. -/
  | brGez (a : BitVec 5) (off : BitVec 11)
  /-- JMP (R214). Jumps by a 20-bit halfword offset. -/
  | jmp (off : BitVec 20)
  /-- CALL (R214). Jumps by a 20-bit halfword offset and writes the link to d. -/
  | call (d : BitVec 5) (off : BitVec 20)
  /-- JR (R214). Jumps to register a plus a halfword displacement. -/
  | jr (a : BitVec 5) (imm : BitVec 11)
  /-- CALLR (R214). Register jump that writes the link to d. -/
  | callr (d : BitVec 5) (a : BitVec 5) (imm : BitVec 11)
  /-- RET (R214). Returns to the address in g1. -/
  | ret
  /-- LOOP (R215). Decrements a and branches if the new value is non-zero. -/
  | loop (a : BitVec 5) (off : BitVec 11)
  /-- LD_B (R219). Plain sign-extending byte load. -/
  | ldB (d : BitVec 5) (b : BitVec 5) (off : BitVec 11)
  /-- LD_BZ (R219). Plain zero-extending byte load. -/
  | ldBz (d : BitVec 5) (b : BitVec 5) (off : BitVec 11)
  /-- LD_H (R219). Plain sign-extending halfword load. -/
  | ldH (d : BitVec 5) (b : BitVec 5) (off : BitVec 11)
  /-- LD_HZ (R219). Plain zero-extending halfword load. -/
  | ldHz (d : BitVec 5) (b : BitVec 5) (off : BitVec 11)
  /-- LD_W (R219). Plain sign-extending 4-byte load. -/
  | ldW (d : BitVec 5) (b : BitVec 5) (off : BitVec 11)
  /-- LD_WZ (R219). Plain zero-extending 4-byte load. -/
  | ldWz (d : BitVec 5) (b : BitVec 5) (off : BitVec 11)
  /-- LD_D (R219). Plain 8-byte load that does not block. -/
  | ldD (d : BitVec 5) (b : BitVec 5) (off : BitVec 11)
  /-- LD_D_WF (R221). Blocking wait-full load, an acquire. -/
  | ldDWf (d : BitVec 5) (b : BitVec 5) (off : BitVec 11)
  /-- LD_D_WFC (R221). Blocking wait-full-and-clear load, an acquire that empties the word. -/
  | ldDWfc (d : BitVec 5) (b : BitVec 5) (off : BitVec 11)
  /-- LD_D_WF_HELP (R221). Wait-full load that may adopt the owner of an empty word by Trapeze. -/
  | ldDWfHelp (d : BitVec 5) (b : BitVec 5) (off : BitVec 11)
  /-- LD_D_WFC_HELP (R221). Wait-full-and-clear load that may adopt the owner of an empty word. -/
  | ldDWfcHelp (d : BitVec 5) (b : BitVec 5) (off : BitVec 11)
  /-- LD_D_PR (R221). Blocking probe load that returns the value and P without parking. -/
  | ldDPr (d : BitVec 5) (b : BitVec 5) (off : BitVec 11)
  /-- ST_B (R220). Plain byte store. -/
  | stB (d : BitVec 5) (b : BitVec 5) (off : BitVec 11)
  /-- ST_H (R220). Plain halfword store. -/
  | stH (d : BitVec 5) (b : BitVec 5) (off : BitVec 11)
  /-- ST_W (R220). Plain 4-byte store. -/
  | stW (d : BitVec 5) (b : BitVec 5) (off : BitVec 11)
  /-- ST_D (R220). Plain 8-byte store that sets or clears the word's poison. -/
  | stD (d : BitVec 5) (b : BitVec 5) (off : BitVec 11)
  /-- ST_D_SF (R222). Set-full store, a release that never parks. -/
  | stDSf (d : BitVec 5) (b : BitVec 5) (off : BitVec 11)
  /-- ST_D_WE (R222). Blocking wait-empty store, a release that fills the word. -/
  | stDWe (d : BitVec 5) (b : BitVec 5) (off : BitVec 11)
  /-- LDM_D (R224). Loads 1-32 consecutive words into a register group, all checked first. -/
  | ldmD (d : BitVec 5) (a : BitVec 5) (b : BitVec 5) (imm : BitVec 6)
  /-- STM_D (R224). Stores a register group to 1-32 consecutive words, all checked first. -/
  | stmD (d : BitVec 5) (a : BitVec 5) (b : BitVec 5) (imm : BitVec 6)
  /-- PSET (R225). Sets a word's P to full, a release. -/
  | pset (b : BitVec 5) (off : BitVec 11)
  /-- PCLR (R225). Sets a word's P to empty. -/
  | pclr (b : BitVec 5) (off : BitVec 11)
  /-- PGET (R225). Reads a word's P into d. -/
  | pget (d : BitVec 5) (b : BitVec 5) (off : BitVec 11)
  /-- WATCH (R226). Arms a watch record on a word with the message type in d. -/
  | watch (d : BitVec 5) (b : BitVec 5) (off : BitVec 11)
  /-- UNWATCH (R226). Clears W and removes the word's watch record. -/
  | unwatch (b : BitVec 5) (off : BitVec 11)
  /-- FENCE_ACQ_TILE (R227). Acquire fence over the tile scope. -/
  | fenceAcqTile
  /-- FENCE_ACQ_TOWER (R227). Acquire fence over the tower scope. -/
  | fenceAcqTower
  /-- FENCE_ACQ_PKG (R227). Acquire fence over the package scope. -/
  | fenceAcqPkg
  /-- FENCE_ACQ_DOM (R227). Acquire fence over all non-window accesses. -/
  | fenceAcqDom
  /-- FENCE_ACQ_WIN (R227). Acquire fence over window accesses. -/
  | fenceAcqWin
  /-- FENCE_REL_TILE (R227). Release fence over the tile scope. -/
  | fenceRelTile
  /-- FENCE_REL_TOWER (R227). Release fence over the tower scope. -/
  | fenceRelTower
  /-- FENCE_REL_PKG (R227). Release fence over the package scope. -/
  | fenceRelPkg
  /-- FENCE_REL_DOM (R227). Release fence over all non-window accesses. -/
  | fenceRelDom
  /-- FENCE_REL_WIN (R227). Release fence over window accesses. -/
  | fenceRelWin
  /-- FENCE_FULL_TILE (R227). Full fence over the tile scope. -/
  | fenceFullTile
  /-- FENCE_FULL_TOWER (R227). Full fence over the tower scope. -/
  | fenceFullTower
  /-- FENCE_FULL_PKG (R227). Full fence over the package scope. -/
  | fenceFullPkg
  /-- FENCE_FULL_DOM (R227). Full fence over all accesses, window and non-window. -/
  | fenceFullDom
  /-- FENCE_FULL_WIN (R227). Full fence over window accesses. -/
  | fenceFullWin
  /-- AMO_ADD (R229). Atomic 8-byte add returning the old value; may be combined in Midway. -/
  | amoAdd (d : BitVec 5) (a : BitVec 5) (b : BitVec 5)
  /-- AMO_AND (R229). Atomic 8-byte and. -/
  | amoAnd (d : BitVec 5) (a : BitVec 5) (b : BitVec 5)
  /-- AMO_OR (R229). Atomic 8-byte or. -/
  | amoOr (d : BitVec 5) (a : BitVec 5) (b : BitVec 5)
  /-- AMO_XOR (R229). Atomic 8-byte xor. -/
  | amoXor (d : BitVec 5) (a : BitVec 5) (b : BitVec 5)
  /-- AMO_MIN (R229). Atomic 8-byte signed minimum. -/
  | amoMin (d : BitVec 5) (a : BitVec 5) (b : BitVec 5)
  /-- AMO_MAX (R229). Atomic 8-byte signed maximum. -/
  | amoMax (d : BitVec 5) (a : BitVec 5) (b : BitVec 5)
  /-- AMO_SWAP (R229). Atomic 8-byte swap. -/
  | amoSwap (d : BitVec 5) (a : BitVec 5) (b : BitVec 5)
  /-- AMO_CAS (R229). Atomic 8-byte compare-and-swap against c. -/
  | amoCas (d : BitVec 5) (a : BitVec 5) (b : BitVec 5) (c : BitVec 5)
  /-- AMO_ADD_W (R229). Atomic 4-byte add. -/
  | amoAddW (d : BitVec 5) (a : BitVec 5) (b : BitVec 5)
  /-- AMO_AND_W (R229). Atomic 4-byte and. -/
  | amoAndW (d : BitVec 5) (a : BitVec 5) (b : BitVec 5)
  /-- AMO_OR_W (R229). Atomic 4-byte or. -/
  | amoOrW (d : BitVec 5) (a : BitVec 5) (b : BitVec 5)
  /-- AMO_XOR_W (R229). Atomic 4-byte xor. -/
  | amoXorW (d : BitVec 5) (a : BitVec 5) (b : BitVec 5)
  /-- AMO_MIN_W (R229). Atomic 4-byte signed minimum. -/
  | amoMinW (d : BitVec 5) (a : BitVec 5) (b : BitVec 5)
  /-- AMO_MAX_W (R229). Atomic 4-byte signed maximum. -/
  | amoMaxW (d : BitVec 5) (a : BitVec 5) (b : BitVec 5)
  /-- AMO_SWAP_W (R229). Atomic 4-byte swap. -/
  | amoSwapW (d : BitVec 5) (a : BitVec 5) (b : BitVec 5)
  /-- AMO_CAS_W (R229). Atomic 4-byte compare-and-swap. -/
  | amoCasW (d : BitVec 5) (a : BitVec 5) (b : BitVec 5) (c : BitVec 5)
  /-- AMO_ADD_FP32 (R231). Atomic fp32 add at the bank with RNE. -/
  | amoAddFp32 (d : BitVec 5) (a : BitVec 5) (b : BitVec 5)
  /-- AMO_MAX_FP32 (R231). Atomic fp32 maximum at the bank. -/
  | amoMaxFp32 (d : BitVec 5) (a : BitVec 5) (b : BitVec 5)
  /-- RDX_INIT (R233). Sets every slot of a reduce cell to +0.0. -/
  | rdxInit (a : BitVec 5)
  /-- RDX_ADD_FP32 (R233). Adds an fp32 value into the issuing tile's slot of a reduce cell. -/
  | rdxAddFp32 (a : BitVec 5) (b : BitVec 5)
  /-- RDX_ADD_BF16 (R233). Widens a bf16 value and adds it into the issuing tile's slot. -/
  | rdxAddBf16 (a : BitVec 5) (b : BitVec 5)
  /-- RDX_READ (R234). Reads a reduce cell as the core-order sum of all its slots. -/
  | rdxRead (d : BitVec 5) (a : BitVec 5)
  /-- SPAWN (R238). Reserves a deque entry on the own tile and pushes a frame as a release. -/
  | spawn (a : BitVec 5)
  /-- SPAWN_T (R238). Pushes a frame onto the deque of a named tile, blocking until reserved. -/
  | spawnT (a : BitVec 5) (b : BitVec 5)
  /-- TDONE (R240). Ends the frame in g2 as DONE and fills its future with the result. -/
  | tdone (a : BitVec 5)
  /-- TYIELD (R241). Makes the context not eligible until the other eligible slots of its partition have issued. -/
  | tyield
  /-- TEXIT (R240). Ends the frame in g2 as FAILED with a poisoned future and a record. -/
  | texit
  /-- HELP (R242). Offers to adopt an UNSTARTED frame and run it in place. -/
  | help (a : BitVec 5)
  /-- DQLEN (R243). Returns the number of entries of the partition's deque in the tile. -/
  | dqlen (d : BitVec 5)
  /-- SEND (R246). Sends a two-word message to a tile's vector table entry and blocks for the answer. -/
  | send (d : BitVec 5) (a : BitVec 5) (b : BitVec 5) (c : BitVec 5)
  /-- SEND_MC (R248). Sends a message to up to 128 tiles selected by an e-register vector. -/
  | sendMc (d : BitVec 5) (a : BitVec 5) (b : BitVec 5) (c : BitVec 5)
  /-- SEND_MB (R249). Delivers a word to a task mailbox as st.d.we, trapping DEAD_TARGET for an ended owner. -/
  | sendMb (d : BitVec 5) (a : BitVec 5) (b : BitVec 5)
  /-- SEND_MB_F (R249). Mailbox delivery that returns status 1 instead of trapping for an ended owner. -/
  | sendMbF (d : BitVec 5) (a : BitVec 5) (b : BitVec 5)
  /-- MSGRET (R247). Ends a message handler and makes its slot IDLE. -/
  | msgret
  /-- GBAR (R251). Arrives at the gang barrier and waits for the release. -/
  | gbar (d : BitVec 5)
  /-- GARRIVE (R251). Arrives at the gang barrier as a release at dom. -/
  | garrive
  /-- GWAIT (R251). Waits for the release of the outstanding arrival's episode. -/
  | gwait (d : BitVec 5)
  /-- GQUERY (R252). Reads a snapshot of the missing members of one tile. -/
  | gquery (d : BitVec 5) (a : BitVec 5)
  /-- GLEAVE (R253). Leaves the gang and makes the slot IDLE. -/
  | gleave
  /-- SBORROW (R254). Borrows the lowest IDLE slot of the partition in the tile. -/
  | sborrow (d : BitVec 5)
  /-- SRETURN (R254). Returns a borrowed slot and discards its registers. -/
  | sreturn (a : BitVec 5)
  /-- XMOV_TO (R255). Moves a g register into a borrowed slot's register. -/
  | xmovTo (a : BitVec 5) (b : BitVec 5) (imm : BitVec 6)
  /-- XMOV_FROM (R255). Moves a borrowed slot's g register into a local register. -/
  | xmovFrom (d : BitVec 5) (a : BitVec 5) (imm : BitVec 6)
  /-- XMOVM_TO (R255). Moves n g registers into a borrowed slot. -/
  | xmovmTo (d : BitVec 5) (a : BitVec 5) (b : BitVec 5) (imm : BitVec 6)
  /-- XMOVM_FROM (R255). Moves n g registers out of a borrowed slot. -/
  | xmovmFrom (d : BitVec 5) (a : BitVec 5) (b : BitVec 5) (imm : BitVec 6)
  /-- XMOVX_TO (R255). Moves an e register into a borrowed slot. -/
  | xmovxTo (a : BitVec 5) (b : BitVec 5) (imm : BitVec 6)
  /-- XMOVX_FROM (R255). Moves a borrowed slot's e register into a local e register. -/
  | xmovxFrom (d : BitVec 5) (a : BitVec 5) (imm : BitVec 6)
  /-- QPUT (R257). Appends a word to a stage FIFO, blocking while it is full. -/
  | qput (a : BitVec 5) (imm : BitVec 6)
  /-- QGET (R257). Removes the oldest word of a stage FIFO, blocking while it is empty. -/
  | qget (d : BitVec 5) (imm : BitVec 6)
  /-- QPUT_NB (R257). Non-blocking put returning a status. -/
  | qputNb (d : BitVec 5) (a : BitVec 5) (imm : BitVec 6)
  /-- QGET_NB (R257). Non-blocking get returning the word and a status. -/
  | qgetNb (d : BitVec 5) (imm : BitVec 6)
  /-- QLEN (R257). Returns the words and places available on a queue name. -/
  | qlen (d : BitVec 5) (imm : BitVec 6)
  /-- VADD_FP32 (R265). Row fp32 addition lane by lane. -/
  | vaddFp32 (d : BitVec 6) (a : BitVec 6) (b : BitVec 6)
  /-- VSUB_FP32 (R265). Row fp32 subtraction. -/
  | vsubFp32 (d : BitVec 6) (a : BitVec 6) (b : BitVec 6)
  /-- VMUL_FP32 (R265). Row fp32 multiplication. -/
  | vmulFp32 (d : BitVec 6) (a : BitVec 6) (b : BitVec 6)
  /-- VDIV_FP32 (R265). Row fp32 division, occupying the row unit for 4 cycles. -/
  | vdivFp32 (d : BitVec 6) (a : BitVec 6) (b : BitVec 6)
  /-- VFMA_FP32 (R265). Row fp32 fused multiply-add into vd. -/
  | vfmaFp32 (d : BitVec 6) (a : BitVec 6) (b : BitVec 6)
  /-- VMIN_FP32 (R265). Row fp32 minimum. -/
  | vminFp32 (d : BitVec 6) (a : BitVec 6) (b : BitVec 6)
  /-- VMAX_FP32 (R265). Row fp32 maximum. -/
  | vmaxFp32 (d : BitVec 6) (a : BitVec 6) (b : BitVec 6)
  /-- VABS_FP32 (R265). Row fp32 absolute value. -/
  | vabsFp32 (d : BitVec 6) (a : BitVec 6)
  /-- VNEG_FP32 (R265). Row fp32 negation. -/
  | vnegFp32 (d : BitVec 6) (a : BitVec 6)
  /-- VRELU_FP32 (R265). Row fp32 relu. -/
  | vreluFp32 (d : BitVec 6) (a : BitVec 6)
  /-- VADDB_FP32 (R265). Adds the fp32 value of a g register to every lane. -/
  | vaddbFp32 (d : BitVec 6) (a : BitVec 6) (b : BitVec 6)
  /-- VMULB_FP32 (R265). Multiplies every lane by the fp32 value of a g register. -/
  | vmulbFp32 (d : BitVec 6) (a : BitVec 6) (b : BitVec 6)
  /-- VADD_BF16 (R266). Row bf16 addition on 128 lanes. -/
  | vaddBf16 (d : BitVec 6) (a : BitVec 6) (b : BitVec 6)
  /-- VSUB_BF16 (R266). Row bf16 subtraction. -/
  | vsubBf16 (d : BitVec 6) (a : BitVec 6) (b : BitVec 6)
  /-- VMUL_BF16 (R266). Row bf16 multiplication. -/
  | vmulBf16 (d : BitVec 6) (a : BitVec 6) (b : BitVec 6)
  /-- VFMA_BF16 (R266). Row bf16 fused multiply-add into vd. -/
  | vfmaBf16 (d : BitVec 6) (a : BitVec 6) (b : BitVec 6)
  /-- VMIN_BF16 (R266). Row bf16 minimum. -/
  | vminBf16 (d : BitVec 6) (a : BitVec 6) (b : BitVec 6)
  /-- VMAX_BF16 (R266). Row bf16 maximum. -/
  | vmaxBf16 (d : BitVec 6) (a : BitVec 6) (b : BitVec 6)
  /-- VRELU_BF16 (R266). Row bf16 relu. -/
  | vreluBf16 (d : BitVec 6) (a : BitVec 6)
  /-- VADD_I32 (R267). Row i32 addition modulo 2^32. -/
  | vaddI32 (d : BitVec 6) (a : BitVec 6) (b : BitVec 6)
  /-- VSUB_I32 (R267). Row i32 subtraction. -/
  | vsubI32 (d : BitVec 6) (a : BitVec 6) (b : BitVec 6)
  /-- VMUL_I32 (R267). Row i32 multiplication, low 32 bits. -/
  | vmulI32 (d : BitVec 6) (a : BitVec 6) (b : BitVec 6)
  /-- VMIN_I32 (R267). Row i32 signed minimum. -/
  | vminI32 (d : BitVec 6) (a : BitVec 6) (b : BitVec 6)
  /-- VMAX_I32 (R267). Row i32 signed maximum. -/
  | vmaxI32 (d : BitVec 6) (a : BitVec 6) (b : BitVec 6)
  /-- VAND_I32 (R267). Row bitwise and. -/
  | vandI32 (d : BitVec 6) (a : BitVec 6) (b : BitVec 6)
  /-- VOR_I32 (R267). Row bitwise or. -/
  | vorI32 (d : BitVec 6) (a : BitVec 6) (b : BitVec 6)
  /-- VXOR_I32 (R267). Row bitwise xor. -/
  | vxorI32 (d : BitVec 6) (a : BitVec 6) (b : BitVec 6)
  /-- VSHL_I32 (R267). Row shift left by vb[4:0]. -/
  | vshlI32 (d : BitVec 6) (a : BitVec 6) (b : BitVec 6)
  /-- VSRA_I32 (R267). Row arithmetic shift right by vb[4:0]. -/
  | vsraI32 (d : BitVec 6) (a : BitVec 6) (b : BitVec 6)
  /-- VRELU_I32 (R267). Row i32 relu. -/
  | vreluI32 (d : BitVec 6) (a : BitVec 6)
  /-- VEXP_FP32 (R268). Correctly rounded row e^x. -/
  | vexpFp32 (d : BitVec 6) (a : BitVec 6)
  /-- VLOG_FP32 (R268). Correctly rounded row natural logarithm. -/
  | vlogFp32 (d : BitVec 6) (a : BitVec 6)
  /-- VRCP_FP32 (R268). Correctly rounded row reciprocal in c.round. -/
  | vrcpFp32 (d : BitVec 6) (a : BitVec 6)
  /-- VRSQRT_FP32 (R268). Correctly rounded row reciprocal square root. -/
  | vrsqrtFp32 (d : BitVec 6) (a : BitVec 6)
  /-- VSQRT_FP32 (R268). Correctly rounded row square root in c.round. -/
  | vsqrtFp32 (d : BitVec 6) (a : BitVec 6)
  /-- VTANH_FP32 (R268). Correctly rounded row tanh. -/
  | vtanhFp32 (d : BitVec 6) (a : BitVec 6)
  /-- VSIGM_FP32 (R268). Correctly rounded row sigmoid. -/
  | vsigmFp32 (d : BitVec 6) (a : BitVec 6)
  /-- VCMP_EQ_FP32 (R269). Row fp32 equality compare to all-ones masks. -/
  | vcmpEqFp32 (d : BitVec 6) (a : BitVec 6) (b : BitVec 6)
  /-- VCMP_LT_FP32 (R269). Row fp32 less-than compare. -/
  | vcmpLtFp32 (d : BitVec 6) (a : BitVec 6) (b : BitVec 6)
  /-- VCMP_LE_FP32 (R269). Row fp32 less-or-equal compare. -/
  | vcmpLeFp32 (d : BitVec 6) (a : BitVec 6) (b : BitVec 6)
  /-- VCMP_EQ_I32 (R269). Row i32 equality compare. -/
  | vcmpEqI32 (d : BitVec 6) (a : BitVec 6) (b : BitVec 6)
  /-- VCMP_LT_I32 (R269). Row i32 signed less-than compare. -/
  | vcmpLtI32 (d : BitVec 6) (a : BitVec 6) (b : BitVec 6)
  /-- VSEL (R269). Selects va or vb per element by the mask in vd. -/
  | vsel (d : BitVec 6) (a : BitVec 6) (b : BitVec 6)
  /-- VSUM_FP32 (R270). Tree sum of a row broadcast to every element of vd. -/
  | vsumFp32 (d : BitVec 6) (a : BitVec 6)
  /-- VSUM_I32 (R270). Exact i32 row sum saturated once. -/
  | vsumI32 (d : BitVec 6) (a : BitVec 6)
  /-- VMAXR_FP32 (R270). Tree maximum of a row. -/
  | vmaxrFp32 (d : BitVec 6) (a : BitVec 6)
  /-- VBCAST (R270). Broadcasts g[a][31:0] to every element of vd. -/
  | vbcast (d : BitVec 6) (a : BitVec 6)
  /-- VGET (R270). Reads one element of a row into a g register. -/
  | vget (d : BitVec 6) (a : BitVec 6) (b : BitVec 6)
  /-- VSET (R270). Writes one element of a row from a g register. -/
  | vset (d : BitVec 6) (a : BitVec 6) (b : BitVec 6)
  /-- VCVT_BF16_FP32 (R271). Packs two fp32 rows into one bf16 row with RNE. -/
  | vcvtBf16Fp32 (d : BitVec 6) (a : BitVec 6) (b : BitVec 6)
  /-- VCVT_FP32_BF16 (R271). Widens the even or odd bf16 lanes of a row to fp32. -/
  | vcvtFp32Bf16 (d : BitVec 6) (a : BitVec 6) (b : BitVec 6)
  /-- VCVT_I32_FP32 (R271). Converts a row from fp32 to i32. -/
  | vcvtI32Fp32 (d : BitVec 6) (a : BitVec 6)
  /-- VCVT_FP32_I32 (R271). Converts a row from i32 to fp32. -/
  | vcvtFp32I32 (d : BitVec 6) (a : BitVec 6)
  /-- VMOV (R271). Copies a row with its poison flags. -/
  | vmov (d : BitVec 6) (a : BitVec 6)
  /-- VLD (R272). Loads a row from the own loft, decoding the bank's format. -/
  | vld (d : BitVec 6) (a : BitVec 6) (b : BitVec 6)
  /-- VST (R272). Stores a row to the own loft, encoding into the bank's format. -/
  | vst (d : BitVec 6) (a : BitVec 6) (b : BitVec 6)
  /-- ABIND (R277). Binds an accumulator tile for the context's row instructions. -/
  | abind (d : BitVec 5)
  /-- AUNBIND (R277). Unbinds the accumulator tile. -/
  | aunbind
  /-- ATYPE_FP32 (R277). Sets a tile's element type to fp32, interlocked. -/
  | atypeFp32 (d : BitVec 5)
  /-- ATYPE_I32 (R277). Sets a tile's element type to i32, interlocked. -/
  | atypeI32 (d : BitVec 5)
  /-- ATYPE_BF16 (R277). Sets a tile's element type to bf16, interlocked. -/
  | atypeBf16 (d : BitVec 5)
  /-- AZERO (R277). Clears every element of a tile, interlocked. -/
  | azero (d : BitVec 5)
  /-- AQLEN (R277). Returns the number of commands in the matrix queue. -/
  | aqlen (d : BitVec 5)
  /-- AVER (R277). Returns a tile's version counter. -/
  | aver (d : BitVec 5) (a : BitVec 5)
  /-- MMA (R283). Queues a dense matrix multiply-accumulate on a tile at its expected version. -/
  | mma (d : BitVec 5) (a : BitVec 5)
  /-- MMA_SP6 (R283). Queues a 6-of-24 sparse matrix command. -/
  | mmaSp6 (d : BitVec 5) (a : BitVec 5)
  /-- MMA_SP12 (R283). Queues a 12-of-24 sparse matrix command. -/
  | mmaSp12 (d : BitVec 5) (a : BitVec 5)
  /-- MMA_Z (R283). Queues a matrix command that first zeroes its destination. -/
  | mmaZ (d : BitVec 5) (a : BitVec 5)
  /-- AWAIT (R286). Blocks until a tile's version reaches the given value, then acquires. -/
  | await (d : BitVec 5) (a : BitVec 5)
  /-- DRAIN (R288). Hands a tile to the copy engine to write it out by a shape record. -/
  | drain (d : BitVec 5) (a : BitVec 5) (b : BitVec 5)
  /-- DRAIN_ADD (R288). Drain that adds each element at the bank in fp32. -/
  | drainAdd (d : BitVec 5) (a : BitVec 5) (b : BitVec 5)
  /-- ACOPY (R289). Queues a copy of one accumulator tile into another. -/
  | acopy (d : BitVec 5) (a : BitVec 5) (b : BitVec 5)
  /-- CPY (R301). Queues a copy-engine command from source to destination record. -/
  | cpy (a : BitVec 5) (b : BitVec 5)
  /-- CPY_MM (R303). Queues a copy with a follow-on matrix command. -/
  | cpyMm (d : BitVec 5) (a : BitVec 5) (b : BitVec 5) (imm : BitVec 6)
  /-- CPY_MC (R302). Queues a copy multicast to the lofts of tiles selected by a mask. -/
  | cpyMc (a : BitVec 5) (b : BitVec 5)
  /-- CPY_MM_MC (R303). Queues a multicast copy with a follow-on in each selected tile. -/
  | cpyMmMc (d : BitVec 5) (a : BitVec 5) (b : BitVec 5) (imm : BitVec 6)
  /-- CPY_ADD (R301). Queues a copy that adds each element into fp32 destinations. -/
  | cpyAdd (a : BitVec 5) (b : BitVec 5)
  /-- CPY_FILL (R301). Queues a fill of a destination with a pattern. -/
  | cpyFill (a : BitVec 5) (b : BitVec 5)
  /-- CPY_KEEP (R301). Queues a copy that writes only empty destination words. -/
  | cpyKeep (a : BitVec 5) (b : BitVec 5)
  /-- CPY_SEND (R306). Queues a copy that sends a message after its completion fill. -/
  | cpySend (d : BitVec 5) (a : BitVec 5) (b : BitVec 5)
  /-- CPY_CANCEL (R307). Cancels the partition's commands with a given completion pointer. -/
  | cpyCancel (d : BitVec 5) (b : BitVec 5)
  /-- CPY_QUERY (R308). Returns the status of a copy command or the count of commands. -/
  | cpyQuery (d : BitVec 5) (b : BitVec 5)
  /-- XSET (R278). Sets both halves of an e register from two g registers. -/
  | xset (d : BitVec 5) (a : BitVec 5) (b : BitVec 5)
  /-- XGET_LO (R278). Reads the low half of an e register. -/
  | xgetLo (d : BitVec 5) (a : BitVec 5)
  /-- XGET_HI (R278). Reads the high half of an e register. -/
  | xgetHi (d : BitVec 5) (a : BitVec 5)
  /-- XLD (R278). Loads an e register from 16 aligned bytes with two plain loads. -/
  | xld (d : BitVec 5) (a : BitVec 5) (imm : BitVec 6)
  /-- XST (R278). Stores an e register to 16 aligned bytes with two plain stores. -/
  | xst (d : BitVec 5) (a : BitVec 5) (imm : BitVec 6)
  /-- XCLR (R278). Clears an e register. -/
  | xclr (d : BitVec 5)
  /-- TRAP (R316). Raises SYSCALL for n up to 0x3FF or calls a firmware service for larger n. -/
  | trap (imm : BitVec 11)
  /-- BRK (R316). Completes and raises BREAK with c.tval = n. -/
  | brk (imm : BitVec 11)
  /-- TBACK (R319). Resumes a trapped context at c.epc and clears INTRAP. -/
  | tback
  /-- NAP (R321). Blocks the context for a number of reference cycles. -/
  | nap (a : BitVec 5)
  /-- IFENCE (R228). Waits for earlier reads and discards fetched-ahead halfwords. -/
  | ifence
  /-- CGET (R313). Reads a control register. -/
  | cget (d : BitVec 5) (imm : BitVec 6)
  /-- CSET (R313). Writes a control register from a g register. -/
  | cset (a : BitVec 5) (imm : BitVec 6)
  /-- CSETI (R313). Writes a control register from a 5-bit immediate. -/
  | cseti (b : BitVec 5) (imm : BitVec 6)
  /-- CCLR (R313). Clears bits of a control register and returns the old value. -/
  | cclr (d : BitVec 5) (a : BitVec 5) (imm : BitVec 6)
  /-- CBIS (R313). Sets bits of a control register and returns the old value. -/
  | cbis (d : BitVec 5) (a : BitVec 5) (imm : BitVec 6)
  /-- HCGET (R323). House read of the register that a selector names. -/
  | hcget (d : BitVec 5) (a : BitVec 5)
  /-- HCSET (R323). House write of the register that a selector names. -/
  | hcset (a : BitVec 5) (b : BitVec 5)
  /-- HSTART (R324). Starts an IDLE slot at an entry with an argument. -/
  | hstart (d : BitVec 5) (a : BitVec 5) (b : BitVec 5) (c : BitVec 5)
  /-- HKILL (R324). Ends a slot, cancelling its parked references. -/
  | hkill (d : BitVec 5) (a : BitVec 5)
  /-- HREC (R324). Copies a 64-byte record into the error queue. -/
  | hrec (a : BitVec 5)
  /-- HQUIESCE (R324). Blocks until nothing naming a LOWN space is in flight. -/
  | hquiesce (a : BitVec 5)
  /-- HPURGE (R324). Drops a tenant's wait-list entries in the tile without wake. -/
  | hpurge (d : BitVec 5) (a : BitVec 5)
  /-- HCOPY (R324). Copies memory with values, P, W and poison and re-arms watches. -/
  | hcopy (a : BitVec 5) (b : BitVec 5) (c : BitVec 5)
  /-- CAROUSEL_ISSUE (R151). Each cycle Carousel updates deficits and issues from one eligible context. -/
  | carouselIssue (tile : Nat)
  /-- ESCALATION (R318). A house slot takes an escalated trap and ends the context as texit does. -/
  | escalation (ctx : Nat)
  /-- SERVICE_CALL (R320). A house slot serves a firmware service call and unblocks the caller. -/
  | serviceCall (ctx : Nat)
  /-- SEAL_CREATE (R126). Seal service creates a window and a key slot. -/
  | sealCreate (ctx : Nat) (base : Word) (slot : Nat) (idx : Nat)
  /-- SEAL_OFFER (R126). Seal service lets a tenant join a window with at most given rights. -/
  | sealOffer (ctx : Nat)
  /-- SEAL_JOIN (R126). Seal service adds a window entry to the caller's table. -/
  | sealJoin (ctx : Nat) (idx : Nat)
  /-- SEAL_RIGHTS (R126). Seal service changes a sharer's rights and shoots down. -/
  | sealRights (ctx : Nat)
  /-- SEAL_LEAVE (R126). Seal service removes the caller's entry and re-keys the window. -/
  | sealLeave (ctx : Nat)
  /-- SEAL_REKEY (R126). Seal service starts a window re-key with a completion word. -/
  | sealRekey (ctx : Nat)
  /-- SEAL_IMPORT (R129). Seal service checks and imports a bounce record into the tenant's buffer. -/
  | sealImport (ctx : Nat) (plain : Option (List Byte))
  /-- SEAL_EXPORT (R129). Seal service exports data into a bounce record. -/
  | sealExport (ctx : Nat) (sealed : List Byte)
  /-- LOFT_SET_FORMAT (R320). Loft service requests a format register change for a bank. -/
  | loftSetFormat (ctx : Nat)
  /-- LOFT_FORMAT_APPLY (R84). The loft service applies a format change once the partition's commands in the tile have ended. -/
  | loftFormatApply (ctx : Nat)
  /-- NAP_EXPIRY (R321). A nap's cycle count runs out and the context becomes ready. -/
  | napExpiry (ctx : Nat)
  /-- PAGE_WALK (R45). A table read of a page walk returns and the walker descends, translates, raises a page request, parks or traps. -/
  | pageWalk (tile : Nat) (k : Nat)
  /-- PAGE_REQUEST (R55). A fault reaches the page-request unit, which merges, allocates or leaves it unqueued and posts a record to the host. -/
  | pageRequest (tile : Nat) (k : Nat)
  /-- PAGE_GRANT (R57). A host grant with tables written moves the entry to GRANTED and wakes the ports of its map. -/
  | pageGrant (entry : Nat) (ptes : List (Word × Word))
  /-- PAGE_REQUEST_FAIL (R57). A host failure frees the entry and traps parked references PAGE_FAULT. -/
  | pageRequestFail (entry : Nat)
  /-- PAGE_REQUEST_TIMEOUT (R57). 200 ms after the latest posting the request fails as a host failure does. -/
  | pageRequestTimeout (entry : Nat)
  /-- REWALK_REPORT (R57). A port reports its re-walk; the entry frees when all have reported with no refault. -/
  | rewalkReport (entry : Nat) (tile : Nat)
  /-- PORT_WAKE (R57). A grant's multicast wake reaches a port, whose parked references re-walk in FIFO order. -/
  | portWake (tile : Nat) (part : Nat) (idx : Nat) (page : Nat)
  /-- WAKE_HOLD_EXPIRY (R60). A grant wake held at a port for 1024 cycles is dropped. -/
  | wakeHoldExpiry (tile : Nat)
  /-- SHOOTDOWN (R50). A type 0xFF message reaches a buffer port, which invalidates matching state and marks walks stale. -/
  | shootdown (k : Nat)
  /-- SHOOTDOWN_ACK (R50). Once old references are accepted the port adds -1 to the count word, whose zero fills the completion word. -/
  | shootdownAck (tile : Nat)
  /-- ARRIVE_LOAD (R62). A plain load is performed at its home bank as one event. -/
  | arriveLoad (k : Nat)
  /-- ARRIVE_STORE (R62). A plain store is performed at its home bank as a write event. -/
  | arriveStore (k : Nat)
  /-- ARRIVE_WF (R66). A wait-full reference at its home is served if full or parked. -/
  | arriveWf (k : Nat)
  /-- ARRIVE_WFC (R66). A wait-full-and-clear reference is served and empties the word, or parks. -/
  | arriveWfc (k : Nat)
  /-- ARRIVE_WE (R66). A wait-empty store fills an empty word and runs the wake cascade, or parks. -/
  | arriveWe (k : Nat)
  /-- ARRIVE_SF (R66). A set-full store writes the word and, if it was empty, fills it and runs the cascade. -/
  | arriveSf (k : Nat)
  /-- ARRIVE_PSET (R66). A pset fills an empty word and runs the cascade. -/
  | arrivePset (k : Nat)
  /-- ARRIVE_PCLR (R66). A pclr empties a full word and runs the cascade. -/
  | arrivePclr (k : Nat)
  /-- ARRIVE_HELP (R72). A help-qualified wait on an empty word returns the owner from the companion or parks. -/
  | arriveHelp (k : Nat)
  /-- ARRIVE_PROBE (R221). A probe reads value and P at the home without parking. -/
  | arriveProbe (k : Nat)
  /-- ARRIVE_PGET (R225). A pget reads P at the home. -/
  | arrivePget (k : Nat)
  /-- ARRIVE_WATCH (R76). A watch sets W and stores a watch record, displacing any previous one. -/
  | arriveWatch (k : Nat)
  /-- ARRIVE_UNWATCH (R76). An unwatch clears W and removes the record. -/
  | arriveUnwatch (k : Nat)
  /-- ARRIVE_AMO (R229). An atomic is performed at its home as one atomic pair. -/
  | arriveAmo (k : Nat)
  /-- ARRIVE_RDX_ADD (R234). An rdx.add is performed as an atomic pair on the issuing tile's slot. -/
  | arriveRdxAdd (k : Nat)
  /-- RDX_SLOT_READ (R234). A bank-originated read of one reduce-cell slot is served by that slot's bank. -/
  | rdxSlotRead (k : Nat) (tile : Nat)
  /-- RDX_SUM (R109). When all slot reads have returned, the home bank sums them in core order and replies. -/
  | rdxSum (k : Nat)
  /-- REFUSAL_RETRY (R69). After its backoff a refused reference or message is retried, trapping or dropping at the retry limit. -/
  | refusalRetry (k : Nat)
  /-- DEADLINE_CHECK (R70). At each multiple of 1024 reference cycles banks remove expired entries, trapping WAIT_TIMEOUT. -/
  | deadlineCheck
  /-- CANCEL (R73). A rotation cancel reaches a bank, which removes a still-parked entry and answers cancelled. -/
  | cancel (ctx : Nat)
  /-- REPLY (R17). A reply or answer reaches the requesting context and its value becomes readable. -/
  | reply (k : Nat)
  /-- QUARANTINE_LIFT (R123). Firmware finishes resealing a quarantined subtree and lifts the quarantine. -/
  | quarantineLift (k : Nat)
  /-- REKEY_SWEEP_LINE (R125). The engine reseals one old-epoch window line as one event at its bank. -/
  | rekeySweepLine (slot : Nat)
  /-- REKEY_COMPLETE (R125). After the last line the old key is overwritten, the slot returns to ACTIVE and the completion word fills. -/
  | rekeyComplete (slot : Nat)
  /-- KEY_ERASE (R120). A DRAINING key slot with no references left is overwritten and becomes EMPTY. -/
  | keyErase (slot : Nat)
  /-- MATRIX_START (R281). The array starts the oldest ready command in a cycle it is free. -/
  | matrixStart (tile : Nat)
  /-- MATRIX_COMPLETE (R281). 24 cycles after the last occupied cycle the result is complete and the version increments, releasing awaits. -/
  | matrixComplete (tile : Nat)
  /-- STALE_COMMAND (R282). A stale command becoming oldest on its destination poisons it and increments the version. -/
  | staleCommand (tile : Nat)
  /-- AWAIT_TIMEOUT (R286). An await not reached within its deadline traps WAIT_TIMEOUT. -/
  | awaitTimeout (ctx : Nat)
  /-- DRAIN_RUN (R288). A drain reads the tile one row per cycle, increments the version and hands the writes to the copy engine. -/
  | drainRun (tile : Nat)
  /-- COPY_START (R300). The engine starts a queued command and reads both records. -/
  | copyStart (tile : Nat)
  /-- COPY_ELEMENT (R300). The engine reads, checks, converts and writes one element. -/
  | copyElement (tile : Nat) (k : Nat)
  /-- COPY_COMPLETE (R304). After every write is performed the completion word fills with the status. -/
  | copyComplete (tile : Nat) (k : Nat)
  /-- FOLLOW_ON_READY (R303). A follow-on becomes ready when its copy's writes are performed and is queued in the matrix queue. -/
  | followOnReady (tile : Nat) (k : Nat) (dst : Nat)
  /-- COPY_RESUME (R59). A copy suspended on a page request resumes when it resolves. -/
  | copyResume (tile : Nat) (k : Nat)
  /-- POP (R159). An IDLE slot takes the entry before TAIL and claims the frame by amo.cas. -/
  | pop (ctx : Nat)
  /-- FRAME_START (R156). A successful claim reply starts the frame in its slot with w2 and w4-w7. -/
  | frameStart (k : Nat)
  /-- STEAL_ATTEMPT (R160). The deque unit sends a steal attempt for an IDLE slot to the next victim tile. -/
  | stealAttempt (ctx : Nat)
  /-- STEAL_ANSWER (R160). A victim's answer returns an entry to claim, or none. -/
  | stealAnswer (ctx : Nat)
  /-- STEAL_BACKOFF (R160). After 64 failed attempts the unit waits 4096 cycles before stealing again. -/
  | stealBackoff (tile : Nat) (part : Nat)
  /-- STATE_MARK (R154). A PARKED or RUNNING mark from the deque unit is applied by cas to a frame's state word. -/
  | stateMark (k : Nat)
  /-- HELP_PROCEDURE (R163). An owner returned to a help wait starts the Trapeze procedure that adopts, follows or parks. -/
  | helpProcedure (ctx : Nat)
  /-- SPAWN_RELEASE (R238). Once earlier accesses are performed, the spawn writes the state word, empties w0 and makes the entry visible. -/
  | spawnRelease (k : Nat)
  /-- DEQUE_RESERVE (R238). A spawn.t reservation reaches the destination deque unit and is answered. -/
  | dequeReserve (k : Nat)
  /-- MESSAGE_ARRIVE (R246). A message reaches the destination's message unit, which answers dead, no handler, rights, started, queued or refused. -/
  | messageArrive (k : Nat)
  /-- HANDLER_START (R247). A queued message starts in an IDLE slot of its class. -/
  | handlerStart (ctx : Nat)
  /-- MAILBOX_ARRIVE (R249). A mailbox send reads the owner's state at the bank and answers dead or arrives as WE. -/
  | mailboxArrive (k : Nat)
  /-- GANG_MEMBER_START (R167). The launcher starts a gang member in an IDLE slot at the gang's entry. -/
  | gangMemberStart (k : Nat)
  /-- BARRIER_REPORT (R169). A child's report reaches its parent barrier object. -/
  | barrierReport (k : Nat)
  /-- BARRIER_RELEASE (R169). A release descends to an object, which clears arrivals and returns waiting members. -/
  | barrierRelease (k : Nat)
  /-- SLOT_ROTATION (R175). A tenant is switched into a partition by rotation in every tile. -/
  | slotRotation (part : Nat) (tenant : Nat)
  /-- SLOT_SWAP (R175). A slot cancels its parked references and saves and loads state over 64 cycles. -/
  | slotSwap (ctx : Nat)
  /-- LOFT_HANDOVER (R176). After the last slot and matrix command, the partition's loft and accumulators change hands. -/
  | loftHandover (tile : Nat) (part : Nat)
  /-- LAUNCH_ACQUIRE (R364). The launcher acquires a filled launch record, copies it, empties w0 and starts its gangs. -/
  | launchAcquire (fn : Nat)
  /-- LAUNCH_DONE (R366). When every gang of a record has ended the launcher fills DONE with the status. -/
  | launchDone (k : Nat)
  /-- OPERATING_POINT_CHANGE (R23). An island's operating point changes between two issue cycles. -/
  | operatingPointChange (tile : Nat) (point : Nat)
  /-- POWER_THROTTLE (R25). Firmware moves tile islands between operating points to hold power at PWRLIM. -/
  | powerThrottle (point : Nat)
  /-- THERMAL_THROTTLE (R26). A junction at 100 C throttles as R25 lays down. -/
  | thermalThrottle (point : Nat)
  /-- THERMAL_RESET (R26). A junction at 110 C resets the package. -/
  | thermalReset
  /-- CONTEXT_STATE_ERROR (R330). An uncorrectable error in context state ends the context and recovers its frames. -/
  | contextStateError (ctx : Nat)
  /-- ENGINE_OUT_OF_SERVICE (R332). An uncorrectable engine error ends its commands and takes it out of service. -/
  | engineOutOfService (tile : Nat) (copy : Bool)
  /-- DRAM_PARITY_ALERT (R336). A parity alert rewinds bank state and replays the command history. -/
  | dramParityAlert (tile : Nat) (bank : Nat) (index : Nat) (lines : List Nat)
  /-- SPARING_START (R337). A bank is selected for sparing and copying into the spare begins. -/
  | sparingStart (tile : Nat) (bank : Nat)
  /-- SPARING_ROW_COPY (R337). One row is copied to the spare and BND advances; the last retires the bank. -/
  | sparingRowCopy (tile : Nat)
  /-- BANK_RETIRE (R338). A bank that fails with the spare in use is retired in place. -/
  | bankRetire (tile : Nat) (bank : Nat)
  /-- FLIT_RESEND (R339). A flit failing its CRC is resent from the link's replay buffer. -/
  | flitResend (link : Nat) (fails : Bool)
  /-- END_TO_END_RESEND (R339). A packet unacknowledged within its timeout is resent by its source. -/
  | endToEndResend (k : Nat)
  /-- CHANNEL_RETIRE (R370). A fabric channel is retired and held packets reissue under the new map. -/
  | channelRetire (chan : Nat)
  /-- HEARTBEAT_SEND (R340). Each router sends a heartbeat to each neighbour once per period. -/
  | heartbeatSend (tile : Nat)
  /-- HEARTBEAT_RECEIVE (R341). A heartbeat is received, discarded if malformed, and its judgements and relays taken. -/
  | heartbeatReceive (tile : Nat) (j : Nat) (intact : Bool)
  /-- JUDGEMENT (R342). At period end each router judges its neighbours and counts the vote. -/
  | judgement (tile : Nat) (crowd : BitVec 4)
  /-- FENCE (R347). A voted or firmware fence cuts off a tile's compute side and cleans up its state. -/
  | fence (tile : Nat)
  /-- FRAME_RECOVERY (R348). A house slot recovers a fenced tile's frames and moves its deques. -/
  | frameRecovery (tile : Nat)
  /-- SELF_TEST_END (R352). A fenced tile's self-test ends, powering it off on failure or starting an appeal. -/
  | selfTestEnd (tile : Nat) (passed : Bool)
  /-- BAR2_PLAIN_WRITE (R356). A host write through the plain alias stores to the mapped buffer. -/
  | bar2PlainWrite (fn : Nat) (off : Word) (width : Nat) (value : Word)
  /-- BAR2_PLAIN_READ (R356). A host read through the plain alias returns the value. -/
  | bar2PlainRead (fn : Nat) (off : Word) (width : Nat)
  /-- BAR2_FILL_WRITE (R356). A host 8-byte fill-alias write with set-full effect, a release at dom. -/
  | bar2FillWrite (fn : Nat) (off : Word) (width : Nat) (value : Word)
  /-- BAR2_STATUS_READ (R356). A host read through the status alias returns P and poison. -/
  | bar2StatusRead (fn : Nat) (off : Word)
  /-- BAR2_RESERVED_ALIAS (R356). An access through alias 3 is discarded with a record or returns all ones. -/
  | bar2ReservedAlias (fn : Nat) (off : Word) (write : Bool)
  /-- MGMT_REGISTER_WRITE (R357). A write to a management window register with no row of its own. -/
  | mgmtRegisterWrite (master : Nat) (fn : Nat) (off : Nat) (value : Word)
  /-- RMOWN_CLAIM (R359). A master claims an UNOWNED device. -/
  | rmownClaim (master : Nat)
  /-- RMOWN_HANDOVER (R359). The owner offers ownership to a target master. -/
  | rmownHandover (master : Nat) (target : Nat)
  /-- RMOWN_ACCEPT (R359). The target accepts a handover within 1 s. -/
  | rmownAccept (master : Nat)
  /-- RMOWN_CANCEL (R359). The owner withdraws a handover by writing STATE 1. -/
  | rmownCancel (master : Nat)
  /-- HANDOVER_TIMEOUT (R359). A handover not accepted within 1 s returns to the old owner. -/
  | handoverTimeout
  /-- I3C_HEARTBEAT (R359). The management controller's I3C heartbeat arrives. -/
  | i3cHeartbeat
  /-- OWNER_LOST (R359). The owner's link goes down or 3 heartbeats are missed, entering ELECTING. -/
  | ownerLost
  /-- OWNER_RETURN (R359). The old owner's link returns within 2 s and regains ownership. -/
  | ownerReturn
  /-- ELECTION_TIMEOUT (R359). After 2 s in ELECTING the device becomes UNOWNED. -/
  | electionTimeout
  /-- VFBIND_WRITE (R361). The owner binds a VF to a tenant and partition. -/
  | vfbindWrite (master : Nat) (vf : Nat) (value : Word)
  /-- VF_ENABLE_CLEAR (R362). Clearing VF Enable tears down every VF tenant within 1 ms. -/
  | vfEnableClear (link : Nat)
  /-- ATTESTATION (R373). The verifier accepts a report, the session key is derived and the tenant key created. -/
  | attestation (part : Nat)
  /-- EQHEAD_WRITE (R379). The host advances EQHEAD, letting buffered records be written. -/
  | eqheadWrite (fn : Nat) (value : Word)
  /-- ERROR_RECORD_WRITE (R378). A record is written into an error queue, advancing TAIL and counting an interrupt event. -/
  | errorRecordWrite
  /-- ICOAL_TIMER (R369). TIME elapses after a vector's first pending event and the message is sent. -/
  | icoalTimer (fn : Nat) (vec : Nat)
  /-- MSIX_UNMASK (R367). Unmasking a vector with its PBA bit set sends the message. -/
  | msixUnmask (fn : Nat) (vec : Nat)
  /-- FIRMWARE_BOOT (R372). The boot ROM checks the firmware signature and rollback index before running it. -/
  | firmwareBoot (accepted : Bool)
  /-- POWER_ON (R381). Supply ramp causes a power-on package reset. -/
  | powerOn
  /-- PCIE_FUNDAMENTAL_RESET (R381). A fundamental reset from the owner's link resets the package. -/
  | pcieFundamentalReset (link : Nat)
  /-- OWNER_RESET_REQUEST (R381). The owner requests a package reset. -/
  | ownerResetRequest (master : Nat)
  /-- MC_RESET_REQUEST (R381). The management controller requests a package reset over I3C. -/
  | mcResetRequest
  /-- SUPPLY_FAULT (R381). A rail out of range for 1 ms resets the package. -/
  | supplyFault
  /-- FIRMWARE_WATCHDOG (R381). No house-slot heartbeat within 1 s resets the package. -/
  | firmwareWatchdog
  /-- TILE_RESET (R381). A tile reset, after a house fault during escalation or at the host's request, readmits the tile. -/
  | tileReset (tile : Nat) (cause : Nat)
  /-- BUFFER_ENTRY_FETCH (R35). The 32-byte buffer-table entry read that a buffer-entry cache miss sent returns, the entry enters the cache with its GEN, and the waiting references complete their checks. -/
  | bufferEntryFetch (tile : Nat) (k : Nat)
  /-- ENGINE_SELF_TEST_END (R332). The self-test that firmware runs when a copy engine or matrix array is taken out of service ends, and the engine returns to service if the tile is not fenced. -/
  | engineSelfTestEnd (tile : Nat)
  /-- VF_ENABLE_SET (R362). A host sets VF Enable on a PF, and the device refuses it until the teardown records of a previous clear have posted. -/
  | vfEnableSet (link : Nat)
  deriving DecidableEq, Repr

end Sys2Proof
end

