-- ==== Sys2Proof/Decode.lean ====
section
/-! DEFINITION. The decoder (R178, R181, R182, R189 to R197): from a halfword stream to an instruction, total,
refusing by name, and the encoder beside it (R200), both written from the encoding fields of the opcode table. An
instruction word is the number whose bit 0 is the least significant bit of H0; H1 stands in bits 31 to 16. -/

namespace Sys2Proof

/- Lean's code generator has no object tags for constructors numbered above 244, so what BUILDS an `Instr` is not
compiled; the kernel evaluates it as it evaluates everything else. -/
noncomputable section

/-- Why a halfword stream is no instruction. Every reason but `truncated` is the trap ILLEGAL_OP (R189). -/
inductive Reject where
  | truncated    -- fewer bytes than the instruction's length
  | compact      -- an unassigned (cop, v) pair of format C, the zero halfword included (R192)
  | compactLimit -- a limit of the compact map fails (R192)
  | major        -- an unassigned major (R191)
  | sub          -- an unassigned sub, fn, q or cond value of an assigned major (R191)
  | reserved     -- a field the instruction does not use is not 0 (R184)
  deriving DecidableEq, Repr

/-- Field of `n` bits at bit `lo` of an instruction word. -/
def bits (w lo n : Nat) : BitVec n := BitVec.ofNat n (w / 2 ^ lo)

/-- An instruction whose unused field must be 0 (R184). -/
def ifZero (unused : Nat) (i : Instr) : Except Reject Instr :=
  if unused = 0 then .ok i else .error .reserved

/-- A compact instruction whose x field must not be 0 (R192). -/
def ifX (x : BitVec 5) (i : Instr) : Except Reject Instr :=
  if x = 0 then .error .compactLimit else .ok i

/-- Format C (R192): cop = H0[14:11], v = H0[0]. -/
def decodeCompact (w : Nat) : Except Reject Instr :=
  match w / 2048 % 16, w % 2 with
  | 0, 0 => ifX (bits w 6 5) (.mvN (bits w 6 5) (bits w 1 5))
  | 0, 1 => ifX (bits w 6 5) (.liN (bits w 6 5) (bits w 1 5))
  | 1, 0 => ifX (bits w 6 5) (.addN (bits w 6 5) (bits w 1 5))
  | 1, 1 => ifX (bits w 6 5) (.addiN (bits w 6 5) (bits w 1 5))
  | 2, 0 => ifX (bits w 6 5) (.subN (bits w 6 5) (bits w 1 5))
  | 2, 1 => ifX (bits w 6 5) (.shliN (bits w 6 5) (bits w 1 5))
  | 3, 0 => ifX (bits w 6 5) (.andN (bits w 6 5) (bits w 1 5))
  | 3, 1 => ifX (bits w 6 5) (.shriN (bits w 6 5) (bits w 1 5))
  | 4, 0 => ifX (bits w 6 5) (.orN (bits w 6 5) (bits w 1 5))
  | 4, 1 => ifX (bits w 6 5) (.sraiN (bits w 6 5) (bits w 1 5))
  | 5, 0 => ifX (bits w 6 5) (.xorN (bits w 6 5) (bits w 1 5))
  | 5, 1 => ifX (bits w 6 5) (.andiN (bits w 6 5) (bits w 1 5))
  | 6, 0 => ifX (bits w 6 5) (.ldN (bits w 6 5) (bits w 1 5))
  | 6, 1 => ifX (bits w 6 5) (.ldspN (bits w 6 5) (bits w 1 5))
  | 7, 0 => .ok (.stN (bits w 6 5) (bits w 1 5))
  | 7, 1 => .ok (.stspN (bits w 6 5) (bits w 1 5))
  | 8, _ => .ok (.beqzN (bits w 6 5) (bits w 0 6))
  | 9, _ => .ok (.bnezN (bits w 6 5) (bits w 0 6))
  | 10, _ => .ok (.jN (bits w 0 11))
  | 11, 0 => if w / 2 % 32 = 0 then ifX (bits w 6 5) (.jrN (bits w 6 5)) else .error .compactLimit
  | 11, 1 => if w / 2 % 32 = 0 then ifX (bits w 6 5) (.callrN (bits w 6 5)) else .error .compactLimit
  | 12, 0 => if w / 2 % 1024 = 0 then .ok .retN else .error .compactLimit
  | 12, 1 => if w / 2 % 1024 = 0 then .ok .nopN else .error .compactLimit
  | 13, 0 => .ok (.addspN (bits w 1 10))
  | _, _ => .error .compact

/-- Major 0x00. -/
def decodeMajor00 (w : Nat) : Except Reject Instr :=
  match w % 16 with
  | 0 => ifZero (w / 65536 % 64) (.add (bits w 4 5) (bits w 27 5) (bits w 22 5))
  | 1 => ifZero (w / 65536 % 64) (.sub (bits w 4 5) (bits w 27 5) (bits w 22 5))
  | 2 => ifZero (w / 65536 % 64) (.and (bits w 4 5) (bits w 27 5) (bits w 22 5))
  | 3 => ifZero (w / 65536 % 64) (.or (bits w 4 5) (bits w 27 5) (bits w 22 5))
  | 4 => ifZero (w / 65536 % 64) (.xor (bits w 4 5) (bits w 27 5) (bits w 22 5))
  | 5 => ifZero (w / 65536 % 64) (.andn (bits w 4 5) (bits w 27 5) (bits w 22 5))
  | 6 => ifZero (w / 65536 % 64) (.shl (bits w 4 5) (bits w 27 5) (bits w 22 5))
  | 7 => ifZero (w / 65536 % 64) (.shr (bits w 4 5) (bits w 27 5) (bits w 22 5))
  | 8 => ifZero (w / 65536 % 64) (.sra (bits w 4 5) (bits w 27 5) (bits w 22 5))
  | 9 => ifZero (w / 65536 % 64) (.mul (bits w 4 5) (bits w 27 5) (bits w 22 5))
  | 10 => ifZero (w / 65536 % 64) (.mulh (bits w 4 5) (bits w 27 5) (bits w 22 5))
  | 11 => ifZero (w / 65536 % 64) (.mulhu (bits w 4 5) (bits w 27 5) (bits w 22 5))
  | 12 => ifZero (w / 65536 % 64) (.div (bits w 4 5) (bits w 27 5) (bits w 22 5))
  | 13 => ifZero (w / 65536 % 64) (.divu (bits w 4 5) (bits w 27 5) (bits w 22 5))
  | 14 => ifZero (w / 65536 % 64) (.rem (bits w 4 5) (bits w 27 5) (bits w 22 5))
  | 15 => ifZero (w / 65536 % 64) (.remu (bits w 4 5) (bits w 27 5) (bits w 22 5))
  | _ => .error .sub

/-- Major 0x01. -/
def decodeMajor01 (w : Nat) : Except Reject Instr :=
  match w % 16 with
  | 0 => ifZero (w / 65536 % 64) (.slt (bits w 4 5) (bits w 27 5) (bits w 22 5))
  | 1 => ifZero (w / 65536 % 64) (.sltu (bits w 4 5) (bits w 27 5) (bits w 22 5))
  | 2 => ifZero (w / 65536 % 64) (.min (bits w 4 5) (bits w 27 5) (bits w 22 5))
  | 3 => ifZero (w / 65536 % 64) (.max (bits w 4 5) (bits w 27 5) (bits w 22 5))
  | 4 => ifZero (w / 65536 % 2048) (.clz (bits w 4 5) (bits w 27 5))
  | 5 => ifZero (w / 65536 % 2048) (.popc (bits w 4 5) (bits w 27 5))
  | _ => .error .sub

/-- Major 0x02. -/
def decodeMajor02 (w : Nat) : Except Reject Instr :=
  match w % 16 with
  | 0 => .ok (.addi (bits w 4 5) (bits w 27 5) (bits w 16 11))
  | 1 => .ok (.andi (bits w 4 5) (bits w 27 5) (bits w 16 11))
  | 2 => .ok (.ori (bits w 4 5) (bits w 27 5) (bits w 16 11))
  | 3 => .ok (.xori (bits w 4 5) (bits w 27 5) (bits w 16 11))
  | 4 => .ok (.slti (bits w 4 5) (bits w 27 5) (bits w 16 11))
  | 5 => .ok (.sltui (bits w 4 5) (bits w 27 5) (bits w 16 11))
  | 6 => .ok (.shli (bits w 4 5) (bits w 27 5) (bits w 16 11))
  | 7 => .ok (.shri (bits w 4 5) (bits w 27 5) (bits w 16 11))
  | 8 => .ok (.srai (bits w 4 5) (bits w 27 5) (bits w 16 11))
  | _ => .error .sub

/-- Major 0x03. -/
def decodeMajor03 (w : Nat) : Except Reject Instr :=
  match w % 16 with
  | 0 => ifZero (w / 65536 % 64) (.addFp32 (bits w 4 5) (bits w 27 5) (bits w 22 5))
  | 1 => ifZero (w / 65536 % 64) (.subFp32 (bits w 4 5) (bits w 27 5) (bits w 22 5))
  | 2 => ifZero (w / 65536 % 64) (.mulFp32 (bits w 4 5) (bits w 27 5) (bits w 22 5))
  | 3 => ifZero (w / 65536 % 64) (.divFp32 (bits w 4 5) (bits w 27 5) (bits w 22 5))
  | 4 => ifZero (w / 65536 % 2048) (.sqrtFp32 (bits w 4 5) (bits w 27 5))
  | 5 => ifZero (w / 65536 % 64) (.minFp32 (bits w 4 5) (bits w 27 5) (bits w 22 5))
  | 6 => ifZero (w / 65536 % 64) (.maxFp32 (bits w 4 5) (bits w 27 5) (bits w 22 5))
  | 7 => ifZero (w / 65536 % 2) (.fmaFp32 (bits w 4 5) (bits w 27 5) (bits w 22 5) (bits w 17 5))
  | 8 => ifZero (w / 65536 % 64) (.seqFp32 (bits w 4 5) (bits w 27 5) (bits w 22 5))
  | 9 => ifZero (w / 65536 % 64) (.sltFp32 (bits w 4 5) (bits w 27 5) (bits w 22 5))
  | 10 => ifZero (w / 65536 % 2048) (.cvtI32Fp32 (bits w 4 5) (bits w 27 5))
  | 11 => ifZero (w / 65536 % 2048) (.cvtFp32I32 (bits w 4 5) (bits w 27 5))
  | _ => .error .sub

/-- Major 0x08. -/
def decodeMajor08 (w : Nat) : Except Reject Instr :=
  .ok (.lui (bits w 4 5) (BitVec.ofNat 20 (w / 65536 % 65536 * 16 + w % 16)))

/-- Major 0x09. -/
def decodeMajor09 (w : Nat) : Except Reject Instr :=
  .ok (.lpc (bits w 4 5) (BitVec.ofNat 20 (w / 65536 % 65536 * 16 + w % 16)))

/-- Major 0x0A. -/
def decodeMajor0A (w : Nat) : Except Reject Instr :=
  match w % 16 with
  | 0 => ifZero (w / 65536 % 64) (.pmk (bits w 4 5) (bits w 27 5) (bits w 22 5))
  | 1 => ifZero (w / 65536 % 2048) (.pidx (bits w 4 5) (bits w 27 5))
  | 2 => ifZero (w / 65536 % 2048) (.poff (bits w 4 5) (bits w 27 5))
  | 3 => ifZero (w / 65536 % 64) (.padd (bits w 4 5) (bits w 27 5) (bits w 22 5))
  | _ => .error .sub

/-- Major 0x0B. -/
def decodeMajor0B (w : Nat) : Except Reject Instr :=
  match w % 16 with
  | 0 => .ok (.bfx (bits w 4 5) (bits w 27 5) (bits w 22 5) (bits w 16 6))
  | 1 => .ok (.bfxu (bits w 4 5) (bits w 27 5) (bits w 22 5) (bits w 16 6))
  | 2 => .ok (.bfi (bits w 4 5) (bits w 27 5) (bits w 22 5) (bits w 16 6))
  | _ => .error .sub

/-- Major 0x0C. -/
def decodeMajor0C (w : Nat) : Except Reject Instr :=
  match w % 16 with
  | 0 => .ok (.brEq (bits w 4 5) (bits w 27 5) (bits w 16 11))
  | 1 => .ok (.brNe (bits w 4 5) (bits w 27 5) (bits w 16 11))
  | 2 => .ok (.brLt (bits w 4 5) (bits w 27 5) (bits w 16 11))
  | 3 => .ok (.brGe (bits w 4 5) (bits w 27 5) (bits w 16 11))
  | 4 => .ok (.brLtu (bits w 4 5) (bits w 27 5) (bits w 16 11))
  | 5 => .ok (.brGeu (bits w 4 5) (bits w 27 5) (bits w 16 11))
  | 6 => ifZero (w / 134217728 % 32) (.brLtz (bits w 4 5) (bits w 16 11))
  | 7 => ifZero (w / 134217728 % 32) (.brGez (bits w 4 5) (bits w 16 11))
  | _ => .error .sub

/-- Major 0x0D. -/
def decodeMajor0D (w : Nat) : Except Reject Instr :=
  if w / 16 % 32 = 0 then .ok (.jmp (BitVec.ofNat 20 (w / 65536 % 65536 * 16 + w % 16))) else .ok (.call (bits w 4 5) (BitVec.ofNat 20 (w / 65536 % 65536 * 16 + w % 16)))

/-- Major 0x0E. -/
def decodeMajor0E (w : Nat) : Except Reject Instr :=
  match w % 16 with
  | 0 => if w / 16 % 32 = 0 then .ok (.jr (bits w 27 5) (bits w 16 11)) else .ok (.callr (bits w 4 5) (bits w 27 5) (bits w 16 11))
  | 1 => ifZero (w / 16 % 32 + w / 65536 % 65536) .ret
  | _ => .error .sub

/-- Major 0x0F. -/
def decodeMajor0F (w : Nat) : Except Reject Instr :=
  match w % 16 with
  | 0 => ifZero (w / 134217728 % 32) (.loop (bits w 4 5) (bits w 16 11))
  | _ => .error .sub

/-- Major 0x10. -/
def decodeMajor10 (w : Nat) : Except Reject Instr :=
  match w % 16 with
  | 0 => .ok (.ldB (bits w 4 5) (bits w 27 5) (bits w 16 11))
  | 1 => .ok (.ldBz (bits w 4 5) (bits w 27 5) (bits w 16 11))
  | 2 => .ok (.ldH (bits w 4 5) (bits w 27 5) (bits w 16 11))
  | 3 => .ok (.ldHz (bits w 4 5) (bits w 27 5) (bits w 16 11))
  | 4 => .ok (.ldW (bits w 4 5) (bits w 27 5) (bits w 16 11))
  | 5 => .ok (.ldWz (bits w 4 5) (bits w 27 5) (bits w 16 11))
  | 6 => .ok (.ldD (bits w 4 5) (bits w 27 5) (bits w 16 11))
  | 7 => .ok (.ldDWf (bits w 4 5) (bits w 27 5) (bits w 16 11))
  | 8 => .ok (.ldDWfc (bits w 4 5) (bits w 27 5) (bits w 16 11))
  | 9 => .ok (.ldDWfHelp (bits w 4 5) (bits w 27 5) (bits w 16 11))
  | 10 => .ok (.ldDWfcHelp (bits w 4 5) (bits w 27 5) (bits w 16 11))
  | 11 => .ok (.ldDPr (bits w 4 5) (bits w 27 5) (bits w 16 11))
  | _ => .error .sub

/-- Major 0x11. -/
def decodeMajor11 (w : Nat) : Except Reject Instr :=
  match w % 16 with
  | 0 => .ok (.stB (bits w 4 5) (bits w 27 5) (bits w 16 11))
  | 1 => .ok (.stH (bits w 4 5) (bits w 27 5) (bits w 16 11))
  | 2 => .ok (.stW (bits w 4 5) (bits w 27 5) (bits w 16 11))
  | 3 => .ok (.stD (bits w 4 5) (bits w 27 5) (bits w 16 11))
  | 4 => .ok (.stDSf (bits w 4 5) (bits w 27 5) (bits w 16 11))
  | 5 => .ok (.stDWe (bits w 4 5) (bits w 27 5) (bits w 16 11))
  | _ => .error .sub

/-- Major 0x12. -/
def decodeMajor12 (w : Nat) : Except Reject Instr :=
  match w % 16 with
  | 0 => .ok (.ldmD (bits w 4 5) (bits w 27 5) (bits w 22 5) (bits w 16 6))
  | 1 => .ok (.stmD (bits w 4 5) (bits w 27 5) (bits w 22 5) (bits w 16 6))
  | _ => .error .sub

/-- Major 0x18. -/
def decodeMajor18 (w : Nat) : Except Reject Instr :=
  match w % 16 with
  | 0 => ifZero (w / 16 % 32) (.pset (bits w 27 5) (bits w 16 11))
  | 1 => ifZero (w / 16 % 32) (.pclr (bits w 27 5) (bits w 16 11))
  | 2 => .ok (.pget (bits w 4 5) (bits w 27 5) (bits w 16 11))
  | 3 => .ok (.watch (bits w 4 5) (bits w 27 5) (bits w 16 11))
  | 4 => ifZero (w / 16 % 32) (.unwatch (bits w 27 5) (bits w 16 11))
  | _ => .error .sub

/-- Major 0x19. -/
def decodeMajor19 (w : Nat) : Except Reject Instr :=
  match w % 16 with
  | 0 => ifZero (w / 16 % 32 + w / 65536 % 65536) .fenceAcqTile
  | 1 => ifZero (w / 16 % 32 + w / 65536 % 65536) .fenceAcqTower
  | 2 => ifZero (w / 16 % 32 + w / 65536 % 65536) .fenceAcqPkg
  | 3 => ifZero (w / 16 % 32 + w / 65536 % 65536) .fenceAcqDom
  | 4 => ifZero (w / 16 % 32 + w / 65536 % 65536) .fenceAcqWin
  | 5 => ifZero (w / 16 % 32 + w / 65536 % 65536) .fenceRelTile
  | 6 => ifZero (w / 16 % 32 + w / 65536 % 65536) .fenceRelTower
  | 7 => ifZero (w / 16 % 32 + w / 65536 % 65536) .fenceRelPkg
  | 8 => ifZero (w / 16 % 32 + w / 65536 % 65536) .fenceRelDom
  | 9 => ifZero (w / 16 % 32 + w / 65536 % 65536) .fenceRelWin
  | 10 => ifZero (w / 16 % 32 + w / 65536 % 65536) .fenceFullTile
  | 11 => ifZero (w / 16 % 32 + w / 65536 % 65536) .fenceFullTower
  | 12 => ifZero (w / 16 % 32 + w / 65536 % 65536) .fenceFullPkg
  | 13 => ifZero (w / 16 % 32 + w / 65536 % 65536) .fenceFullDom
  | 14 => ifZero (w / 16 % 32 + w / 65536 % 65536) .fenceFullWin
  | _ => .error .sub

/-- Major 0x1C. -/
def decodeMajor1C (w : Nat) : Except Reject Instr :=
  match w % 16 with
  | 0 => ifZero (w / 65536 % 64) (.amoAdd (bits w 4 5) (bits w 27 5) (bits w 22 5))
  | 1 => ifZero (w / 65536 % 64) (.amoAnd (bits w 4 5) (bits w 27 5) (bits w 22 5))
  | 2 => ifZero (w / 65536 % 64) (.amoOr (bits w 4 5) (bits w 27 5) (bits w 22 5))
  | 3 => ifZero (w / 65536 % 64) (.amoXor (bits w 4 5) (bits w 27 5) (bits w 22 5))
  | 4 => ifZero (w / 65536 % 64) (.amoMin (bits w 4 5) (bits w 27 5) (bits w 22 5))
  | 5 => ifZero (w / 65536 % 64) (.amoMax (bits w 4 5) (bits w 27 5) (bits w 22 5))
  | 6 => ifZero (w / 65536 % 64) (.amoSwap (bits w 4 5) (bits w 27 5) (bits w 22 5))
  | 7 => ifZero (w / 65536 % 2) (.amoCas (bits w 4 5) (bits w 27 5) (bits w 22 5) (bits w 17 5))
  | 8 => ifZero (w / 65536 % 64) (.amoAddW (bits w 4 5) (bits w 27 5) (bits w 22 5))
  | 9 => ifZero (w / 65536 % 64) (.amoAndW (bits w 4 5) (bits w 27 5) (bits w 22 5))
  | 10 => ifZero (w / 65536 % 64) (.amoOrW (bits w 4 5) (bits w 27 5) (bits w 22 5))
  | 11 => ifZero (w / 65536 % 64) (.amoXorW (bits w 4 5) (bits w 27 5) (bits w 22 5))
  | 12 => ifZero (w / 65536 % 64) (.amoMinW (bits w 4 5) (bits w 27 5) (bits w 22 5))
  | 13 => ifZero (w / 65536 % 64) (.amoMaxW (bits w 4 5) (bits w 27 5) (bits w 22 5))
  | 14 => ifZero (w / 65536 % 64) (.amoSwapW (bits w 4 5) (bits w 27 5) (bits w 22 5))
  | 15 => ifZero (w / 65536 % 2) (.amoCasW (bits w 4 5) (bits w 27 5) (bits w 22 5) (bits w 17 5))
  | _ => .error .sub

/-- Major 0x1D. -/
def decodeMajor1D (w : Nat) : Except Reject Instr :=
  match w % 16 with
  | 0 => ifZero (w / 65536 % 64) (.amoAddFp32 (bits w 4 5) (bits w 27 5) (bits w 22 5))
  | 1 => ifZero (w / 65536 % 64) (.amoMaxFp32 (bits w 4 5) (bits w 27 5) (bits w 22 5))
  | _ => .error .sub

/-- Major 0x1E. -/
def decodeMajor1E (w : Nat) : Except Reject Instr :=
  match w % 16 with
  | 0 => ifZero (w / 16 % 32 + w / 65536 % 2048) (.rdxInit (bits w 27 5))
  | 1 => ifZero (w / 16 % 32 + w / 65536 % 64) (.rdxAddFp32 (bits w 27 5) (bits w 22 5))
  | 2 => ifZero (w / 16 % 32 + w / 65536 % 64) (.rdxAddBf16 (bits w 27 5) (bits w 22 5))
  | 3 => ifZero (w / 65536 % 2048) (.rdxRead (bits w 4 5) (bits w 27 5))
  | _ => .error .sub

/-- Major 0x20. -/
def decodeMajor20 (w : Nat) : Except Reject Instr :=
  match w % 16 with
  | 0 => ifZero (w / 16 % 32 + w / 65536 % 2048) (.spawn (bits w 27 5))
  | 1 => ifZero (w / 16 % 32 + w / 65536 % 64) (.spawnT (bits w 27 5) (bits w 22 5))
  | 2 => ifZero (w / 16 % 32 + w / 65536 % 2048) (.tdone (bits w 27 5))
  | 3 => ifZero (w / 16 % 32 + w / 65536 % 65536) .tyield
  | 4 => ifZero (w / 16 % 32 + w / 65536 % 65536) .texit
  | 5 => ifZero (w / 16 % 32 + w / 65536 % 2048) (.help (bits w 27 5))
  | 6 => ifZero (w / 65536 % 65536) (.dqlen (bits w 4 5))
  | _ => .error .sub

/-- Major 0x21. -/
def decodeMajor21 (w : Nat) : Except Reject Instr :=
  match w % 16 with
  | 0 => ifZero (w / 65536 % 2) (.send (bits w 4 5) (bits w 27 5) (bits w 22 5) (bits w 17 5))
  | 1 => ifZero (w / 65536 % 2) (.sendMc (bits w 4 5) (bits w 27 5) (bits w 22 5) (bits w 17 5))
  | 2 => ifZero (w / 65536 % 64) (.sendMb (bits w 4 5) (bits w 27 5) (bits w 22 5))
  | 3 => ifZero (w / 65536 % 64) (.sendMbF (bits w 4 5) (bits w 27 5) (bits w 22 5))
  | 4 => ifZero (w / 16 % 32 + w / 65536 % 65536) .msgret
  | _ => .error .sub

/-- Major 0x22. -/
def decodeMajor22 (w : Nat) : Except Reject Instr :=
  match w % 16 with
  | 0 => ifZero (w / 65536 % 65536) (.gbar (bits w 4 5))
  | 1 => ifZero (w / 16 % 32 + w / 65536 % 65536) .garrive
  | 2 => ifZero (w / 65536 % 65536) (.gwait (bits w 4 5))
  | 3 => ifZero (w / 65536 % 2048) (.gquery (bits w 4 5) (bits w 27 5))
  | 4 => ifZero (w / 16 % 32 + w / 65536 % 65536) .gleave
  | _ => .error .sub

/-- Major 0x23. -/
def decodeMajor23 (w : Nat) : Except Reject Instr :=
  match w % 16 with
  | 0 => ifZero (w / 65536 % 65536) (.sborrow (bits w 4 5))
  | 1 => ifZero (w / 16 % 32 + w / 65536 % 2048) (.sreturn (bits w 27 5))
  | 2 => ifZero (w / 16 % 32) (.xmovTo (bits w 27 5) (bits w 22 5) (bits w 16 6))
  | 3 => ifZero (w / 4194304 % 32) (.xmovFrom (bits w 4 5) (bits w 27 5) (bits w 16 6))
  | 4 => .ok (.xmovmTo (bits w 4 5) (bits w 27 5) (bits w 22 5) (bits w 16 6))
  | 5 => .ok (.xmovmFrom (bits w 4 5) (bits w 27 5) (bits w 22 5) (bits w 16 6))
  | 6 => ifZero (w / 16 % 32) (.xmovxTo (bits w 27 5) (bits w 22 5) (bits w 16 6))
  | 7 => ifZero (w / 4194304 % 32) (.xmovxFrom (bits w 4 5) (bits w 27 5) (bits w 16 6))
  | _ => .error .sub

/-- Major 0x24. -/
def decodeMajor24 (w : Nat) : Except Reject Instr :=
  match w % 16 with
  | 0 => ifZero (w / 16 % 32 + w / 4194304 % 32) (.qput (bits w 27 5) (bits w 16 6))
  | 1 => ifZero (w / 4194304 % 1024) (.qget (bits w 4 5) (bits w 16 6))
  | 2 => ifZero (w / 4194304 % 32) (.qputNb (bits w 4 5) (bits w 27 5) (bits w 16 6))
  | 3 => ifZero (w / 4194304 % 1024) (.qgetNb (bits w 4 5) (bits w 16 6))
  | 4 => ifZero (w / 4194304 % 1024) (.qlen (bits w 4 5) (bits w 16 6))
  | _ => .error .sub

/-- Major 0x26. -/
def decodeMajor26 (w : Nat) : Except Reject Instr :=
  match w / 65536 % 16 with
  | 0 => ifZero (w % 8) (.vaddFp32 (bits w 3 6) (bits w 26 6) (bits w 20 6))
  | 1 => ifZero (w % 8) (.vsubFp32 (bits w 3 6) (bits w 26 6) (bits w 20 6))
  | 2 => ifZero (w % 8) (.vmulFp32 (bits w 3 6) (bits w 26 6) (bits w 20 6))
  | 3 => ifZero (w % 8) (.vdivFp32 (bits w 3 6) (bits w 26 6) (bits w 20 6))
  | 4 => ifZero (w % 8) (.vfmaFp32 (bits w 3 6) (bits w 26 6) (bits w 20 6))
  | 5 => ifZero (w % 8) (.vminFp32 (bits w 3 6) (bits w 26 6) (bits w 20 6))
  | 6 => ifZero (w % 8) (.vmaxFp32 (bits w 3 6) (bits w 26 6) (bits w 20 6))
  | 7 => ifZero (w % 8 + w / 1048576 % 64) (.vabsFp32 (bits w 3 6) (bits w 26 6))
  | 8 => ifZero (w % 8 + w / 1048576 % 64) (.vnegFp32 (bits w 3 6) (bits w 26 6))
  | 9 => ifZero (w % 8 + w / 1048576 % 64) (.vreluFp32 (bits w 3 6) (bits w 26 6))
  | 10 => ifZero (w % 8) (.vaddbFp32 (bits w 3 6) (bits w 26 6) (bits w 20 6))
  | 11 => ifZero (w % 8) (.vmulbFp32 (bits w 3 6) (bits w 26 6) (bits w 20 6))
  | _ => .error .sub

/-- Major 0x27. -/
def decodeMajor27 (w : Nat) : Except Reject Instr :=
  match w / 65536 % 16 with
  | 0 => ifZero (w % 8) (.vaddBf16 (bits w 3 6) (bits w 26 6) (bits w 20 6))
  | 1 => ifZero (w % 8) (.vsubBf16 (bits w 3 6) (bits w 26 6) (bits w 20 6))
  | 2 => ifZero (w % 8) (.vmulBf16 (bits w 3 6) (bits w 26 6) (bits w 20 6))
  | 3 => ifZero (w % 8) (.vfmaBf16 (bits w 3 6) (bits w 26 6) (bits w 20 6))
  | 4 => ifZero (w % 8) (.vminBf16 (bits w 3 6) (bits w 26 6) (bits w 20 6))
  | 5 => ifZero (w % 8) (.vmaxBf16 (bits w 3 6) (bits w 26 6) (bits w 20 6))
  | 6 => ifZero (w % 8 + w / 1048576 % 64) (.vreluBf16 (bits w 3 6) (bits w 26 6))
  | _ => .error .sub

/-- Major 0x28. -/
def decodeMajor28 (w : Nat) : Except Reject Instr :=
  match w / 65536 % 16 with
  | 0 => ifZero (w % 8) (.vaddI32 (bits w 3 6) (bits w 26 6) (bits w 20 6))
  | 1 => ifZero (w % 8) (.vsubI32 (bits w 3 6) (bits w 26 6) (bits w 20 6))
  | 2 => ifZero (w % 8) (.vmulI32 (bits w 3 6) (bits w 26 6) (bits w 20 6))
  | 3 => ifZero (w % 8) (.vminI32 (bits w 3 6) (bits w 26 6) (bits w 20 6))
  | 4 => ifZero (w % 8) (.vmaxI32 (bits w 3 6) (bits w 26 6) (bits w 20 6))
  | 5 => ifZero (w % 8) (.vandI32 (bits w 3 6) (bits w 26 6) (bits w 20 6))
  | 6 => ifZero (w % 8) (.vorI32 (bits w 3 6) (bits w 26 6) (bits w 20 6))
  | 7 => ifZero (w % 8) (.vxorI32 (bits w 3 6) (bits w 26 6) (bits w 20 6))
  | 8 => ifZero (w % 8) (.vshlI32 (bits w 3 6) (bits w 26 6) (bits w 20 6))
  | 9 => ifZero (w % 8) (.vsraI32 (bits w 3 6) (bits w 26 6) (bits w 20 6))
  | 10 => ifZero (w % 8 + w / 1048576 % 64) (.vreluI32 (bits w 3 6) (bits w 26 6))
  | _ => .error .sub

/-- Major 0x29. -/
def decodeMajor29 (w : Nat) : Except Reject Instr :=
  match w / 65536 % 16 with
  | 0 => ifZero (w % 8 + w / 1048576 % 64) (.vexpFp32 (bits w 3 6) (bits w 26 6))
  | 1 => ifZero (w % 8 + w / 1048576 % 64) (.vlogFp32 (bits w 3 6) (bits w 26 6))
  | 2 => ifZero (w % 8 + w / 1048576 % 64) (.vrcpFp32 (bits w 3 6) (bits w 26 6))
  | 3 => ifZero (w % 8 + w / 1048576 % 64) (.vrsqrtFp32 (bits w 3 6) (bits w 26 6))
  | 4 => ifZero (w % 8 + w / 1048576 % 64) (.vsqrtFp32 (bits w 3 6) (bits w 26 6))
  | 5 => ifZero (w % 8 + w / 1048576 % 64) (.vtanhFp32 (bits w 3 6) (bits w 26 6))
  | 6 => ifZero (w % 8 + w / 1048576 % 64) (.vsigmFp32 (bits w 3 6) (bits w 26 6))
  | _ => .error .sub

/-- Major 0x2A. -/
def decodeMajor2A (w : Nat) : Except Reject Instr :=
  match w / 65536 % 16 with
  | 0 => ifZero (w % 8) (.vcmpEqFp32 (bits w 3 6) (bits w 26 6) (bits w 20 6))
  | 1 => ifZero (w % 8) (.vcmpLtFp32 (bits w 3 6) (bits w 26 6) (bits w 20 6))
  | 2 => ifZero (w % 8) (.vcmpLeFp32 (bits w 3 6) (bits w 26 6) (bits w 20 6))
  | 3 => ifZero (w % 8) (.vcmpEqI32 (bits w 3 6) (bits w 26 6) (bits w 20 6))
  | 4 => ifZero (w % 8) (.vcmpLtI32 (bits w 3 6) (bits w 26 6) (bits w 20 6))
  | 5 => ifZero (w % 8) (.vsel (bits w 3 6) (bits w 26 6) (bits w 20 6))
  | _ => .error .sub

/-- Major 0x2B. -/
def decodeMajor2B (w : Nat) : Except Reject Instr :=
  match w / 65536 % 16 with
  | 0 => ifZero (w % 8 + w / 1048576 % 64) (.vsumFp32 (bits w 3 6) (bits w 26 6))
  | 1 => ifZero (w % 8 + w / 1048576 % 64) (.vsumI32 (bits w 3 6) (bits w 26 6))
  | 2 => ifZero (w % 8 + w / 1048576 % 64) (.vmaxrFp32 (bits w 3 6) (bits w 26 6))
  | 3 => ifZero (w % 8 + w / 1048576 % 64) (.vbcast (bits w 3 6) (bits w 26 6))
  | 4 => ifZero (w % 8) (.vget (bits w 3 6) (bits w 26 6) (bits w 20 6))
  | 5 => ifZero (w % 8) (.vset (bits w 3 6) (bits w 26 6) (bits w 20 6))
  | _ => .error .sub

/-- Major 0x2C. -/
def decodeMajor2C (w : Nat) : Except Reject Instr :=
  match w / 65536 % 16 with
  | 0 => ifZero (w % 8) (.vcvtBf16Fp32 (bits w 3 6) (bits w 26 6) (bits w 20 6))
  | 1 => ifZero (w % 8) (.vcvtFp32Bf16 (bits w 3 6) (bits w 26 6) (bits w 20 6))
  | 2 => ifZero (w % 8 + w / 1048576 % 64) (.vcvtI32Fp32 (bits w 3 6) (bits w 26 6))
  | 3 => ifZero (w % 8 + w / 1048576 % 64) (.vcvtFp32I32 (bits w 3 6) (bits w 26 6))
  | 4 => ifZero (w % 8 + w / 1048576 % 64) (.vmov (bits w 3 6) (bits w 26 6))
  | _ => .error .sub

/-- Major 0x2D. -/
def decodeMajor2D (w : Nat) : Except Reject Instr :=
  match w / 65536 % 16 with
  | 0 => ifZero (w % 8) (.vld (bits w 3 6) (bits w 26 6) (bits w 20 6))
  | 1 => ifZero (w % 8) (.vst (bits w 3 6) (bits w 26 6) (bits w 20 6))
  | _ => .error .sub

/-- Major 0x2E. -/
def decodeMajor2E (w : Nat) : Except Reject Instr :=
  match w % 16 with
  | 0 => ifZero (w / 65536 % 65536) (.abind (bits w 4 5))
  | 1 => ifZero (w / 16 % 32 + w / 65536 % 65536) .aunbind
  | 2 => ifZero (w / 65536 % 65536) (.atypeFp32 (bits w 4 5))
  | 3 => ifZero (w / 65536 % 65536) (.atypeI32 (bits w 4 5))
  | 4 => ifZero (w / 65536 % 65536) (.atypeBf16 (bits w 4 5))
  | 5 => ifZero (w / 65536 % 65536) (.azero (bits w 4 5))
  | 6 => ifZero (w / 65536 % 65536) (.aqlen (bits w 4 5))
  | 7 => ifZero (w / 65536 % 2048) (.aver (bits w 4 5) (bits w 27 5))
  | _ => .error .sub

/-- Major 0x2F. -/
def decodeMajor2F (w : Nat) : Except Reject Instr :=
  match w % 16 with
  | 0 => ifZero (w / 65536 % 2048) (.mma (bits w 4 5) (bits w 27 5))
  | 1 => ifZero (w / 65536 % 2048) (.mmaSp6 (bits w 4 5) (bits w 27 5))
  | 2 => ifZero (w / 65536 % 2048) (.mmaSp12 (bits w 4 5) (bits w 27 5))
  | 3 => ifZero (w / 65536 % 2048) (.mmaZ (bits w 4 5) (bits w 27 5))
  | 4 => ifZero (w / 65536 % 2048) (.await (bits w 4 5) (bits w 27 5))
  | 5 => ifZero (w / 65536 % 64) (.drain (bits w 4 5) (bits w 27 5) (bits w 22 5))
  | 6 => ifZero (w / 65536 % 64) (.drainAdd (bits w 4 5) (bits w 27 5) (bits w 22 5))
  | 7 => ifZero (w / 65536 % 64) (.acopy (bits w 4 5) (bits w 27 5) (bits w 22 5))
  | _ => .error .sub

/-- Major 0x32. -/
def decodeMajor32 (w : Nat) : Except Reject Instr :=
  match w % 16 with
  | 0 => ifZero (w / 16 % 32 + w / 65536 % 64) (.cpy (bits w 27 5) (bits w 22 5))
  | 1 => .ok (.cpyMm (bits w 4 5) (bits w 27 5) (bits w 22 5) (bits w 16 6))
  | 2 => ifZero (w / 16 % 32 + w / 65536 % 64) (.cpyMc (bits w 27 5) (bits w 22 5))
  | 3 => .ok (.cpyMmMc (bits w 4 5) (bits w 27 5) (bits w 22 5) (bits w 16 6))
  | 4 => ifZero (w / 16 % 32 + w / 65536 % 64) (.cpyAdd (bits w 27 5) (bits w 22 5))
  | 5 => ifZero (w / 16 % 32 + w / 65536 % 64) (.cpyFill (bits w 27 5) (bits w 22 5))
  | 6 => ifZero (w / 16 % 32 + w / 65536 % 64) (.cpyKeep (bits w 27 5) (bits w 22 5))
  | 7 => ifZero (w / 65536 % 64) (.cpySend (bits w 4 5) (bits w 27 5) (bits w 22 5))
  | 8 => ifZero (w / 65536 % 64 + w / 134217728 % 32) (.cpyCancel (bits w 4 5) (bits w 22 5))
  | 9 => ifZero (w / 65536 % 64 + w / 134217728 % 32) (.cpyQuery (bits w 4 5) (bits w 22 5))
  | _ => .error .sub

/-- Major 0x34. -/
def decodeMajor34 (w : Nat) : Except Reject Instr :=
  match w % 16 with
  | 0 => ifZero (w / 65536 % 64) (.xset (bits w 4 5) (bits w 27 5) (bits w 22 5))
  | 1 => ifZero (w / 65536 % 2048) (.xgetLo (bits w 4 5) (bits w 27 5))
  | 2 => ifZero (w / 65536 % 2048) (.xgetHi (bits w 4 5) (bits w 27 5))
  | 3 => ifZero (w / 4194304 % 32) (.xld (bits w 4 5) (bits w 27 5) (bits w 16 6))
  | 4 => ifZero (w / 4194304 % 32) (.xst (bits w 4 5) (bits w 27 5) (bits w 16 6))
  | 5 => ifZero (w / 65536 % 65536) (.xclr (bits w 4 5))
  | _ => .error .sub

/-- Major 0x36. -/
def decodeMajor36 (w : Nat) : Except Reject Instr :=
  match w % 16 with
  | 0 => ifZero (w / 16 % 32 + w / 134217728 % 32) (.trap (bits w 16 11))
  | 1 => ifZero (w / 16 % 32 + w / 134217728 % 32) (.brk (bits w 16 11))
  | 2 => ifZero (w / 16 % 32 + w / 65536 % 65536) .tback
  | 3 => ifZero (w / 16 % 32 + w / 65536 % 2048) (.nap (bits w 27 5))
  | 4 => ifZero (w / 16 % 32 + w / 65536 % 65536) .ifence
  | _ => .error .sub

/-- Major 0x37. -/
def decodeMajor37 (w : Nat) : Except Reject Instr :=
  match w % 16 with
  | 0 => ifZero (w / 4194304 % 1024) (.cget (bits w 4 5) (bits w 16 6))
  | 1 => ifZero (w / 16 % 32 + w / 4194304 % 32) (.cset (bits w 27 5) (bits w 16 6))
  | 2 => ifZero (w / 16 % 32 + w / 134217728 % 32) (.cseti (bits w 22 5) (bits w 16 6))
  | 3 => ifZero (w / 4194304 % 32) (.cclr (bits w 4 5) (bits w 27 5) (bits w 16 6))
  | 4 => ifZero (w / 4194304 % 32) (.cbis (bits w 4 5) (bits w 27 5) (bits w 16 6))
  | _ => .error .sub

/-- Major 0x38. -/
def decodeMajor38 (w : Nat) : Except Reject Instr :=
  match w % 16 with
  | 0 => ifZero (w / 65536 % 2048) (.hcget (bits w 4 5) (bits w 27 5))
  | 1 => ifZero (w / 16 % 32 + w / 65536 % 64) (.hcset (bits w 27 5) (bits w 22 5))
  | 2 => ifZero (w / 65536 % 2) (.hstart (bits w 4 5) (bits w 27 5) (bits w 22 5) (bits w 17 5))
  | 3 => ifZero (w / 65536 % 2048) (.hkill (bits w 4 5) (bits w 27 5))
  | 4 => ifZero (w / 16 % 32 + w / 65536 % 2048) (.hrec (bits w 27 5))
  | 5 => ifZero (w / 16 % 32 + w / 65536 % 2048) (.hquiesce (bits w 27 5))
  | 6 => ifZero (w / 65536 % 2048) (.hpurge (bits w 4 5) (bits w 27 5))
  | 7 => ifZero (w / 16 % 32 + w / 65536 % 2) (.hcopy (bits w 27 5) (bits w 22 5) (bits w 17 5))
  | _ => .error .sub

/-- A 32-bit instruction word (R182, R189): the major, then its sub, fn, q or cond value, then R184. -/
def decodeWide (w : Nat) : Except Reject Instr :=
  match w / 512 % 64 with
  | 0 => decodeMajor00 w
  | 1 => decodeMajor01 w
  | 2 => decodeMajor02 w
  | 3 => decodeMajor03 w
  | 8 => decodeMajor08 w
  | 9 => decodeMajor09 w
  | 10 => decodeMajor0A w
  | 11 => decodeMajor0B w
  | 12 => decodeMajor0C w
  | 13 => decodeMajor0D w
  | 14 => decodeMajor0E w
  | 15 => decodeMajor0F w
  | 16 => decodeMajor10 w
  | 17 => decodeMajor11 w
  | 18 => decodeMajor12 w
  | 24 => decodeMajor18 w
  | 25 => decodeMajor19 w
  | 28 => decodeMajor1C w
  | 29 => decodeMajor1D w
  | 30 => decodeMajor1E w
  | 32 => decodeMajor20 w
  | 33 => decodeMajor21 w
  | 34 => decodeMajor22 w
  | 35 => decodeMajor23 w
  | 36 => decodeMajor24 w
  | 38 => decodeMajor26 w
  | 39 => decodeMajor27 w
  | 40 => decodeMajor28 w
  | 41 => decodeMajor29 w
  | 42 => decodeMajor2A w
  | 43 => decodeMajor2B w
  | 44 => decodeMajor2C w
  | 45 => decodeMajor2D w
  | 46 => decodeMajor2E w
  | 47 => decodeMajor2F w
  | 50 => decodeMajor32 w
  | 52 => decodeMajor34 w
  | 54 => decodeMajor36 w
  | 55 => decodeMajor37 w
  | 56 => decodeMajor38 w
  | _ => .error .major

/-- An instruction word whose H0 stands in bits 15 to 0: H0[15] says which length it has (R178). -/
def decode (w : Nat) : Except Reject Instr :=
  if w / 32768 % 2 = 0 then decodeCompact (w % 65536) else decodeWide w

/-- The bytes of an instruction, in the order they are stored (R178, R5), and the bytes after it. -/
def decodeBytes : List Byte → Except Reject (Instr × List Byte)
  | b0 :: b1 :: rest =>
    let h0 := b0.toNat + b1.toNat * 256
    if h0 / 32768 % 2 = 0 then (decode h0).map (fun i => (i, rest))
    else
      match rest with
      | b2 :: b3 :: rest' =>
        (decode (h0 + b2.toNat * 65536 + b3.toNat * 16777216)).map (fun i => (i, rest'))
      | _ => .error .truncated
  | _ => .error .truncated

/-- The `n` bytes of a number, least significant first (R5). -/
def bytesOf (w : Nat) : Nat → List Byte
  | 0 => []
  | n + 1 => BitVec.ofNat 8 w :: bytesOf (w / 256) n

/-- What the decoder reads from the instruction whose bits are `w`, numbered as the opcode table numbers them; bits above
`nbits` are 0. -/
def decodeTableWord (nbits w : Nat) : Option Instr :=
  match decodeBytes (bytesOf (w % 2 ^ nbits) 4) with
  | .ok (i, _) => some i
  | .error _ => none


/-- Operand limits of SHLI (R183, R206). -/
def limShli (imm : BitVec 11) : Bool := decide (imm.toNat ≤ 63)
/-- Operand limits of SHRI (R183, R206). -/
def limShri (imm : BitVec 11) : Bool := decide (imm.toNat ≤ 63)
/-- Operand limits of SRAI (R183, R206). -/
def limSrai (imm : BitVec 11) : Bool := decide (imm.toNat ≤ 63)
/-- Operand limits of BFX (R183, R211). -/
def limBfx (b : BitVec 5) (imm : BitVec 6) : Bool := decide (imm.toNat + b.toNat + 1 ≤ 64)
/-- Operand limits of BFXU (R183, R211). -/
def limBfxu (b : BitVec 5) (imm : BitVec 6) : Bool := decide (imm.toNat + b.toNat + 1 ≤ 64)
/-- Operand limits of BFI (R183, R211). -/
def limBfi (b : BitVec 5) (imm : BitVec 6) : Bool := decide (imm.toNat + b.toNat + 1 ≤ 64)
/-- Operand limits of SEND_MC (R183, R248). -/
def limSendMc (d : BitVec 5) : Bool := decide (d.toNat < 8)
/-- Operand limits of XMOV_TO (R183, R255). -/
def limXmovTo (imm : BitVec 6) : Bool := decide (imm.toNat < 32)
/-- Operand limits of XMOV_FROM (R183, R255). -/
def limXmovFrom (imm : BitVec 6) : Bool := decide (imm.toNat < 32)
/-- Operand limits of XMOVM_TO (R183, R255). -/
def limXmovmTo (imm : BitVec 6) : Bool := decide (1 ≤ imm.toNat ∧ imm.toNat ≤ 32)
/-- Operand limits of XMOVM_FROM (R183, R255). -/
def limXmovmFrom (imm : BitVec 6) : Bool := decide (1 ≤ imm.toNat ∧ imm.toNat ≤ 32)
/-- Operand limits of XMOVX_TO (R183, R255). -/
def limXmovxTo (b : BitVec 5) (imm : BitVec 6) : Bool := decide (b.toNat < 8 ∧ imm.toNat < 8)
/-- Operand limits of XMOVX_FROM (R183, R255). -/
def limXmovxFrom (d : BitVec 5) (imm : BitVec 6) : Bool := decide (d.toNat < 8 ∧ imm.toNat < 8)
/-- Operand limits of QPUT (R183, R257). -/
def limQput (imm : BitVec 6) : Bool := decide (imm.toNat < 4)
/-- Operand limits of QGET (R183, R257). -/
def limQget (imm : BitVec 6) : Bool := decide (imm.toNat < 4)
/-- Operand limits of QPUT_NB (R183, R257). -/
def limQputNb (imm : BitVec 6) : Bool := decide (imm.toNat < 4)
/-- Operand limits of QGET_NB (R183, R257). -/
def limQgetNb (imm : BitVec 6) : Bool := decide (imm.toNat < 4)
/-- Operand limits of QLEN (R183, R257). -/
def limQlen (imm : BitVec 6) : Bool := decide (imm.toNat < 4)
/-- Operand limits of VADDB_FP32 (R183, R265). -/
def limVaddbFp32 (b : BitVec 6) : Bool := decide (b.toNat < 32)
/-- Operand limits of VMULB_FP32 (R183, R265). -/
def limVmulbFp32 (b : BitVec 6) : Bool := decide (b.toNat < 32)
/-- Operand limits of VBCAST (R183, R270). -/
def limVbcast (a : BitVec 6) : Bool := decide (a.toNat < 32)
/-- Operand limits of VGET (R183, R270). -/
def limVget (d : BitVec 6) (b : BitVec 6) : Bool := decide (d.toNat < 32 ∧ b.toNat < 32)
/-- Operand limits of VSET (R183, R270). -/
def limVset (a : BitVec 6) (b : BitVec 6) : Bool := decide (a.toNat < 32 ∧ b.toNat < 32)
/-- Operand limits of VCVT_FP32_BF16 (R183, R271). -/
def limVcvtFp32Bf16 (b : BitVec 6) : Bool := decide (b.toNat < 2)
/-- Operand limits of VLD (R183, R272). -/
def limVld (a : BitVec 6) (b : BitVec 6) : Bool := decide (a.toNat < 32 ∧ b.toNat < 32)
/-- Operand limits of VST (R183, R272). -/
def limVst (a : BitVec 6) (b : BitVec 6) : Bool := decide (a.toNat < 32 ∧ b.toNat < 32)
/-- Operand limits of ABIND (R183, R277). -/
def limAbind (d : BitVec 5) : Bool := decide (d.toNat < 16)
/-- Operand limits of ATYPE_FP32 (R183, R277). -/
def limAtypeFp32 (d : BitVec 5) : Bool := decide (d.toNat < 16)
/-- Operand limits of ATYPE_I32 (R183, R277). -/
def limAtypeI32 (d : BitVec 5) : Bool := decide (d.toNat < 16)
/-- Operand limits of ATYPE_BF16 (R183, R277). -/
def limAtypeBf16 (d : BitVec 5) : Bool := decide (d.toNat < 16)
/-- Operand limits of AZERO (R183, R277). -/
def limAzero (d : BitVec 5) : Bool := decide (d.toNat < 16)
/-- Operand limits of AVER (R183, R277). -/
def limAver (a : BitVec 5) : Bool := decide (a.toNat < 16)
/-- Operand limits of MMA (R183, R283). -/
def limMma (d : BitVec 5) (a : BitVec 5) : Bool := decide (d.toNat < 16 ∧ a.toNat < 8)
/-- Operand limits of MMA_SP6 (R183, R283). -/
def limMmaSp6 (d : BitVec 5) (a : BitVec 5) : Bool := decide (d.toNat < 16 ∧ a.toNat < 8)
/-- Operand limits of MMA_SP12 (R183, R283). -/
def limMmaSp12 (d : BitVec 5) (a : BitVec 5) : Bool := decide (d.toNat < 16 ∧ a.toNat < 8)
/-- Operand limits of MMA_Z (R183, R283). -/
def limMmaZ (d : BitVec 5) (a : BitVec 5) : Bool := decide (d.toNat < 16 ∧ a.toNat < 8)
/-- Operand limits of AWAIT (R183, R286). -/
def limAwait (d : BitVec 5) : Bool := decide (d.toNat < 16)
/-- Operand limits of DRAIN (R183, R288). -/
def limDrain (d : BitVec 5) (a : BitVec 5) : Bool := decide (d.toNat < 16 ∧ a.toNat < 8)
/-- Operand limits of DRAIN_ADD (R183, R288). -/
def limDrainAdd (d : BitVec 5) (a : BitVec 5) : Bool := decide (d.toNat < 16 ∧ a.toNat < 8)
/-- Operand limits of ACOPY (R183, R289). -/
def limAcopy (d : BitVec 5) (a : BitVec 5) : Bool := decide (d.toNat < 16 ∧ a.toNat < 16)
/-- Operand limits of CPY (R183, R301). -/
def limCpy (a : BitVec 5) : Bool := decide (a.toNat < 8)
/-- Operand limits of CPY_MM (R183, R303). -/
def limCpyMm (d : BitVec 5) (a : BitVec 5) : Bool := decide (a.toNat < 8 ∧ d.toNat < 8)
/-- Operand limits of CPY_MC (R183, R302). -/
def limCpyMc (a : BitVec 5) : Bool := decide (a.toNat < 8)
/-- Operand limits of CPY_MM_MC (R183, R303). -/
def limCpyMmMc (d : BitVec 5) (a : BitVec 5) : Bool := decide (a.toNat < 8 ∧ d.toNat < 8)
/-- Operand limits of CPY_ADD (R183, R301). -/
def limCpyAdd (a : BitVec 5) : Bool := decide (a.toNat < 8)
/-- Operand limits of CPY_FILL (R183, R301). -/
def limCpyFill (a : BitVec 5) : Bool := decide (a.toNat < 8)
/-- Operand limits of CPY_KEEP (R183, R301). -/
def limCpyKeep (a : BitVec 5) : Bool := decide (a.toNat < 8)
/-- Operand limits of CPY_SEND (R183, R306). -/
def limCpySend (a : BitVec 5) : Bool := decide (a.toNat < 8)
/-- Operand limits of XSET (R183, R278). -/
def limXset (d : BitVec 5) : Bool := decide (d.toNat < 8)
/-- Operand limits of XGET_LO (R183, R278). -/
def limXgetLo (a : BitVec 5) : Bool := decide (a.toNat < 8)
/-- Operand limits of XGET_HI (R183, R278). -/
def limXgetHi (a : BitVec 5) : Bool := decide (a.toNat < 8)
/-- Operand limits of XLD (R183, R278). -/
def limXld (d : BitVec 5) : Bool := decide (d.toNat < 8)
/-- Operand limits of XST (R183, R278). -/
def limXst (d : BitVec 5) : Bool := decide (d.toNat < 8)
/-- Operand limits of XCLR (R183, R278). -/
def limXclr (d : BitVec 5) : Bool := decide (d.toNat < 8)
/-- Operand limits of CGET (R183, R313). -/
def limCget (imm : BitVec 6) : Bool := decide (imm.toNat < 17)
/-- Operand limits of CSET (R183, R313). -/
def limCset (imm : BitVec 6) : Bool := decide (imm.toNat < 17)
/-- Operand limits of CSETI (R183, R313). -/
def limCseti (imm : BitVec 6) : Bool := decide (imm.toNat < 17)
/-- Operand limits of CCLR (R183, R313). -/
def limCclr (imm : BitVec 6) : Bool := decide (imm.toNat < 17)
/-- Operand limits of CBIS (R183, R313). -/
def limCbis (imm : BitVec 6) : Bool := decide (imm.toNat < 17)

/-- Instruction word of MV_N (R192). -/
def wordMvN (x : BitVec 5) (y : BitVec 5) : Nat := 0 + x.toNat * 64 + y.toNat * 2
/-- Instruction word of LI_N (R192). -/
def wordLiN (x : BitVec 5) (imm : BitVec 5) : Nat := 1 + x.toNat * 64 + imm.toNat * 2
/-- Instruction word of ADD_N (R192). -/
def wordAddN (x : BitVec 5) (y : BitVec 5) : Nat := 2048 + x.toNat * 64 + y.toNat * 2
/-- Instruction word of ADDI_N (R192). -/
def wordAddiN (x : BitVec 5) (imm : BitVec 5) : Nat := 2049 + x.toNat * 64 + imm.toNat * 2
/-- Instruction word of SUB_N (R192). -/
def wordSubN (x : BitVec 5) (y : BitVec 5) : Nat := 4096 + x.toNat * 64 + y.toNat * 2
/-- Instruction word of SHLI_N (R192). -/
def wordShliN (x : BitVec 5) (imm : BitVec 5) : Nat := 4097 + x.toNat * 64 + imm.toNat * 2
/-- Instruction word of AND_N (R192). -/
def wordAndN (x : BitVec 5) (y : BitVec 5) : Nat := 6144 + x.toNat * 64 + y.toNat * 2
/-- Instruction word of SHRI_N (R192). -/
def wordShriN (x : BitVec 5) (imm : BitVec 5) : Nat := 6145 + x.toNat * 64 + imm.toNat * 2
/-- Instruction word of OR_N (R192). -/
def wordOrN (x : BitVec 5) (y : BitVec 5) : Nat := 8192 + x.toNat * 64 + y.toNat * 2
/-- Instruction word of SRAI_N (R192). -/
def wordSraiN (x : BitVec 5) (imm : BitVec 5) : Nat := 8193 + x.toNat * 64 + imm.toNat * 2
/-- Instruction word of XOR_N (R192). -/
def wordXorN (x : BitVec 5) (y : BitVec 5) : Nat := 10240 + x.toNat * 64 + y.toNat * 2
/-- Instruction word of ANDI_N (R192). -/
def wordAndiN (x : BitVec 5) (imm : BitVec 5) : Nat := 10241 + x.toNat * 64 + imm.toNat * 2
/-- Instruction word of LD_N (R192). -/
def wordLdN (x : BitVec 5) (y : BitVec 5) : Nat := 12288 + x.toNat * 64 + y.toNat * 2
/-- Instruction word of LDSP_N (R192). -/
def wordLdspN (x : BitVec 5) (imm : BitVec 5) : Nat := 12289 + x.toNat * 64 + imm.toNat * 2
/-- Instruction word of ST_N (R192). -/
def wordStN (x : BitVec 5) (y : BitVec 5) : Nat := 14336 + x.toNat * 64 + y.toNat * 2
/-- Instruction word of STSP_N (R192). -/
def wordStspN (x : BitVec 5) (imm : BitVec 5) : Nat := 14337 + x.toNat * 64 + imm.toNat * 2
/-- Instruction word of BEQZ_N (R192). -/
def wordBeqzN (x : BitVec 5) (off : BitVec 6) : Nat := 16384 + x.toNat * 64 + off.toNat
/-- Instruction word of BNEZ_N (R192). -/
def wordBnezN (x : BitVec 5) (off : BitVec 6) : Nat := 18432 + x.toNat * 64 + off.toNat
/-- Instruction word of J_N (R192). -/
def wordJN (off : BitVec 11) : Nat := 20480 + off.toNat
/-- Instruction word of JR_N (R192). -/
def wordJrN (x : BitVec 5) : Nat := 22528 + x.toNat * 64
/-- Instruction word of CALLR_N (R192). -/
def wordCallrN (x : BitVec 5) : Nat := 22529 + x.toNat * 64
/-- Instruction word of RET_N (R192). -/
def wordRetN : Nat := 24576
/-- Instruction word of NOP_N (R192). -/
def wordNopN : Nat := 24577
/-- Instruction word of ADDSP_N (R192). -/
def wordAddspN (imm : BitVec 10) : Nat := 26624 + imm.toNat * 2
/-- Instruction word of SHLI (R206). -/
def wordShli (d : BitVec 5) (a : BitVec 5) (imm : BitVec 11) : Nat := 33798 + d.toNat * 16 + a.toNat * 134217728 + imm.toNat * 65536
/-- Instruction word of SHRI (R206). -/
def wordShri (d : BitVec 5) (a : BitVec 5) (imm : BitVec 11) : Nat := 33799 + d.toNat * 16 + a.toNat * 134217728 + imm.toNat * 65536
/-- Instruction word of SRAI (R206). -/
def wordSrai (d : BitVec 5) (a : BitVec 5) (imm : BitVec 11) : Nat := 33800 + d.toNat * 16 + a.toNat * 134217728 + imm.toNat * 65536
/-- Instruction word of BFX (R211). -/
def wordBfx (d : BitVec 5) (a : BitVec 5) (b : BitVec 5) (imm : BitVec 6) : Nat := 38400 + d.toNat * 16 + a.toNat * 134217728 + b.toNat * 4194304 + imm.toNat * 65536
/-- Instruction word of BFXU (R211). -/
def wordBfxu (d : BitVec 5) (a : BitVec 5) (b : BitVec 5) (imm : BitVec 6) : Nat := 38401 + d.toNat * 16 + a.toNat * 134217728 + b.toNat * 4194304 + imm.toNat * 65536
/-- Instruction word of BFI (R211). -/
def wordBfi (d : BitVec 5) (a : BitVec 5) (b : BitVec 5) (imm : BitVec 6) : Nat := 38402 + d.toNat * 16 + a.toNat * 134217728 + b.toNat * 4194304 + imm.toNat * 65536
/-- Instruction word of SEND_MC (R248). -/
def wordSendMc (d : BitVec 5) (a : BitVec 5) (b : BitVec 5) (c : BitVec 5) : Nat := 49665 + d.toNat * 16 + a.toNat * 134217728 + b.toNat * 4194304 + c.toNat * 131072
/-- Instruction word of XMOV_TO (R255). -/
def wordXmovTo (a : BitVec 5) (b : BitVec 5) (imm : BitVec 6) : Nat := 50690 + a.toNat * 134217728 + b.toNat * 4194304 + imm.toNat * 65536
/-- Instruction word of XMOV_FROM (R255). -/
def wordXmovFrom (d : BitVec 5) (a : BitVec 5) (imm : BitVec 6) : Nat := 50691 + d.toNat * 16 + a.toNat * 134217728 + imm.toNat * 65536
/-- Instruction word of XMOVM_TO (R255). -/
def wordXmovmTo (d : BitVec 5) (a : BitVec 5) (b : BitVec 5) (imm : BitVec 6) : Nat := 50692 + d.toNat * 16 + a.toNat * 134217728 + b.toNat * 4194304 + imm.toNat * 65536
/-- Instruction word of XMOVM_FROM (R255). -/
def wordXmovmFrom (d : BitVec 5) (a : BitVec 5) (b : BitVec 5) (imm : BitVec 6) : Nat := 50693 + d.toNat * 16 + a.toNat * 134217728 + b.toNat * 4194304 + imm.toNat * 65536
/-- Instruction word of XMOVX_TO (R255). -/
def wordXmovxTo (a : BitVec 5) (b : BitVec 5) (imm : BitVec 6) : Nat := 50694 + a.toNat * 134217728 + b.toNat * 4194304 + imm.toNat * 65536
/-- Instruction word of XMOVX_FROM (R255). -/
def wordXmovxFrom (d : BitVec 5) (a : BitVec 5) (imm : BitVec 6) : Nat := 50695 + d.toNat * 16 + a.toNat * 134217728 + imm.toNat * 65536
/-- Instruction word of QPUT (R257). -/
def wordQput (a : BitVec 5) (imm : BitVec 6) : Nat := 51200 + a.toNat * 134217728 + imm.toNat * 65536
/-- Instruction word of QGET (R257). -/
def wordQget (d : BitVec 5) (imm : BitVec 6) : Nat := 51201 + d.toNat * 16 + imm.toNat * 65536
/-- Instruction word of QPUT_NB (R257). -/
def wordQputNb (d : BitVec 5) (a : BitVec 5) (imm : BitVec 6) : Nat := 51202 + d.toNat * 16 + a.toNat * 134217728 + imm.toNat * 65536
/-- Instruction word of QGET_NB (R257). -/
def wordQgetNb (d : BitVec 5) (imm : BitVec 6) : Nat := 51203 + d.toNat * 16 + imm.toNat * 65536
/-- Instruction word of QLEN (R257). -/
def wordQlen (d : BitVec 5) (imm : BitVec 6) : Nat := 51204 + d.toNat * 16 + imm.toNat * 65536
/-- Instruction word of VADDB_FP32 (R265). -/
def wordVaddbFp32 (d : BitVec 6) (a : BitVec 6) (b : BitVec 6) : Nat := 707584 + d.toNat * 8 + a.toNat * 67108864 + b.toNat * 1048576
/-- Instruction word of VMULB_FP32 (R265). -/
def wordVmulbFp32 (d : BitVec 6) (a : BitVec 6) (b : BitVec 6) : Nat := 773120 + d.toNat * 8 + a.toNat * 67108864 + b.toNat * 1048576
/-- Instruction word of VBCAST (R270). -/
def wordVbcast (d : BitVec 6) (a : BitVec 6) : Nat := 251392 + d.toNat * 8 + a.toNat * 67108864
/-- Instruction word of VGET (R270). -/
def wordVget (d : BitVec 6) (a : BitVec 6) (b : BitVec 6) : Nat := 316928 + d.toNat * 8 + a.toNat * 67108864 + b.toNat * 1048576
/-- Instruction word of VSET (R270). -/
def wordVset (d : BitVec 6) (a : BitVec 6) (b : BitVec 6) : Nat := 382464 + d.toNat * 8 + a.toNat * 67108864 + b.toNat * 1048576
/-- Instruction word of VCVT_FP32_BF16 (R271). -/
def wordVcvtFp32Bf16 (d : BitVec 6) (a : BitVec 6) (b : BitVec 6) : Nat := 120832 + d.toNat * 8 + a.toNat * 67108864 + b.toNat * 1048576
/-- Instruction word of VLD (R272). -/
def wordVld (d : BitVec 6) (a : BitVec 6) (b : BitVec 6) : Nat := 55808 + d.toNat * 8 + a.toNat * 67108864 + b.toNat * 1048576
/-- Instruction word of VST (R272). -/
def wordVst (d : BitVec 6) (a : BitVec 6) (b : BitVec 6) : Nat := 121344 + d.toNat * 8 + a.toNat * 67108864 + b.toNat * 1048576
/-- Instruction word of ABIND (R277). -/
def wordAbind (d : BitVec 5) : Nat := 56320 + d.toNat * 16
/-- Instruction word of ATYPE_FP32 (R277). -/
def wordAtypeFp32 (d : BitVec 5) : Nat := 56322 + d.toNat * 16
/-- Instruction word of ATYPE_I32 (R277). -/
def wordAtypeI32 (d : BitVec 5) : Nat := 56323 + d.toNat * 16
/-- Instruction word of ATYPE_BF16 (R277). -/
def wordAtypeBf16 (d : BitVec 5) : Nat := 56324 + d.toNat * 16
/-- Instruction word of AZERO (R277). -/
def wordAzero (d : BitVec 5) : Nat := 56325 + d.toNat * 16
/-- Instruction word of AVER (R277). -/
def wordAver (d : BitVec 5) (a : BitVec 5) : Nat := 56327 + d.toNat * 16 + a.toNat * 134217728
/-- Instruction word of MMA (R283). -/
def wordMma (d : BitVec 5) (a : BitVec 5) : Nat := 56832 + d.toNat * 16 + a.toNat * 134217728
/-- Instruction word of MMA_SP6 (R283). -/
def wordMmaSp6 (d : BitVec 5) (a : BitVec 5) : Nat := 56833 + d.toNat * 16 + a.toNat * 134217728
/-- Instruction word of MMA_SP12 (R283). -/
def wordMmaSp12 (d : BitVec 5) (a : BitVec 5) : Nat := 56834 + d.toNat * 16 + a.toNat * 134217728
/-- Instruction word of MMA_Z (R283). -/
def wordMmaZ (d : BitVec 5) (a : BitVec 5) : Nat := 56835 + d.toNat * 16 + a.toNat * 134217728
/-- Instruction word of AWAIT (R286). -/
def wordAwait (d : BitVec 5) (a : BitVec 5) : Nat := 56836 + d.toNat * 16 + a.toNat * 134217728
/-- Instruction word of DRAIN (R288). -/
def wordDrain (d : BitVec 5) (a : BitVec 5) (b : BitVec 5) : Nat := 56837 + d.toNat * 16 + a.toNat * 134217728 + b.toNat * 4194304
/-- Instruction word of DRAIN_ADD (R288). -/
def wordDrainAdd (d : BitVec 5) (a : BitVec 5) (b : BitVec 5) : Nat := 56838 + d.toNat * 16 + a.toNat * 134217728 + b.toNat * 4194304
/-- Instruction word of ACOPY (R289). -/
def wordAcopy (d : BitVec 5) (a : BitVec 5) (b : BitVec 5) : Nat := 56839 + d.toNat * 16 + a.toNat * 134217728 + b.toNat * 4194304
/-- Instruction word of CPY (R301). -/
def wordCpy (a : BitVec 5) (b : BitVec 5) : Nat := 58368 + a.toNat * 134217728 + b.toNat * 4194304
/-- Instruction word of CPY_MM (R303). -/
def wordCpyMm (d : BitVec 5) (a : BitVec 5) (b : BitVec 5) (imm : BitVec 6) : Nat := 58369 + d.toNat * 16 + a.toNat * 134217728 + b.toNat * 4194304 + imm.toNat * 65536
/-- Instruction word of CPY_MC (R302). -/
def wordCpyMc (a : BitVec 5) (b : BitVec 5) : Nat := 58370 + a.toNat * 134217728 + b.toNat * 4194304
/-- Instruction word of CPY_MM_MC (R303). -/
def wordCpyMmMc (d : BitVec 5) (a : BitVec 5) (b : BitVec 5) (imm : BitVec 6) : Nat := 58371 + d.toNat * 16 + a.toNat * 134217728 + b.toNat * 4194304 + imm.toNat * 65536
/-- Instruction word of CPY_ADD (R301). -/
def wordCpyAdd (a : BitVec 5) (b : BitVec 5) : Nat := 58372 + a.toNat * 134217728 + b.toNat * 4194304
/-- Instruction word of CPY_FILL (R301). -/
def wordCpyFill (a : BitVec 5) (b : BitVec 5) : Nat := 58373 + a.toNat * 134217728 + b.toNat * 4194304
/-- Instruction word of CPY_KEEP (R301). -/
def wordCpyKeep (a : BitVec 5) (b : BitVec 5) : Nat := 58374 + a.toNat * 134217728 + b.toNat * 4194304
/-- Instruction word of CPY_SEND (R306). -/
def wordCpySend (d : BitVec 5) (a : BitVec 5) (b : BitVec 5) : Nat := 58375 + d.toNat * 16 + a.toNat * 134217728 + b.toNat * 4194304
/-- Instruction word of XSET (R278). -/
def wordXset (d : BitVec 5) (a : BitVec 5) (b : BitVec 5) : Nat := 59392 + d.toNat * 16 + a.toNat * 134217728 + b.toNat * 4194304
/-- Instruction word of XGET_LO (R278). -/
def wordXgetLo (d : BitVec 5) (a : BitVec 5) : Nat := 59393 + d.toNat * 16 + a.toNat * 134217728
/-- Instruction word of XGET_HI (R278). -/
def wordXgetHi (d : BitVec 5) (a : BitVec 5) : Nat := 59394 + d.toNat * 16 + a.toNat * 134217728
/-- Instruction word of XLD (R278). -/
def wordXld (d : BitVec 5) (a : BitVec 5) (imm : BitVec 6) : Nat := 59395 + d.toNat * 16 + a.toNat * 134217728 + imm.toNat * 65536
/-- Instruction word of XST (R278). -/
def wordXst (d : BitVec 5) (a : BitVec 5) (imm : BitVec 6) : Nat := 59396 + d.toNat * 16 + a.toNat * 134217728 + imm.toNat * 65536
/-- Instruction word of XCLR (R278). -/
def wordXclr (d : BitVec 5) : Nat := 59397 + d.toNat * 16
/-- Instruction word of CGET (R313). -/
def wordCget (d : BitVec 5) (imm : BitVec 6) : Nat := 60928 + d.toNat * 16 + imm.toNat * 65536
/-- Instruction word of CSET (R313). -/
def wordCset (a : BitVec 5) (imm : BitVec 6) : Nat := 60929 + a.toNat * 134217728 + imm.toNat * 65536
/-- Instruction word of CSETI (R313). -/
def wordCseti (b : BitVec 5) (imm : BitVec 6) : Nat := 60930 + b.toNat * 4194304 + imm.toNat * 65536
/-- Instruction word of CCLR (R313). -/
def wordCclr (d : BitVec 5) (a : BitVec 5) (imm : BitVec 6) : Nat := 60931 + d.toNat * 16 + a.toNat * 134217728 + imm.toNat * 65536
/-- Instruction word of CBIS (R313). -/
def wordCbis (d : BitVec 5) (a : BitVec 5) (imm : BitVec 6) : Nat := 60932 + d.toNat * 16 + a.toNat * 134217728 + imm.toNat * 65536
/-- Instruction word of HCGET (R323). -/
def wordHcget (d : BitVec 5) (a : BitVec 5) : Nat := 61440 + d.toNat * 16 + a.toNat * 134217728
/-- Instruction word of HCSET (R323). -/
def wordHcset (a : BitVec 5) (b : BitVec 5) : Nat := 61441 + a.toNat * 134217728 + b.toNat * 4194304
/-- Instruction word of HSTART (R324). -/
def wordHstart (d : BitVec 5) (a : BitVec 5) (b : BitVec 5) (c : BitVec 5) : Nat := 61442 + d.toNat * 16 + a.toNat * 134217728 + b.toNat * 4194304 + c.toNat * 131072
/-- Instruction word of HKILL (R324). -/
def wordHkill (d : BitVec 5) (a : BitVec 5) : Nat := 61443 + d.toNat * 16 + a.toNat * 134217728
/-- Instruction word of HREC (R324). -/
def wordHrec (a : BitVec 5) : Nat := 61444 + a.toNat * 134217728
/-- Instruction word of HQUIESCE (R324). -/
def wordHquiesce (a : BitVec 5) : Nat := 61445 + a.toNat * 134217728
/-- Instruction word of HPURGE (R324). -/
def wordHpurge (d : BitVec 5) (a : BitVec 5) : Nat := 61446 + d.toNat * 16 + a.toNat * 134217728
/-- Instruction word of HCOPY (R324). -/
def wordHcopy (a : BitVec 5) (b : BitVec 5) (c : BitVec 5) : Nat := 61447 + a.toNat * 134217728 + b.toNat * 4194304 + c.toNat * 131072

/-- The instruction word of an instruction (R192, R200); 0 for the device's own steps, which have none. -/
def encode : Instr → Nat
  | .mvN x y => wordMvN x y
  | .liN x imm => wordLiN x imm
  | .addN x y => wordAddN x y
  | .addiN x imm => wordAddiN x imm
  | .subN x y => wordSubN x y
  | .shliN x imm => wordShliN x imm
  | .andN x y => wordAndN x y
  | .shriN x imm => wordShriN x imm
  | .orN x y => wordOrN x y
  | .sraiN x imm => wordSraiN x imm
  | .xorN x y => wordXorN x y
  | .andiN x imm => wordAndiN x imm
  | .ldN x y => wordLdN x y
  | .ldspN x imm => wordLdspN x imm
  | .stN x y => wordStN x y
  | .stspN x imm => wordStspN x imm
  | .beqzN x off => wordBeqzN x off
  | .bnezN x off => wordBnezN x off
  | .jN off => wordJN off
  | .jrN x => wordJrN x
  | .callrN x => wordCallrN x
  | .retN => wordRetN
  | .nopN => wordNopN
  | .addspN imm => wordAddspN imm
  | .add d a b => 32768 + d.toNat * 16 + a.toNat * 134217728 + b.toNat * 4194304
  | .sub d a b => 32769 + d.toNat * 16 + a.toNat * 134217728 + b.toNat * 4194304
  | .and d a b => 32770 + d.toNat * 16 + a.toNat * 134217728 + b.toNat * 4194304
  | .or d a b => 32771 + d.toNat * 16 + a.toNat * 134217728 + b.toNat * 4194304
  | .xor d a b => 32772 + d.toNat * 16 + a.toNat * 134217728 + b.toNat * 4194304
  | .andn d a b => 32773 + d.toNat * 16 + a.toNat * 134217728 + b.toNat * 4194304
  | .shl d a b => 32774 + d.toNat * 16 + a.toNat * 134217728 + b.toNat * 4194304
  | .shr d a b => 32775 + d.toNat * 16 + a.toNat * 134217728 + b.toNat * 4194304
  | .sra d a b => 32776 + d.toNat * 16 + a.toNat * 134217728 + b.toNat * 4194304
  | .mul d a b => 32777 + d.toNat * 16 + a.toNat * 134217728 + b.toNat * 4194304
  | .mulh d a b => 32778 + d.toNat * 16 + a.toNat * 134217728 + b.toNat * 4194304
  | .mulhu d a b => 32779 + d.toNat * 16 + a.toNat * 134217728 + b.toNat * 4194304
  | .div d a b => 32780 + d.toNat * 16 + a.toNat * 134217728 + b.toNat * 4194304
  | .divu d a b => 32781 + d.toNat * 16 + a.toNat * 134217728 + b.toNat * 4194304
  | .rem d a b => 32782 + d.toNat * 16 + a.toNat * 134217728 + b.toNat * 4194304
  | .remu d a b => 32783 + d.toNat * 16 + a.toNat * 134217728 + b.toNat * 4194304
  | .slt d a b => 33280 + d.toNat * 16 + a.toNat * 134217728 + b.toNat * 4194304
  | .sltu d a b => 33281 + d.toNat * 16 + a.toNat * 134217728 + b.toNat * 4194304
  | .min d a b => 33282 + d.toNat * 16 + a.toNat * 134217728 + b.toNat * 4194304
  | .max d a b => 33283 + d.toNat * 16 + a.toNat * 134217728 + b.toNat * 4194304
  | .clz d a => 33284 + d.toNat * 16 + a.toNat * 134217728
  | .popc d a => 33285 + d.toNat * 16 + a.toNat * 134217728
  | .addi d a imm => 33792 + d.toNat * 16 + a.toNat * 134217728 + imm.toNat * 65536
  | .andi d a imm => 33793 + d.toNat * 16 + a.toNat * 134217728 + imm.toNat * 65536
  | .ori d a imm => 33794 + d.toNat * 16 + a.toNat * 134217728 + imm.toNat * 65536
  | .xori d a imm => 33795 + d.toNat * 16 + a.toNat * 134217728 + imm.toNat * 65536
  | .slti d a imm => 33796 + d.toNat * 16 + a.toNat * 134217728 + imm.toNat * 65536
  | .sltui d a imm => 33797 + d.toNat * 16 + a.toNat * 134217728 + imm.toNat * 65536
  | .shli d a imm => wordShli d a imm
  | .shri d a imm => wordShri d a imm
  | .srai d a imm => wordSrai d a imm
  | .addFp32 d a b => 34304 + d.toNat * 16 + a.toNat * 134217728 + b.toNat * 4194304
  | .subFp32 d a b => 34305 + d.toNat * 16 + a.toNat * 134217728 + b.toNat * 4194304
  | .mulFp32 d a b => 34306 + d.toNat * 16 + a.toNat * 134217728 + b.toNat * 4194304
  | .divFp32 d a b => 34307 + d.toNat * 16 + a.toNat * 134217728 + b.toNat * 4194304
  | .sqrtFp32 d a => 34308 + d.toNat * 16 + a.toNat * 134217728
  | .minFp32 d a b => 34309 + d.toNat * 16 + a.toNat * 134217728 + b.toNat * 4194304
  | .maxFp32 d a b => 34310 + d.toNat * 16 + a.toNat * 134217728 + b.toNat * 4194304
  | .fmaFp32 d a b c => 34311 + d.toNat * 16 + a.toNat * 134217728 + b.toNat * 4194304 + c.toNat * 131072
  | .seqFp32 d a b => 34312 + d.toNat * 16 + a.toNat * 134217728 + b.toNat * 4194304
  | .sltFp32 d a b => 34313 + d.toNat * 16 + a.toNat * 134217728 + b.toNat * 4194304
  | .cvtI32Fp32 d a => 34314 + d.toNat * 16 + a.toNat * 134217728
  | .cvtFp32I32 d a => 34315 + d.toNat * 16 + a.toNat * 134217728
  | .lui d imm => 36864 + d.toNat * 16 + imm.toNat / 16 * 65536 + imm.toNat % 16
  | .lpc d imm => 37376 + d.toNat * 16 + imm.toNat / 16 * 65536 + imm.toNat % 16
  | .pmk d a b => 37888 + d.toNat * 16 + a.toNat * 134217728 + b.toNat * 4194304
  | .pidx d a => 37889 + d.toNat * 16 + a.toNat * 134217728
  | .poff d a => 37890 + d.toNat * 16 + a.toNat * 134217728
  | .padd d a b => 37891 + d.toNat * 16 + a.toNat * 134217728 + b.toNat * 4194304
  | .bfx d a b imm => wordBfx d a b imm
  | .bfxu d a b imm => wordBfxu d a b imm
  | .bfi d a b imm => wordBfi d a b imm
  | .brEq a b off => 38912 + a.toNat * 16 + b.toNat * 134217728 + off.toNat * 65536
  | .brNe a b off => 38913 + a.toNat * 16 + b.toNat * 134217728 + off.toNat * 65536
  | .brLt a b off => 38914 + a.toNat * 16 + b.toNat * 134217728 + off.toNat * 65536
  | .brGe a b off => 38915 + a.toNat * 16 + b.toNat * 134217728 + off.toNat * 65536
  | .brLtu a b off => 38916 + a.toNat * 16 + b.toNat * 134217728 + off.toNat * 65536
  | .brGeu a b off => 38917 + a.toNat * 16 + b.toNat * 134217728 + off.toNat * 65536
  | .brLtz a off => 38918 + a.toNat * 16 + off.toNat * 65536
  | .brGez a off => 38919 + a.toNat * 16 + off.toNat * 65536
  | .jmp off => 39424 + off.toNat / 16 * 65536 + off.toNat % 16
  | .call d off => 39424 + d.toNat * 16 + off.toNat / 16 * 65536 + off.toNat % 16
  | .jr a imm => 39936 + a.toNat * 134217728 + imm.toNat * 65536
  | .callr d a imm => 39936 + d.toNat * 16 + a.toNat * 134217728 + imm.toNat * 65536
  | .ret => 39937
  | .loop a off => 40448 + a.toNat * 16 + off.toNat * 65536
  | .ldB d b off => 40960 + d.toNat * 16 + b.toNat * 134217728 + off.toNat * 65536
  | .ldBz d b off => 40961 + d.toNat * 16 + b.toNat * 134217728 + off.toNat * 65536
  | .ldH d b off => 40962 + d.toNat * 16 + b.toNat * 134217728 + off.toNat * 65536
  | .ldHz d b off => 40963 + d.toNat * 16 + b.toNat * 134217728 + off.toNat * 65536
  | .ldW d b off => 40964 + d.toNat * 16 + b.toNat * 134217728 + off.toNat * 65536
  | .ldWz d b off => 40965 + d.toNat * 16 + b.toNat * 134217728 + off.toNat * 65536
  | .ldD d b off => 40966 + d.toNat * 16 + b.toNat * 134217728 + off.toNat * 65536
  | .ldDWf d b off => 40967 + d.toNat * 16 + b.toNat * 134217728 + off.toNat * 65536
  | .ldDWfc d b off => 40968 + d.toNat * 16 + b.toNat * 134217728 + off.toNat * 65536
  | .ldDWfHelp d b off => 40969 + d.toNat * 16 + b.toNat * 134217728 + off.toNat * 65536
  | .ldDWfcHelp d b off => 40970 + d.toNat * 16 + b.toNat * 134217728 + off.toNat * 65536
  | .ldDPr d b off => 40971 + d.toNat * 16 + b.toNat * 134217728 + off.toNat * 65536
  | .stB d b off => 41472 + d.toNat * 16 + b.toNat * 134217728 + off.toNat * 65536
  | .stH d b off => 41473 + d.toNat * 16 + b.toNat * 134217728 + off.toNat * 65536
  | .stW d b off => 41474 + d.toNat * 16 + b.toNat * 134217728 + off.toNat * 65536
  | .stD d b off => 41475 + d.toNat * 16 + b.toNat * 134217728 + off.toNat * 65536
  | .stDSf d b off => 41476 + d.toNat * 16 + b.toNat * 134217728 + off.toNat * 65536
  | .stDWe d b off => 41477 + d.toNat * 16 + b.toNat * 134217728 + off.toNat * 65536
  | .ldmD d a b imm => 41984 + d.toNat * 16 + a.toNat * 134217728 + b.toNat * 4194304 + imm.toNat * 65536
  | .stmD d a b imm => 41985 + d.toNat * 16 + a.toNat * 134217728 + b.toNat * 4194304 + imm.toNat * 65536
  | .pset b off => 45056 + b.toNat * 134217728 + off.toNat * 65536
  | .pclr b off => 45057 + b.toNat * 134217728 + off.toNat * 65536
  | .pget d b off => 45058 + d.toNat * 16 + b.toNat * 134217728 + off.toNat * 65536
  | .watch d b off => 45059 + d.toNat * 16 + b.toNat * 134217728 + off.toNat * 65536
  | .unwatch b off => 45060 + b.toNat * 134217728 + off.toNat * 65536
  | .fenceAcqTile => 45568
  | .fenceAcqTower => 45569
  | .fenceAcqPkg => 45570
  | .fenceAcqDom => 45571
  | .fenceAcqWin => 45572
  | .fenceRelTile => 45573
  | .fenceRelTower => 45574
  | .fenceRelPkg => 45575
  | .fenceRelDom => 45576
  | .fenceRelWin => 45577
  | .fenceFullTile => 45578
  | .fenceFullTower => 45579
  | .fenceFullPkg => 45580
  | .fenceFullDom => 45581
  | .fenceFullWin => 45582
  | .amoAdd d a b => 47104 + d.toNat * 16 + a.toNat * 134217728 + b.toNat * 4194304
  | .amoAnd d a b => 47105 + d.toNat * 16 + a.toNat * 134217728 + b.toNat * 4194304
  | .amoOr d a b => 47106 + d.toNat * 16 + a.toNat * 134217728 + b.toNat * 4194304
  | .amoXor d a b => 47107 + d.toNat * 16 + a.toNat * 134217728 + b.toNat * 4194304
  | .amoMin d a b => 47108 + d.toNat * 16 + a.toNat * 134217728 + b.toNat * 4194304
  | .amoMax d a b => 47109 + d.toNat * 16 + a.toNat * 134217728 + b.toNat * 4194304
  | .amoSwap d a b => 47110 + d.toNat * 16 + a.toNat * 134217728 + b.toNat * 4194304
  | .amoCas d a b c => 47111 + d.toNat * 16 + a.toNat * 134217728 + b.toNat * 4194304 + c.toNat * 131072
  | .amoAddW d a b => 47112 + d.toNat * 16 + a.toNat * 134217728 + b.toNat * 4194304
  | .amoAndW d a b => 47113 + d.toNat * 16 + a.toNat * 134217728 + b.toNat * 4194304
  | .amoOrW d a b => 47114 + d.toNat * 16 + a.toNat * 134217728 + b.toNat * 4194304
  | .amoXorW d a b => 47115 + d.toNat * 16 + a.toNat * 134217728 + b.toNat * 4194304
  | .amoMinW d a b => 47116 + d.toNat * 16 + a.toNat * 134217728 + b.toNat * 4194304
  | .amoMaxW d a b => 47117 + d.toNat * 16 + a.toNat * 134217728 + b.toNat * 4194304
  | .amoSwapW d a b => 47118 + d.toNat * 16 + a.toNat * 134217728 + b.toNat * 4194304
  | .amoCasW d a b c => 47119 + d.toNat * 16 + a.toNat * 134217728 + b.toNat * 4194304 + c.toNat * 131072
  | .amoAddFp32 d a b => 47616 + d.toNat * 16 + a.toNat * 134217728 + b.toNat * 4194304
  | .amoMaxFp32 d a b => 47617 + d.toNat * 16 + a.toNat * 134217728 + b.toNat * 4194304
  | .rdxInit a => 48128 + a.toNat * 134217728
  | .rdxAddFp32 a b => 48129 + a.toNat * 134217728 + b.toNat * 4194304
  | .rdxAddBf16 a b => 48130 + a.toNat * 134217728 + b.toNat * 4194304
  | .rdxRead d a => 48131 + d.toNat * 16 + a.toNat * 134217728
  | .spawn a => 49152 + a.toNat * 134217728
  | .spawnT a b => 49153 + a.toNat * 134217728 + b.toNat * 4194304
  | .tdone a => 49154 + a.toNat * 134217728
  | .tyield => 49155
  | .texit => 49156
  | .help a => 49157 + a.toNat * 134217728
  | .dqlen d => 49158 + d.toNat * 16
  | .send d a b c => 49664 + d.toNat * 16 + a.toNat * 134217728 + b.toNat * 4194304 + c.toNat * 131072
  | .sendMc d a b c => wordSendMc d a b c
  | .sendMb d a b => 49666 + d.toNat * 16 + a.toNat * 134217728 + b.toNat * 4194304
  | .sendMbF d a b => 49667 + d.toNat * 16 + a.toNat * 134217728 + b.toNat * 4194304
  | .msgret => 49668
  | .gbar d => 50176 + d.toNat * 16
  | .garrive => 50177
  | .gwait d => 50178 + d.toNat * 16
  | .gquery d a => 50179 + d.toNat * 16 + a.toNat * 134217728
  | .gleave => 50180
  | .sborrow d => 50688 + d.toNat * 16
  | .sreturn a => 50689 + a.toNat * 134217728
  | .xmovTo a b imm => wordXmovTo a b imm
  | .xmovFrom d a imm => wordXmovFrom d a imm
  | .xmovmTo d a b imm => wordXmovmTo d a b imm
  | .xmovmFrom d a b imm => wordXmovmFrom d a b imm
  | .xmovxTo a b imm => wordXmovxTo a b imm
  | .xmovxFrom d a imm => wordXmovxFrom d a imm
  | .qput a imm => wordQput a imm
  | .qget d imm => wordQget d imm
  | .qputNb d a imm => wordQputNb d a imm
  | .qgetNb d imm => wordQgetNb d imm
  | .qlen d imm => wordQlen d imm
  | .vaddFp32 d a b => 52224 + d.toNat * 8 + a.toNat * 67108864 + b.toNat * 1048576
  | .vsubFp32 d a b => 117760 + d.toNat * 8 + a.toNat * 67108864 + b.toNat * 1048576
  | .vmulFp32 d a b => 183296 + d.toNat * 8 + a.toNat * 67108864 + b.toNat * 1048576
  | .vdivFp32 d a b => 248832 + d.toNat * 8 + a.toNat * 67108864 + b.toNat * 1048576
  | .vfmaFp32 d a b => 314368 + d.toNat * 8 + a.toNat * 67108864 + b.toNat * 1048576
  | .vminFp32 d a b => 379904 + d.toNat * 8 + a.toNat * 67108864 + b.toNat * 1048576
  | .vmaxFp32 d a b => 445440 + d.toNat * 8 + a.toNat * 67108864 + b.toNat * 1048576
  | .vabsFp32 d a => 510976 + d.toNat * 8 + a.toNat * 67108864
  | .vnegFp32 d a => 576512 + d.toNat * 8 + a.toNat * 67108864
  | .vreluFp32 d a => 642048 + d.toNat * 8 + a.toNat * 67108864
  | .vaddbFp32 d a b => wordVaddbFp32 d a b
  | .vmulbFp32 d a b => wordVmulbFp32 d a b
  | .vaddBf16 d a b => 52736 + d.toNat * 8 + a.toNat * 67108864 + b.toNat * 1048576
  | .vsubBf16 d a b => 118272 + d.toNat * 8 + a.toNat * 67108864 + b.toNat * 1048576
  | .vmulBf16 d a b => 183808 + d.toNat * 8 + a.toNat * 67108864 + b.toNat * 1048576
  | .vfmaBf16 d a b => 249344 + d.toNat * 8 + a.toNat * 67108864 + b.toNat * 1048576
  | .vminBf16 d a b => 314880 + d.toNat * 8 + a.toNat * 67108864 + b.toNat * 1048576
  | .vmaxBf16 d a b => 380416 + d.toNat * 8 + a.toNat * 67108864 + b.toNat * 1048576
  | .vreluBf16 d a => 445952 + d.toNat * 8 + a.toNat * 67108864
  | .vaddI32 d a b => 53248 + d.toNat * 8 + a.toNat * 67108864 + b.toNat * 1048576
  | .vsubI32 d a b => 118784 + d.toNat * 8 + a.toNat * 67108864 + b.toNat * 1048576
  | .vmulI32 d a b => 184320 + d.toNat * 8 + a.toNat * 67108864 + b.toNat * 1048576
  | .vminI32 d a b => 249856 + d.toNat * 8 + a.toNat * 67108864 + b.toNat * 1048576
  | .vmaxI32 d a b => 315392 + d.toNat * 8 + a.toNat * 67108864 + b.toNat * 1048576
  | .vandI32 d a b => 380928 + d.toNat * 8 + a.toNat * 67108864 + b.toNat * 1048576
  | .vorI32 d a b => 446464 + d.toNat * 8 + a.toNat * 67108864 + b.toNat * 1048576
  | .vxorI32 d a b => 512000 + d.toNat * 8 + a.toNat * 67108864 + b.toNat * 1048576
  | .vshlI32 d a b => 577536 + d.toNat * 8 + a.toNat * 67108864 + b.toNat * 1048576
  | .vsraI32 d a b => 643072 + d.toNat * 8 + a.toNat * 67108864 + b.toNat * 1048576
  | .vreluI32 d a => 708608 + d.toNat * 8 + a.toNat * 67108864
  | .vexpFp32 d a => 53760 + d.toNat * 8 + a.toNat * 67108864
  | .vlogFp32 d a => 119296 + d.toNat * 8 + a.toNat * 67108864
  | .vrcpFp32 d a => 184832 + d.toNat * 8 + a.toNat * 67108864
  | .vrsqrtFp32 d a => 250368 + d.toNat * 8 + a.toNat * 67108864
  | .vsqrtFp32 d a => 315904 + d.toNat * 8 + a.toNat * 67108864
  | .vtanhFp32 d a => 381440 + d.toNat * 8 + a.toNat * 67108864
  | .vsigmFp32 d a => 446976 + d.toNat * 8 + a.toNat * 67108864
  | .vcmpEqFp32 d a b => 54272 + d.toNat * 8 + a.toNat * 67108864 + b.toNat * 1048576
  | .vcmpLtFp32 d a b => 119808 + d.toNat * 8 + a.toNat * 67108864 + b.toNat * 1048576
  | .vcmpLeFp32 d a b => 185344 + d.toNat * 8 + a.toNat * 67108864 + b.toNat * 1048576
  | .vcmpEqI32 d a b => 250880 + d.toNat * 8 + a.toNat * 67108864 + b.toNat * 1048576
  | .vcmpLtI32 d a b => 316416 + d.toNat * 8 + a.toNat * 67108864 + b.toNat * 1048576
  | .vsel d a b => 381952 + d.toNat * 8 + a.toNat * 67108864 + b.toNat * 1048576
  | .vsumFp32 d a => 54784 + d.toNat * 8 + a.toNat * 67108864
  | .vsumI32 d a => 120320 + d.toNat * 8 + a.toNat * 67108864
  | .vmaxrFp32 d a => 185856 + d.toNat * 8 + a.toNat * 67108864
  | .vbcast d a => wordVbcast d a
  | .vget d a b => wordVget d a b
  | .vset d a b => wordVset d a b
  | .vcvtBf16Fp32 d a b => 55296 + d.toNat * 8 + a.toNat * 67108864 + b.toNat * 1048576
  | .vcvtFp32Bf16 d a b => wordVcvtFp32Bf16 d a b
  | .vcvtI32Fp32 d a => 186368 + d.toNat * 8 + a.toNat * 67108864
  | .vcvtFp32I32 d a => 251904 + d.toNat * 8 + a.toNat * 67108864
  | .vmov d a => 317440 + d.toNat * 8 + a.toNat * 67108864
  | .vld d a b => wordVld d a b
  | .vst d a b => wordVst d a b
  | .abind d => wordAbind d
  | .aunbind => 56321
  | .atypeFp32 d => wordAtypeFp32 d
  | .atypeI32 d => wordAtypeI32 d
  | .atypeBf16 d => wordAtypeBf16 d
  | .azero d => wordAzero d
  | .aqlen d => 56326 + d.toNat * 16
  | .aver d a => wordAver d a
  | .mma d a => wordMma d a
  | .mmaSp6 d a => wordMmaSp6 d a
  | .mmaSp12 d a => wordMmaSp12 d a
  | .mmaZ d a => wordMmaZ d a
  | .await d a => wordAwait d a
  | .drain d a b => wordDrain d a b
  | .drainAdd d a b => wordDrainAdd d a b
  | .acopy d a b => wordAcopy d a b
  | .cpy a b => wordCpy a b
  | .cpyMm d a b imm => wordCpyMm d a b imm
  | .cpyMc a b => wordCpyMc a b
  | .cpyMmMc d a b imm => wordCpyMmMc d a b imm
  | .cpyAdd a b => wordCpyAdd a b
  | .cpyFill a b => wordCpyFill a b
  | .cpyKeep a b => wordCpyKeep a b
  | .cpySend d a b => wordCpySend d a b
  | .cpyCancel d b => 58376 + d.toNat * 16 + b.toNat * 4194304
  | .cpyQuery d b => 58377 + d.toNat * 16 + b.toNat * 4194304
  | .xset d a b => wordXset d a b
  | .xgetLo d a => wordXgetLo d a
  | .xgetHi d a => wordXgetHi d a
  | .xld d a imm => wordXld d a imm
  | .xst d a imm => wordXst d a imm
  | .xclr d => wordXclr d
  | .trap imm => 60416 + imm.toNat * 65536
  | .brk imm => 60417 + imm.toNat * 65536
  | .tback => 60418
  | .nap a => 60419 + a.toNat * 134217728
  | .ifence => 60420
  | .cget d imm => wordCget d imm
  | .cset a imm => wordCset a imm
  | .cseti b imm => wordCseti b imm
  | .cclr d a imm => wordCclr d a imm
  | .cbis d a imm => wordCbis d a imm
  | .hcget d a => wordHcget d a
  | .hcset a b => wordHcset a b
  | .hstart d a b c => wordHstart d a b c
  | .hkill d a => wordHkill d a
  | .hrec a => wordHrec a
  | .hquiesce a => wordHquiesce a
  | .hpurge d a => wordHpurge d a
  | .hcopy a b c => wordHcopy a b c
  | .carouselIssue _ => 0
  | .escalation _ => 0
  | .serviceCall _ => 0
  | .sealCreate _ _ _ _ => 0
  | .sealOffer _ => 0
  | .sealJoin _ _ => 0
  | .sealRights _ => 0
  | .sealLeave _ => 0
  | .sealRekey _ => 0
  | .sealImport _ _ => 0
  | .sealExport _ _ => 0
  | .loftSetFormat _ => 0
  | .loftFormatApply _ => 0
  | .napExpiry _ => 0
  | .pageWalk _ _ => 0
  | .pageRequest _ _ => 0
  | .pageGrant _ _ => 0
  | .pageRequestFail _ => 0
  | .pageRequestTimeout _ => 0
  | .rewalkReport _ _ => 0
  | .portWake _ _ _ _ => 0
  | .wakeHoldExpiry _ => 0
  | .shootdown _ => 0
  | .shootdownAck _ => 0
  | .arriveLoad _ => 0
  | .arriveStore _ => 0
  | .arriveWf _ => 0
  | .arriveWfc _ => 0
  | .arriveWe _ => 0
  | .arriveSf _ => 0
  | .arrivePset _ => 0
  | .arrivePclr _ => 0
  | .arriveHelp _ => 0
  | .arriveProbe _ => 0
  | .arrivePget _ => 0
  | .arriveWatch _ => 0
  | .arriveUnwatch _ => 0
  | .arriveAmo _ => 0
  | .arriveRdxAdd _ => 0
  | .rdxSlotRead _ _ => 0
  | .rdxSum _ => 0
  | .refusalRetry _ => 0
  | .deadlineCheck => 0
  | .cancel _ => 0
  | .reply _ => 0
  | .quarantineLift _ => 0
  | .rekeySweepLine _ => 0
  | .rekeyComplete _ => 0
  | .keyErase _ => 0
  | .matrixStart _ => 0
  | .matrixComplete _ => 0
  | .staleCommand _ => 0
  | .awaitTimeout _ => 0
  | .drainRun _ => 0
  | .copyStart _ => 0
  | .copyElement _ _ => 0
  | .copyComplete _ _ => 0
  | .followOnReady _ _ _ => 0
  | .copyResume _ _ => 0
  | .pop _ => 0
  | .frameStart _ => 0
  | .stealAttempt _ => 0
  | .stealAnswer _ => 0
  | .stealBackoff _ _ => 0
  | .stateMark _ => 0
  | .helpProcedure _ => 0
  | .spawnRelease _ => 0
  | .dequeReserve _ => 0
  | .messageArrive _ => 0
  | .handlerStart _ => 0
  | .mailboxArrive _ => 0
  | .gangMemberStart _ => 0
  | .barrierReport _ => 0
  | .barrierRelease _ => 0
  | .slotRotation _ _ => 0
  | .slotSwap _ => 0
  | .loftHandover _ _ => 0
  | .launchAcquire _ => 0
  | .launchDone _ => 0
  | .operatingPointChange _ _ => 0
  | .powerThrottle _ => 0
  | .thermalThrottle _ => 0
  | .thermalReset => 0
  | .contextStateError _ => 0
  | .engineOutOfService _ _ => 0
  | .dramParityAlert _ _ _ _ => 0
  | .sparingStart _ _ => 0
  | .sparingRowCopy _ => 0
  | .bankRetire _ _ => 0
  | .flitResend _ _ => 0
  | .endToEndResend _ => 0
  | .channelRetire _ => 0
  | .heartbeatSend _ => 0
  | .heartbeatReceive _ _ _ => 0
  | .judgement _ _ => 0
  | .fence _ => 0
  | .frameRecovery _ => 0
  | .selfTestEnd _ _ => 0
  | .bar2PlainWrite _ _ _ _ => 0
  | .bar2PlainRead _ _ _ => 0
  | .bar2FillWrite _ _ _ _ => 0
  | .bar2StatusRead _ _ => 0
  | .bar2ReservedAlias _ _ _ => 0
  | .mgmtRegisterWrite _ _ _ _ => 0
  | .rmownClaim _ => 0
  | .rmownHandover _ _ => 0
  | .rmownAccept _ => 0
  | .rmownCancel _ => 0
  | .handoverTimeout => 0
  | .i3cHeartbeat => 0
  | .ownerLost => 0
  | .ownerReturn => 0
  | .electionTimeout => 0
  | .vfbindWrite _ _ _ => 0
  | .vfEnableClear _ => 0
  | .attestation _ => 0
  | .eqheadWrite _ _ => 0
  | .errorRecordWrite => 0
  | .icoalTimer _ _ => 0
  | .msixUnmask _ _ => 0
  | .firmwareBoot _ => 0
  | .powerOn => 0
  | .pcieFundamentalReset _ => 0
  | .ownerResetRequest _ => 0
  | .mcResetRequest => 0
  | .supplyFault => 0
  | .firmwareWatchdog => 0
  | .tileReset _ _ => 0
  | .bufferEntryFetch _ _ => 0
  | .engineSelfTestEnd _ => 0
  | .vfEnableSet _ => 0

/-- Length of an instruction in bytes (R178); 0 for the device's own steps. -/
def instrLen : Instr → Nat
  | .mvN _ _ => 2
  | .liN _ _ => 2
  | .addN _ _ => 2
  | .addiN _ _ => 2
  | .subN _ _ => 2
  | .shliN _ _ => 2
  | .andN _ _ => 2
  | .shriN _ _ => 2
  | .orN _ _ => 2
  | .sraiN _ _ => 2
  | .xorN _ _ => 2
  | .andiN _ _ => 2
  | .ldN _ _ => 2
  | .ldspN _ _ => 2
  | .stN _ _ => 2
  | .stspN _ _ => 2
  | .beqzN _ _ => 2
  | .bnezN _ _ => 2
  | .jN _ => 2
  | .jrN _ => 2
  | .callrN _ => 2
  | .retN => 2
  | .nopN => 2
  | .addspN _ => 2
  | .add _ _ _ => 4
  | .sub _ _ _ => 4
  | .and _ _ _ => 4
  | .or _ _ _ => 4
  | .xor _ _ _ => 4
  | .andn _ _ _ => 4
  | .shl _ _ _ => 4
  | .shr _ _ _ => 4
  | .sra _ _ _ => 4
  | .mul _ _ _ => 4
  | .mulh _ _ _ => 4
  | .mulhu _ _ _ => 4
  | .div _ _ _ => 4
  | .divu _ _ _ => 4
  | .rem _ _ _ => 4
  | .remu _ _ _ => 4
  | .slt _ _ _ => 4
  | .sltu _ _ _ => 4
  | .min _ _ _ => 4
  | .max _ _ _ => 4
  | .clz _ _ => 4
  | .popc _ _ => 4
  | .addi _ _ _ => 4
  | .andi _ _ _ => 4
  | .ori _ _ _ => 4
  | .xori _ _ _ => 4
  | .slti _ _ _ => 4
  | .sltui _ _ _ => 4
  | .shli _ _ _ => 4
  | .shri _ _ _ => 4
  | .srai _ _ _ => 4
  | .addFp32 _ _ _ => 4
  | .subFp32 _ _ _ => 4
  | .mulFp32 _ _ _ => 4
  | .divFp32 _ _ _ => 4
  | .sqrtFp32 _ _ => 4
  | .minFp32 _ _ _ => 4
  | .maxFp32 _ _ _ => 4
  | .fmaFp32 _ _ _ _ => 4
  | .seqFp32 _ _ _ => 4
  | .sltFp32 _ _ _ => 4
  | .cvtI32Fp32 _ _ => 4
  | .cvtFp32I32 _ _ => 4
  | .lui _ _ => 4
  | .lpc _ _ => 4
  | .pmk _ _ _ => 4
  | .pidx _ _ => 4
  | .poff _ _ => 4
  | .padd _ _ _ => 4
  | .bfx _ _ _ _ => 4
  | .bfxu _ _ _ _ => 4
  | .bfi _ _ _ _ => 4
  | .brEq _ _ _ => 4
  | .brNe _ _ _ => 4
  | .brLt _ _ _ => 4
  | .brGe _ _ _ => 4
  | .brLtu _ _ _ => 4
  | .brGeu _ _ _ => 4
  | .brLtz _ _ => 4
  | .brGez _ _ => 4
  | .jmp _ => 4
  | .call _ _ => 4
  | .jr _ _ => 4
  | .callr _ _ _ => 4
  | .ret => 4
  | .loop _ _ => 4
  | .ldB _ _ _ => 4
  | .ldBz _ _ _ => 4
  | .ldH _ _ _ => 4
  | .ldHz _ _ _ => 4
  | .ldW _ _ _ => 4
  | .ldWz _ _ _ => 4
  | .ldD _ _ _ => 4
  | .ldDWf _ _ _ => 4
  | .ldDWfc _ _ _ => 4
  | .ldDWfHelp _ _ _ => 4
  | .ldDWfcHelp _ _ _ => 4
  | .ldDPr _ _ _ => 4
  | .stB _ _ _ => 4
  | .stH _ _ _ => 4
  | .stW _ _ _ => 4
  | .stD _ _ _ => 4
  | .stDSf _ _ _ => 4
  | .stDWe _ _ _ => 4
  | .ldmD _ _ _ _ => 4
  | .stmD _ _ _ _ => 4
  | .pset _ _ => 4
  | .pclr _ _ => 4
  | .pget _ _ _ => 4
  | .watch _ _ _ => 4
  | .unwatch _ _ => 4
  | .fenceAcqTile => 4
  | .fenceAcqTower => 4
  | .fenceAcqPkg => 4
  | .fenceAcqDom => 4
  | .fenceAcqWin => 4
  | .fenceRelTile => 4
  | .fenceRelTower => 4
  | .fenceRelPkg => 4
  | .fenceRelDom => 4
  | .fenceRelWin => 4
  | .fenceFullTile => 4
  | .fenceFullTower => 4
  | .fenceFullPkg => 4
  | .fenceFullDom => 4
  | .fenceFullWin => 4
  | .amoAdd _ _ _ => 4
  | .amoAnd _ _ _ => 4
  | .amoOr _ _ _ => 4
  | .amoXor _ _ _ => 4
  | .amoMin _ _ _ => 4
  | .amoMax _ _ _ => 4
  | .amoSwap _ _ _ => 4
  | .amoCas _ _ _ _ => 4
  | .amoAddW _ _ _ => 4
  | .amoAndW _ _ _ => 4
  | .amoOrW _ _ _ => 4
  | .amoXorW _ _ _ => 4
  | .amoMinW _ _ _ => 4
  | .amoMaxW _ _ _ => 4
  | .amoSwapW _ _ _ => 4
  | .amoCasW _ _ _ _ => 4
  | .amoAddFp32 _ _ _ => 4
  | .amoMaxFp32 _ _ _ => 4
  | .rdxInit _ => 4
  | .rdxAddFp32 _ _ => 4
  | .rdxAddBf16 _ _ => 4
  | .rdxRead _ _ => 4
  | .spawn _ => 4
  | .spawnT _ _ => 4
  | .tdone _ => 4
  | .tyield => 4
  | .texit => 4
  | .help _ => 4
  | .dqlen _ => 4
  | .send _ _ _ _ => 4
  | .sendMc _ _ _ _ => 4
  | .sendMb _ _ _ => 4
  | .sendMbF _ _ _ => 4
  | .msgret => 4
  | .gbar _ => 4
  | .garrive => 4
  | .gwait _ => 4
  | .gquery _ _ => 4
  | .gleave => 4
  | .sborrow _ => 4
  | .sreturn _ => 4
  | .xmovTo _ _ _ => 4
  | .xmovFrom _ _ _ => 4
  | .xmovmTo _ _ _ _ => 4
  | .xmovmFrom _ _ _ _ => 4
  | .xmovxTo _ _ _ => 4
  | .xmovxFrom _ _ _ => 4
  | .qput _ _ => 4
  | .qget _ _ => 4
  | .qputNb _ _ _ => 4
  | .qgetNb _ _ => 4
  | .qlen _ _ => 4
  | .vaddFp32 _ _ _ => 4
  | .vsubFp32 _ _ _ => 4
  | .vmulFp32 _ _ _ => 4
  | .vdivFp32 _ _ _ => 4
  | .vfmaFp32 _ _ _ => 4
  | .vminFp32 _ _ _ => 4
  | .vmaxFp32 _ _ _ => 4
  | .vabsFp32 _ _ => 4
  | .vnegFp32 _ _ => 4
  | .vreluFp32 _ _ => 4
  | .vaddbFp32 _ _ _ => 4
  | .vmulbFp32 _ _ _ => 4
  | .vaddBf16 _ _ _ => 4
  | .vsubBf16 _ _ _ => 4
  | .vmulBf16 _ _ _ => 4
  | .vfmaBf16 _ _ _ => 4
  | .vminBf16 _ _ _ => 4
  | .vmaxBf16 _ _ _ => 4
  | .vreluBf16 _ _ => 4
  | .vaddI32 _ _ _ => 4
  | .vsubI32 _ _ _ => 4
  | .vmulI32 _ _ _ => 4
  | .vminI32 _ _ _ => 4
  | .vmaxI32 _ _ _ => 4
  | .vandI32 _ _ _ => 4
  | .vorI32 _ _ _ => 4
  | .vxorI32 _ _ _ => 4
  | .vshlI32 _ _ _ => 4
  | .vsraI32 _ _ _ => 4
  | .vreluI32 _ _ => 4
  | .vexpFp32 _ _ => 4
  | .vlogFp32 _ _ => 4
  | .vrcpFp32 _ _ => 4
  | .vrsqrtFp32 _ _ => 4
  | .vsqrtFp32 _ _ => 4
  | .vtanhFp32 _ _ => 4
  | .vsigmFp32 _ _ => 4
  | .vcmpEqFp32 _ _ _ => 4
  | .vcmpLtFp32 _ _ _ => 4
  | .vcmpLeFp32 _ _ _ => 4
  | .vcmpEqI32 _ _ _ => 4
  | .vcmpLtI32 _ _ _ => 4
  | .vsel _ _ _ => 4
  | .vsumFp32 _ _ => 4
  | .vsumI32 _ _ => 4
  | .vmaxrFp32 _ _ => 4
  | .vbcast _ _ => 4
  | .vget _ _ _ => 4
  | .vset _ _ _ => 4
  | .vcvtBf16Fp32 _ _ _ => 4
  | .vcvtFp32Bf16 _ _ _ => 4
  | .vcvtI32Fp32 _ _ => 4
  | .vcvtFp32I32 _ _ => 4
  | .vmov _ _ => 4
  | .vld _ _ _ => 4
  | .vst _ _ _ => 4
  | .abind _ => 4
  | .aunbind => 4
  | .atypeFp32 _ => 4
  | .atypeI32 _ => 4
  | .atypeBf16 _ => 4
  | .azero _ => 4
  | .aqlen _ => 4
  | .aver _ _ => 4
  | .mma _ _ => 4
  | .mmaSp6 _ _ => 4
  | .mmaSp12 _ _ => 4
  | .mmaZ _ _ => 4
  | .await _ _ => 4
  | .drain _ _ _ => 4
  | .drainAdd _ _ _ => 4
  | .acopy _ _ _ => 4
  | .cpy _ _ => 4
  | .cpyMm _ _ _ _ => 4
  | .cpyMc _ _ => 4
  | .cpyMmMc _ _ _ _ => 4
  | .cpyAdd _ _ => 4
  | .cpyFill _ _ => 4
  | .cpyKeep _ _ => 4
  | .cpySend _ _ _ => 4
  | .cpyCancel _ _ => 4
  | .cpyQuery _ _ => 4
  | .xset _ _ _ => 4
  | .xgetLo _ _ => 4
  | .xgetHi _ _ => 4
  | .xld _ _ _ => 4
  | .xst _ _ _ => 4
  | .xclr _ => 4
  | .trap _ => 4
  | .brk _ => 4
  | .tback => 4
  | .nap _ => 4
  | .ifence => 4
  | .cget _ _ => 4
  | .cset _ _ => 4
  | .cseti _ _ => 4
  | .cclr _ _ _ => 4
  | .cbis _ _ _ => 4
  | .hcget _ _ => 4
  | .hcset _ _ => 4
  | .hstart _ _ _ _ => 4
  | .hkill _ _ => 4
  | .hrec _ => 4
  | .hquiesce _ => 4
  | .hpurge _ _ => 4
  | .hcopy _ _ _ => 4
  | .carouselIssue _ => 0
  | .escalation _ => 0
  | .serviceCall _ => 0
  | .sealCreate _ _ _ _ => 0
  | .sealOffer _ => 0
  | .sealJoin _ _ => 0
  | .sealRights _ => 0
  | .sealLeave _ => 0
  | .sealRekey _ => 0
  | .sealImport _ _ => 0
  | .sealExport _ _ => 0
  | .loftSetFormat _ => 0
  | .loftFormatApply _ => 0
  | .napExpiry _ => 0
  | .pageWalk _ _ => 0
  | .pageRequest _ _ => 0
  | .pageGrant _ _ => 0
  | .pageRequestFail _ => 0
  | .pageRequestTimeout _ => 0
  | .rewalkReport _ _ => 0
  | .portWake _ _ _ _ => 0
  | .wakeHoldExpiry _ => 0
  | .shootdown _ => 0
  | .shootdownAck _ => 0
  | .arriveLoad _ => 0
  | .arriveStore _ => 0
  | .arriveWf _ => 0
  | .arriveWfc _ => 0
  | .arriveWe _ => 0
  | .arriveSf _ => 0
  | .arrivePset _ => 0
  | .arrivePclr _ => 0
  | .arriveHelp _ => 0
  | .arriveProbe _ => 0
  | .arrivePget _ => 0
  | .arriveWatch _ => 0
  | .arriveUnwatch _ => 0
  | .arriveAmo _ => 0
  | .arriveRdxAdd _ => 0
  | .rdxSlotRead _ _ => 0
  | .rdxSum _ => 0
  | .refusalRetry _ => 0
  | .deadlineCheck => 0
  | .cancel _ => 0
  | .reply _ => 0
  | .quarantineLift _ => 0
  | .rekeySweepLine _ => 0
  | .rekeyComplete _ => 0
  | .keyErase _ => 0
  | .matrixStart _ => 0
  | .matrixComplete _ => 0
  | .staleCommand _ => 0
  | .awaitTimeout _ => 0
  | .drainRun _ => 0
  | .copyStart _ => 0
  | .copyElement _ _ => 0
  | .copyComplete _ _ => 0
  | .followOnReady _ _ _ => 0
  | .copyResume _ _ => 0
  | .pop _ => 0
  | .frameStart _ => 0
  | .stealAttempt _ => 0
  | .stealAnswer _ => 0
  | .stealBackoff _ _ => 0
  | .stateMark _ => 0
  | .helpProcedure _ => 0
  | .spawnRelease _ => 0
  | .dequeReserve _ => 0
  | .messageArrive _ => 0
  | .handlerStart _ => 0
  | .mailboxArrive _ => 0
  | .gangMemberStart _ => 0
  | .barrierReport _ => 0
  | .barrierRelease _ => 0
  | .slotRotation _ _ => 0
  | .slotSwap _ => 0
  | .loftHandover _ _ => 0
  | .launchAcquire _ => 0
  | .launchDone _ => 0
  | .operatingPointChange _ _ => 0
  | .powerThrottle _ => 0
  | .thermalThrottle _ => 0
  | .thermalReset => 0
  | .contextStateError _ => 0
  | .engineOutOfService _ _ => 0
  | .dramParityAlert _ _ _ _ => 0
  | .sparingStart _ _ => 0
  | .sparingRowCopy _ => 0
  | .bankRetire _ _ => 0
  | .flitResend _ _ => 0
  | .endToEndResend _ => 0
  | .channelRetire _ => 0
  | .heartbeatSend _ => 0
  | .heartbeatReceive _ _ _ => 0
  | .judgement _ _ => 0
  | .fence _ => 0
  | .frameRecovery _ => 0
  | .selfTestEnd _ _ => 0
  | .bar2PlainWrite _ _ _ _ => 0
  | .bar2PlainRead _ _ _ => 0
  | .bar2FillWrite _ _ _ _ => 0
  | .bar2StatusRead _ _ => 0
  | .bar2ReservedAlias _ _ _ => 0
  | .mgmtRegisterWrite _ _ _ _ => 0
  | .rmownClaim _ => 0
  | .rmownHandover _ _ => 0
  | .rmownAccept _ => 0
  | .rmownCancel _ => 0
  | .handoverTimeout => 0
  | .i3cHeartbeat => 0
  | .ownerLost => 0
  | .ownerReturn => 0
  | .electionTimeout => 0
  | .vfbindWrite _ _ _ => 0
  | .vfEnableClear _ => 0
  | .attestation _ => 0
  | .eqheadWrite _ _ => 0
  | .errorRecordWrite => 0
  | .icoalTimer _ _ => 0
  | .msixUnmask _ _ => 0
  | .firmwareBoot _ => 0
  | .powerOn => 0
  | .pcieFundamentalReset _ => 0
  | .ownerResetRequest _ => 0
  | .mcResetRequest => 0
  | .supplyFault => 0
  | .firmwareWatchdog => 0
  | .tileReset _ _ => 0
  | .bufferEntryFetch _ _ => 0
  | .engineSelfTestEnd _ => 0
  | .vfEnableSet _ => 0

/-- The bytes of an instruction as memory holds them. -/
def encodeBytes (i : Instr) : List Byte := bytesOf (encode i) (instrLen i)

end

end Sys2Proof
end

