-- ==== Sys2Proof/Machine/Map.lean ====
section
/-! DEFINITION. Sparse maps from numbers: a list of (key, value) pairs in one canonical form, keys strictly rising and no
entry equal to what an unlisted key reads as. Memory, tags, register files, tiles and tables are all held so: equal contents
are equal data. -/

namespace Sys2Proof.Machine

/-- A sparse map. What an unlisted key reads as is a function given at each use. -/
abbrev Map (β : Type) := List (Nat × β)

/-- The value at a key; an unlisted key reads as `d k`. -/
def Map.get {β : Type} (d : Nat → β) : Map β → Nat → β
  | [], k => d k
  | (a, v) :: m, k => if a = k then v else Map.get d m k

/-- The map with every entry of a key removed. -/
def Map.erase {β : Type} : Map β → Nat → Map β
  | [], _ => []
  | (a, v) :: m, k => if a = k then Map.erase m k else (a, v) :: Map.erase m k

/-- The map with an entry put before the first larger key. -/
def Map.insert {β : Type} : Map β → Nat → β → Map β
  | [], k, v => [(k, v)]
  | (a, w) :: m, k, v => if k < a then (k, v) :: (a, w) :: m else (a, w) :: Map.insert m k v

/-- The map with `v` at key `k`. Writing what an unlisted key reads as removes the entry. -/
def Map.set {β : Type} [DecidableEq β] (d : Nat → β) (m : Map β) (k : Nat) (v : β) : Map β :=
  if v = d k then Map.erase m k else Map.insert (Map.erase m k) k v

/-- Every key of the map is above `b` (or there is no bound), keys rise strictly, and no entry holds what an unlisted key
reads as. -/
def Map.wfAbove {β : Type} [DecidableEq β] (d : Nat → β) : Option Nat → Map β → Bool
  | _, [] => true
  | b, (a, v) :: m =>
    (match b with
      | none => true
      | some x => decide (x < a)) && decide (v ≠ d a) && Map.wfAbove d (some a) m

/-- The canonical form. -/
def Map.wf {β : Type} [DecidableEq β] (d : Nat → β) (m : Map β) : Bool := Map.wfAbove d none m

end Sys2Proof.Machine
end

