-- ==== Sys2Proof/Machine/State.lean ====
section
/-! DEFINITION. The state of one Ndestad package as plain data: the contexts of its tiles, each tile's units, the tagged
memory of the load-store domain, the references and messages in flight, the firmware-held tables, the host side, and the
agenda of what other agents and the outside world do next. -/

namespace Sys2Proof.Machine

open Sys2Proof (Word Byte Elem Instr)

/-- A 64-bit value with its poison flag (R185). -/
structure GVal where
  v : Word := 0
  p : Bool := false
  deriving DecidableEq, Repr

/-- The tag bits of a word: presence, watch (R61) and the poison flag (R220). -/
structure Tag where
  full : Bool := true
  watched : Bool := false
  poison : Bool := false
  deriving DecidableEq, Repr

/-- The operations of an atomic (R229, R231). -/
inductive AmoOp where
  | add | and | or | xor | min | max | swap | cas | addFp32 | maxFp32
  deriving DecidableEq, Repr

/-- What a reference does at its home (R62, R66, R72, R76, R229, R234, R249). -/
inductive MemOp where
  | load (width : Nat) (sext : Bool)
  | store (width : Nat)
  | wf | wfc | we | sf | pset | pclr
  | help (clear : Bool)
  | probe | pget
  | watch (type : BitVec 8)
  | unwatch
  | amo (op : AmoOp) (width : Nat)
  | rdxAdd | rdxRead
  | rowLoad (id : Nat)              -- one word of vld number `id` (R273)
  | rowStore (n : Nat)              -- `n` element bytes of vst (R273)
  | mailbox (quiet : Bool)          -- send.mb, send.mb.f
  | claim                           -- the deque unit's cas of a state word from UNSTARTED to RUNNING (R159)
  | spawn (tile part entry : Nat)   -- the release part of spawn (R238)
  | arrive (tile obj : Nat)         -- a barrier arrival, a release at dom (R251)
  deriving DecidableEq, Repr

/-- Where the page request stands that a unit waits for (R57): not answered, answered and not looked up again, or failed. -/
inductive HoldState where
  | waits | woken | failed
  deriving DecidableEq, Repr

/-- A page that a deque unit, a mark, the ring store of a spawn, a re-key or a seal call waits for at a tile's port (R54, R57). -/
structure Hold where
  tile : Nat
  part : Nat
  idx : Nat
  page : Nat
  st : HoldState := .waits
  deriving DecidableEq, Repr

/-- A reference on its way to its home (R95). `slot` is 0–511 for a context, 512 for a unit of the tile, 513 for a
bank-originated request (R65). `dest` lists the register keys that the answer fills: g n is n, half h of e n is 32 + 2n + h. -/
structure Req where
  id : Nat
  src : Nat                -- tile
  slot : Nat
  op : MemOp
  dpa : Nat                -- the home word or bytes, as a device physical address (R41)
  ptr : Word               -- the pointer as the program named it
  val : GVal := {}
  cmp : GVal := {}
  dest : List Nat := []
  tenant : Nat := 0
  part : Nat := 0
  win : Bool := false      -- a window access (R98)
  rel : Bool := false      -- a release (R99)
  blocking : Bool := false -- R96
  len : Nat := 4           -- length of the instruction, to go on after it
  deadline : Nat := 0      -- c.timeout at issue (R70)
  tries : Nat := 0         -- refusals so far (R69)
  limit : Nat := 0         -- c.retry at issue
  slots : List (Nat × GVal) := []  -- rdx.read: the slot reads that have returned (R234)
  pc : Word := 0           -- the instruction
  key : Nat := 0           -- window key slot that its buffer entry named, or 0 (R30)
  gen : Nat := 0           -- GEN of that entry (R232)
  guest : Bool := false    -- a host tenant shares its window (R223)
  via : Nat := 0           -- a bank's own request (slot 513): the partition through whose tables its pointer goes again (R52)
  hold : Option Hold := none  -- a spawn's release: the page of the ring that it waits for
  deriving DecidableEq, Repr

/-- An answer on its way back to its requester. -/
inductive Answer where
  | value (v : GVal)
  | probed (v : GVal) (full : Bool)
  | done
  | failed (cause : Nat)               -- found only at the home (R409, R123, R230)
  | poisoned                           -- an amo would write poison into a window that a host shares (R223)
  | refused                            -- no wait-list entry or watch record (R68, R76)
  | expired                            -- R70
  | purged                             -- R52
  | owner (f : Word)                   -- R72
  | claimed (words : List GVal)        -- w2 and w4–w7 (R156)
  | notClaimed
  | status (n : Nat)                   -- send.mb.f
  deriving DecidableEq, Repr

/-- An answer in flight. -/
structure Reply where
  req : Req
  ans : Answer
  deriving DecidableEq, Repr

/-- A wait-list entry (R71), in order of arrival. -/
structure Wait where
  req : Req
  num : Nat                -- its number in its list (R68)
  shared : Bool
  deadline : Option Nat    -- in units of 1024 reference cycles; w2 shows it modulo 2^32 (R70, R71)
  pkg : BitVec 8 := 0      -- the requester's package (R71)
  void : Bool := false     -- KIND 3, which house firmware alone can write: nothing serves it (R71)
  deriving DecidableEq, Repr

/-- A watch record (R76). `num` tells it from the others that its word has had. -/
structure Watch where
  num : Nat
  dpa : Nat
  ptr : Word
  type : BitVec 8
  tile : Nat
  package : Nat
  tenant : Nat
  part : Nat
  house : Bool             -- the house vector table is meant
  deriving DecidableEq, Repr

/-- Who sends a message. -/
inductive Origin where
  | ctx (id d : Nat)              -- send: the context and its status register
  | mcast (id : Nat)              -- send.mc
  | watch (dpa rec : Nat)         -- the word, and the number of its watch record (R77)
  | gang                          -- R170
  | copy (tile : Nat)             -- R306
  deriving DecidableEq, Repr

/-- A message in flight or queued in an inbox (R244–R247). -/
structure Msg where
  id : Nat
  dst : Nat
  table : Nat              -- vector table 0–15 of the partitions, 16 of house (R245)
  type : BitVec 8
  m0 : Word
  m1 : Word
  coord : Word             -- g6 of the handler (R247)
  src : Nat := 0           -- the tile it comes from (R16)
  tenant : Nat
  user : Bool
  origin : Origin
  target : Word := 0       -- g[a] of the send
  away : Bool := false     -- to another package of the domain (R244)
  tries : Nat := 0
  limit : Nat := 16
  deriving DecidableEq, Repr

/-- What a destination answers (R246). -/
inductive MsgAnswer where
  | dead | noHandler | rights | taken | refused
  deriving DecidableEq, Repr

/-- What happens when a page request that a context waits for at its port fails (R57): PAGE_FAULT, the end of the frame
(tdone and texit, R240), or a help that completes without effect (R163, R242). -/
inductive PortUse where
  | trap | endFrame (failed : Bool) | noHelp
  deriving DecidableEq, Repr

/-- Why a slot that holds work cannot issue (R147). -/
inductive Why where
  | retry                                      -- a condition the instruction tests when it issues: it issues again
  | ref (id : Nat)                             -- a blocking reference in flight, parked or backing off
  | port (idx page : Nat) (tval : Word) (use : PortUse)  -- checks or translation pending (R96)
  | answer (id : Nat)                          -- a message's or a reservation's answer
  | mcast (d : Nat) (left : List (Nat × Nat))  -- send.mc: e register; (tile, 0 waiting 1 refused 2 dead 3 no handler 4 rights 5 refused at the limit)
  | barrier (d : Nat)                          -- gwait, gbar: the register that takes the status
  | await (acc ver : Nat) (deadline : Option Nat)
  | nap (until_ : Nat)
  | service (n : Nat)
  | escalated (cause : Nat) (epc tval : Word) (page : Option (Nat × Nat))  -- R318; a page that its end waits for
  | claim (stolen : Bool)                      -- a pop's or steal's claim in flight (R159)
  | claiming (f : Word) (stolen : Bool)        -- an entry taken, whose claim waits for a page (R54)
  | steal (victim : Nat)                       -- a steal attempt in flight (R160)
  | helping (req : Req) (own : Word) (page : Option (Nat × Nat))  -- the procedure of R163 is due; the page it waits for
  | adopting (req : Req) (f : Word) (ws : List GVal) (undo : Bool) (page : Option (Nat × Nat))
      -- f is claimed, `ws` are its w2 and w4 to w7; the stores of R164 are due, or what undoes the claim
  | returning (lost : Bool) (page : Option (Nat × Nat))
      -- an adopted frame has ended: the reloads of R164 are due; `lost`: a page that they need has failed
  | member (launch : Nat)                      -- an IDLE slot that the launcher has chosen for a gang member (R167)
  deriving DecidableEq, Repr

/-- The states of a slot (R147). -/
inductive SlotState where
  | idle | ready
  | blocked (why : Why)
  | borrowed
  | swapping
  deriving DecidableEq, Repr

/-- A buffer-table entry (R30), or a cached copy of one (R35). -/
structure BufEntry where
  w0 : Word := 0
  w1 : Word := 0
  w2 : Word := 0
  w3 : Word := 0
  deriving DecidableEq, Repr

structure BCached where
  part : Nat
  idx : Nat
  ent : BufEntry
  deriving DecidableEq, Repr

/-- A cached translation (R47); in least-recently-used order, the oldest first. -/
structure PCached where
  part : Nat
  idx : Nat
  gen : Nat
  level : Nat
  pn : Nat
  addr : Nat
  nw : Bool
  deriving DecidableEq, Repr

/-- A context: one hardware slot of a tile (R147, R185, R312). -/
structure Ctx where
  st : SlotState := .idle
  pc : Word := 0
  g : Map GVal := []                 -- g1–g31; g0 has no entry (R185)
  e : Map GVal := []                 -- half h of e n at key 2n + h
  pend : Map Nat := []               -- registers awaiting a load, with the request awaited (R202)
  inTrap : Bool := false             -- c.status.INTRAP
  gang : Bool := false
  handler : Bool := false
  pipe : Bool := false
  cause : BitVec 8 := 0
  adopted : Bool := false            -- c.cause.ADOPTED
  epc : Word := 0
  tval : Word := 0
  trapvec : Word := 0
  timeout : BitVec 32 := 0
  retry : BitVec 8 := 12
  adoptOff : Bool := false
  depth : BitVec 3 := 0
  limit : BitVec 3 := 3
  adoptsp : Word := 0
  round : BitVec 2 := 0
  tenant : BitVec 16 := 0
  stage : BitVec 3 := 0
  abind : BitVec 5 := 0
  msgvec : Word := 0
  scratch0 : Word := 0
  scratch1 : Word := 0
  latch : Word := 0                  -- poison-origin latch (R327)
  deferred : Option (Nat × Word) := none   -- deferred-fault register (R409)
  borrowed : List Nat := []          -- slots it holds by sborrow (R173)
  aside : Option (GVal × Word) := none     -- a borrowed slot's own g3 and c.adoptsp (R173)
  frames : List Word := []           -- at d > 0: adopted frames, top first, then the context's own g2
  lastIssue : Option Nat := none     -- R148
  lastTurn : Nat := 0                -- cycles of its tile's island before that issue (R21)
  obj : Option Nat := none           -- barrier object of its gang (R167)
  stages : Nat := 1                  -- stages of its gang (R411)
  qdown : Option Nat := none         -- queue set shared with stage + 1 (R171)
  qup : Option Nat := none
  arrived : Bool := false            -- an arrival outstanding (R251)
  lastStatus : Word := 0             -- status of the last release it arrived for (R251)
  launch : Option (Nat × Nat) := none      -- launch and gang it belongs to (R366)
  wait : Option Req := none          -- the blocking reference it waits for (R96)
  parkedAt : Option (Nat × Nat × Bool × Nat) := none  -- package, tile, loft, entry of its parked reference (R154)
  yield_ : List Nat := []            -- slots that issue before it does again (R241)
  seen : List BCached := []          -- buffer entries fetched for the instruction that waits at its port (R35)
  walked : List PCached := []        -- results of the walks that it joined (R48)
  after : List Nat := []             -- slots that were parked at the port before it and were woken with it (R57)
  rewalk : Option (Nat × Nat) := none     -- the index and page whose wake it has got, until it issues again (R57)
  again : Nat := 0                   -- refusals so far of the instruction that issues again (R69)
  plainWait : Bool := false          -- its help has decided to park: the unqualified kind issues (R72)
  barWait : Bool := false            -- its gbar has arrived: only the wait issues again (R334)
  own : Word := 0                    -- g2 of its frame in the router's frame table (R348)
  hold : Option Hold := none         -- the page that its claim, or its call of the seal service, waits for
  handledBy : Option Nat := none     -- the house slot that has taken its escalated trap (R318)
  handling : Bool := false           -- a house slot that has taken one
  faulted : Bool := false            -- and in which a fault has struck since
  fenced : Nat := 0                  -- code overwritten before its last ifence: the length of `State.codeOld` then (R111)
  deriving DecidableEq, Repr

/-- Operating points of an island, and the self-test of a fenced tile (R22, R340). -/
inductive Point where
  | n | l1 | l2 | g | off
  deriving DecidableEq, Repr

/-- Element type of an accumulator tile (R276). -/
inductive AType where
  | fp32 | i32 | bf16
  deriving DecidableEq, Repr

/-- An entry of a deque (R159, R239). -/
inductive DState where
  | reserved | visible | void
  deriving DecidableEq, Repr

structure DEntry where
  id : Nat
  frame : Word
  st : DState
  deriving DecidableEq, Repr

/-- A deque of one partition in one tile (R158); entries from HEAD to TAIL. -/
structure Deque where
  base : Word := 0
  head : Word := 0
  tail : Word := 0
  entries : List DEntry := []
  attempts : Nat := 0       -- steal attempts made so far, k of R160
  failed : Nat := 0         -- failed attempts since the last wait
  wait : Option Nat := none -- the reference cycle at which the 4096-cycle wait is over
  deriving DecidableEq, Repr

/-- A barrier object (R168). `reported`: it has reported to its parent in this episode; `rootless`: the mark of R331, the tile of the
lost root and 1024 times the number of that loss, by which the objects of one gang are known. -/
structure Barrier where
  members : BitVec 512 := 0
  arrived : BitVec 512 := 0
  v : Bool := false
  lost : Bool := false
  root : Bool := false
  episode : BitVec 16 := 0
  ptile : BitVec 10 := 0
  pobj : BitVec 4 := 0
  children : BitVec 7 := 0
  carrived : BitVec 7 := 0
  lostType : BitVec 8 := 0
  ltile : BitVec 10 := 0
  lslot : BitVec 9 := 0
  rootless : Option Nat := none
  reported : Bool := false
  deriving DecidableEq, Repr

/-- Forms of a matrix command (R283, R287, R289). -/
inductive MForm where
  | mma | sp6 | sp12 | z | acopy | drain | drainAdd
  deriving DecidableEq, Repr

/-- A command of the matrix queue (R280, R281). -/
structure MCmd where
  id : Nat
  form : MForm
  dst : Nat
  src : Nat := 0                 -- acopy
  lo : Word := 0                 -- descriptor or record pointer
  hi : Word := 0
  expver : BitVec 16 := 0
  part : Nat
  tenant : Nat
  ctx : Nat
  done : Option Word := none     -- drain: completion pointer
  running : Bool := false
  turn : Nat := 0                -- of the running commands, the one with the lowest number started first (R281)
  chunk : Nat := 0               -- running: the chunk that the array takes next (R283)
  left : Nat := 0                -- running: chunks that the array has not taken yet; 0: the array is free of it (R281)
  masks : List Nat := []         -- the mask of each row for the group that the last chunk has cut in two (R91)
  marks : List (Nat × Nat) := [] -- elements (row × 64 + column) with the lowest special position that a chunk has met (R142)
  badMask : Bool := false        -- a mask was malformed (R91)
  waits : Bool := false          -- a follow-on whose copy has not ended (R303)
  ghost : Bool := false          -- a follow-on that never runs in this tile (R303)
  stale : Bool := false
  staleCode : Nat := 17          -- VERSION_RANGE, or ENGINE_FAULT for a follow-on whose copy failed
  lost : Nat := 0                -- the element cause of that copy
  deriving DecidableEq, Repr

/-- A fault waiting for the page-request unit (R54): 0 MISS, 1 WRITE; or parked without an entry (R55, R60). -/
structure PortFault where
  part : Nat
  idx : Nat
  page : Nat
  write : Bool
  sent : Bool := false
  ptr : Word := 0                -- the pointer of the reference, as its failure names it (R305)
  deriving DecidableEq, Repr

/-- Forms of a copy command (R292), and the two drains (R288). -/
inductive CForm where
  | cpy | mm | mc | mmMc | add | fill | keep | send | drain | drainAdd
  deriving DecidableEq, Repr

/-- How far a copy command is (R300, R304, R308). `ending`: every write is performed, and the status and the failing pointer
are known; `filled`: it has ended, and follow-ons still wait for an entry (R303). -/
inductive CState where
  | queued | running | suspended
  | ending (status ptr : Word)
  | filled
  deriving DecidableEq, Repr

/-- An element on its way: its bits, poison, format and scale (R300). -/
structure Moved where
  v : Nat
  p : Bool
  fmt : Nat
  scale : Int
  deriving DecidableEq, Repr

/-- A write that has been sent and not performed yet: of an .mc command to a tile at G (R302), or of any command, since its writes to
different homes are unordered (R300). `tile` is its home's. -/
structure Late where
  tile : Nat
  pos : Nat
  m : Moved
  deriving DecidableEq, Repr

/-- A command of the copy queue (R299). -/
structure CCmd where
  id : Nat
  form : CForm
  lo : GVal
  hi : GVal
  mask : Word := 0
  tower : Nat := 0
  done : Option Word := none
  ctx : Nat
  part : Nat
  tenant : Nat
  user : Bool := true
  st : CState := .queued
  src : List Word := []          -- the records as read at the start (R300)
  dst : List Word := []
  pos : Nat := 0                 -- next element of the walk
  target : Word := 0             -- cpy.send
  follow : Option Nat := none    -- id of its follow-on
  facc : Nat := 0
  fdesc : Word × Word := (0, 0)
  fform : MForm := .mma
  fsent : List Nat := []         -- .mm.mc: tiles whose follow-on has been queued
  rows : List (Elem × Bool) := []  -- a drain's elements
  atype : AType := .fp32
  skipped : List Nat := []       -- .mc: tiles that took no write (R302)
  late : List Late := []         -- writes not performed yet, oldest first (R300, R302)
  page : Option PortFault := none  -- the page it is suspended for (R59)
  rewalk : Option (Nat × Nat) := none  -- the index and page whose wake it has got, until it looks again (R57)
  deriving DecidableEq, Repr

/-- A queue set: four FIFOs (R171). -/
structure QSet where
  f0 : List GVal := []
  f1 : List GVal := []
  f2 : List GVal := []
  f3 : List GVal := []
  deriving DecidableEq, Repr

/-- A running walk (R45, R48). -/
structure Walk where
  part : Nat
  idx : Nat
  off : Nat                -- offset of the 4 KiB page walked for
  level : Nat
  table : Nat              -- region address of the table to read next
  write : Bool             -- a write-class reference walks (R44)
  stale : Bool := false
  deriving DecidableEq, Repr

/-- What a mesh router knows of one neighbour (R340–R343): of this period, then of the periods before. -/
structure Neighbour where
  seq : BitVec 16 := 0           -- SEQ of the last heartbeat
  heard : Bool := false          -- a heartbeat has arrived
  broken : Bool := false         -- it was malformed
  chung : Bool := false          -- it told of a compute side that does not answer, at N, L1 or L2
  bad : List Bool := []          -- malformed heartbeats of the last 4 periods
  missed : Nat := 0              -- periods in a row without a heartbeat
  hung : Nat := 0                -- periods in a row with CHUNG
  judge : BitVec 2 := 0          -- this router's judgement of it
  good : Nat := 0                -- well-formed heartbeats in a row that would give OK
  theirs : BitVec 2 := 0         -- its latest judgement of this tile
  deriving DecidableEq, Repr

/-- A heartbeat (R340). -/
structure Heartbeat where
  seq : BitVec 16
  hung : Bool
  point : BitVec 3
  fenced : Bool
  appeal : Bool
  judge : BitVec 8
  relay0 : BitVec 22
  relay1 : BitVec 22
  reserved : BitVec 22 := 0
  crc : BitVec 32 := 0
  deriving DecidableEq, Repr

/-- The router's part of the Herd vote (R340–R354). -/
structure Herd where
  fenced : Bool := false
  selfTest : Bool := false
  testSince : Nat := 0           -- reference cycle at which the self-test began (R352)
  testFailed : Bool := false     -- the last self-test since it was fenced has failed (R24)
  appealing : Bool := false
  appeals : List Nat := []       -- reference cycles at which it appealed
  okPeriods : Nat := 0           -- periods in a row in which most live neighbours judged it OK
  appealPeriods : Nat := 0
  lonePeriods : Nat := 0         -- periods that an accusation by its only live neighbour has lasted (R345)
  fcause : BitVec 8 := 0
  seq : BitVec 16 := 0
  lastSeq : BitVec 16 := 0       -- SEQ of the last heartbeat sent (R354)
  sent : Nat := 0                -- periods for which the heartbeat has left, and the judgement has been made
  judged : Nat := 0
  resetting : Bool := false      -- a tile reset, whose self-test runs (R381)
  hung : Bool := false           -- the compute side does not answer the router's probe
  silent : Bool := false         -- the router sends nothing
  nbr : Map Neighbour := []      -- by direction 0 N, 1 E, 2 S, 3 W
  wires : Map (Option Heartbeat) := []   -- the heartbeat arriving from each direction
  held : Map (BitVec 2) := []    -- judgements known: subject × 1024 + voter
  relays : List (BitVec 22) := []   -- judgements to pass on, oldest first
  recovered : Bool := true       -- its frames have been recovered (R348)
  deriving DecidableEq, Repr

/-- A shootdown that a port has taken and not acknowledged (R50): its completion pair, the references awaited, and m0 where it purges
(R52). -/
structure Shoot where
  done : Word
  tenant : Nat
  awaited : List Nat
  purge : Option Word := none
  hold : Option Hold := none   -- the page of its completion pair that it waits for
  deriving DecidableEq, Repr

/-- A vld whose words have not all come: what it loads, and the words so far (R273). -/
structure RowLoad where
  id : Nat
  ctx : Nat
  acc : Nat
  row : Nat
  type : AType
  fmt : Word               -- the bank's format register
  dpa : Nat
  ptr : Word
  need : Nat               -- how many words it reads
  words : List (Nat × GVal) := []
  deriving DecidableEq, Repr

/-- What a record says (R374). `ctx` names a context, or `tile` a tile without one; `stage` is that of a context whose slot has been given
up since. -/
structure RecordSpec where
  code : Nat
  sev : Nat
  engine : Nat
  tenant : Nat := 0xFFFF
  adopted : Bool := false
  scope : Nat := 0
  part : Nat := 0xF
  ctx : Option Nat := none
  stage : Option Nat := none
  tile : Nat := 0
  frame : Word := 0
  ptr : Word := 0
  dpa : Word := 0
  action : Nat
  count : Nat := 1
  detail : Word := 0
  deriving DecidableEq, Repr

/-- What firmware recovers of a slot (R330, R347, R348): a frame, which a named slot or whichever slot of the tile ran; an entry for a deque
of its partition; the completion word of a copy command; or a context that held no frame. `rec_` is the record, but for its action. -/
inductive Rescue where
  | frame (f : Word) (slot : Option Nat) (rec_ : RecordSpec)
  | entry (f : Word) (rec_ : Option RecordSpec)
  | fill (p status : Word)
  | lost (rec_ : RecordSpec)
  deriving DecidableEq, Repr

/-- One step of a recovery that is still to do, and the page that it waits for (R54). -/
structure Recover where
  what : Rescue
  part : Nat
  tenant : Nat
  hold : Option Hold := none
  deriving DecidableEq, Repr

/-- One tile (R11). -/
structure Tile where
  point : Point := .n
  islandBase : Nat := 0          -- cycles of its island up to reference cycle `islandSince`, when the point last changed (R21)
  islandSince : Nat := 0
  pcfg : Map Word := []          -- PCFG 0–16 (R149)
  deficit : Map Int := []        -- D[p] (R150)
  rr : Map Nat := []             -- RR[p] (R150)
  lown : Map (BitVec 8) := []    -- R80
  fmt : Map Word := []           -- LFMT 2–31, SFMT at 32 (R83)
  vect : Map Word := []          -- table × 256 + type (R245)
  inbox : List Msg := []         -- R246
  deque : Map Deque := []        -- by partition
  bars : Map Barrier := []       -- objects 0–15
  acc : Map (Elem × Bool) := []  -- element (a, row, i) at (a × 64 + row) × 64 + i (R276)
  atype : Map AType := []
  ver : Map (BitVec 16) := []
  rows : List RowLoad := []      -- vlds under way (R273)
  mq : List MCmd := []
  cq : List CCmd := []
  qsets : Map QSet := []
  bcache : List BCached := []
  fetches : List (Nat × Nat) := []    -- buffer-entry fetches outstanding: partition, index
  pcache : List PCached := []
  walks : List Walk := []
  faults : List PortFault := []
  parked : List Nat := []        -- slots in the order in which they parked at the buffer port (R57)
  wakes : List (Nat × Nat × Nat × Nat) := []  -- grant wakes held: partition, index, page, cycle at which it is dropped (R60)
  shoot : List Shoot := []       -- shootdowns to acknowledge, oldest first (R50)
  copyDown : Bool := false       -- copy engine out of service (R332)
  matrixDown : Bool := false
  herd : Herd := {}
  recover : List Recover := []   -- what firmware has still to recover of it, in order (R348)
  formats : List (Nat × Nat × Word × Nat) := []  -- format changes asked for: context, bank, value, number (R84)
  deriving DecidableEq, Repr

/-- An error record's eight words (R374). -/
structure Record where
  w0 : Word
  w1 : Word
  w2 : Word
  w3 : Word
  w4 : Word
  w5 : Word
  w6 : Word
  w7 : Word
  deriving DecidableEq, Repr

/-- A page-request queue entry (R54–R57). -/
structure PageReq where
  num : Nat
  part : Nat
  tenant : Nat
  idx : Nat
  page : Nat
  write : Bool
  ports : List Nat
  granted : Bool := false
  woken : List Nat := []         -- ports that the wake has reached
  reported : List Nat := []
  refault : Nat := 0
  posted : Nat := 0              -- reference cycle of its latest posting
  shared : Bool := false
  deriving DecidableEq, Repr

/-- A function of a PCIe link, 64l + f, or the management controller, 128 (R357, R367, R369, R377). -/
structure Fn where
  baridx : Word := 0
  lqbase : Word := 0
  lqcfg : Word := 0
  lqnext : Nat := 0              -- the record the launcher reads next (R364)
  lqhold : Option Hold := none   -- the page of the queue that it waits for (R54)
  icoal : Word := 0x10000        -- COUNT 1, TIME 0 (R369)
  eqbase : Word := 0
  eqcfg : Word := 0
  eqhead : BitVec 32 := 0
  eqtail : BitVec 32 := 0
  eqhold : Option Hold := none   -- the page of its error queue that it waits for (R54)
  below : Nat := 0               -- records below MINSEV (R377)
  lost : Nat := 0                -- records discarded (R379)
  buffer : List Record := []     -- records waiting (R379)
  msix : Map (BitVec 128) := []  -- table entries
  pba : Map Bool := []
  pending : Map Nat := []        -- events not yet sent, by vector (R369)
  since : Map Nat := []          -- reference cycle of the first of them
  deriving DecidableEq, Repr

/-- A launch record being served (R364, R366). -/
structure Launch where
  id : Nat
  fn : Nat
  words : List Word
  part : Nat
  tenant : Nat
  gang : Nat := 0                -- gangs placed so far
  plan : List (Nat × Nat) := []  -- members of the last one still to start: member index, context
  live : List (Nat × Nat) := []  -- members placed and not ended: gang, context
  failed : Option (Nat × Nat) := none    -- lowest gang that failed, and the cause
  invalid : Bool := false
  discarded : Bool := false
  lofts : List Nat := []         -- tiles in which its loft plan is installed
  pos : Nat := 0                 -- KIND 1: the next element of the transfer, and its status once it has ended (R371)
  result : Option Word := none
  hold : Option Hold := none     -- the page that the launcher waits for (R54)
  lost : List (Nat × Nat) := []  -- index and number of the pages that it has not been given (R57)
  deriving DecidableEq, Repr

/-- A PARKED or RUNNING mark on its way (R154). -/
structure Mark where
  ctx : Nat
  frame : Word
  parked : Option (Nat × Nat × Bool × Nat)   -- package, tile, loft, entry; none for RUNNING
  tenant : Nat
  hold : Option Hold := none
  deriving DecidableEq, Repr

/-- A bank being spared, and the banks retired in place (R337, R338). -/
structure Spare where
  bank : Option Nat := none      -- the bank being copied
  bnd : Nat := 0                 -- BND, in rows
  used : Bool := false
  retired : List (Nat × Nat) := []   -- banks retired in place, each from a byte offset on
  corrected : List (Nat × Nat) := [] -- corrected errors of the last 24 hours: bank, 32 for the tile's own state, and cycle (R330, R337)
  deriving DecidableEq, Repr

/-- A quarantined subtree (R123): tile, bank and the byte range of the bank. -/
structure Quarantine where
  tile : Nat
  bank : Nat
  lo : Nat
  len : Nat
  level : Nat
  deriving DecidableEq, Repr

/-- A window re-key in progress or waiting (R125). -/
structure Rekey where
  slot : Nat
  part : Nat
  idx : Nat
  next : Nat := 0                -- next buffer offset of the sweep
  done : Option Word := none     -- completion pointer of the tenant that asked, in its tile
  tile : Nat := 0
  tenant : Nat := 0
  started : Bool := false
  finished : Bool := false       -- its key is in use alone; only the completion word is still to fill
  hold : Option Hold := none
  deriving DecidableEq, Repr

/-- A window known to the seal service (R124–R127): its creator, its lines, and who may join. -/
structure Window where
  slot : Nat
  creator : Nat                  -- tenant
  idx : Nat                      -- the creator's index
  base : Nat
  size : Nat
  region : Nat
  offers : List (Nat × Nat) := []          -- tenant, rights
  sharers : List (Nat × Nat × Nat) := []   -- tenant, partition, index
  deriving DecidableEq, Repr

/-- A range of a region that firmware has given out: a page table, the root of a stack buffer, or a granted page (R407). -/
structure Range where
  tenant : Nat
  region : Nat
  base : Nat
  size : Nat
  page : Bool := false           -- a page, and not a table
  deriving DecidableEq, Repr

/-- A rotation under way (R175). -/
structure Rotation where
  part : Nat
  outgoing : Nat
  incoming : Nat
  left : List Nat                -- contexts not yet saved
  tiles : List Nat := []         -- tiles whose loft has not changed hands
  deriving DecidableEq, Repr

/-- State of one tenant saved by rotation (R175–R177, R82). -/
structure Saved where
  tenant : Nat
  ctx : Nat
  c : Ctx
  deriving DecidableEq, Repr

structure SavedTile where
  tenant : Nat
  tile : Nat
  acc : Map (Elem × Bool)
  atype : Map AType
  ver : Map (BitVec 16)
  mq : List MCmd
  cq : List CCmd
  deque : Deque
  qsets : Map QSet
  bars : Map Barrier
  vect : Map Word
  loft : List (Nat × Byte)
  tags : List (Nat × Tag)
  watches : List Watch
  fmt : Map Word
  inbox : List Msg
  deriving DecidableEq, Repr

/-- Header of a firmware image (R372). -/
structure ImageHeader where
  version : Word := 0
  rollback : BitVec 32 := 0
  digest : BitVec 256 := 0
  signature : BitVec 512 := 0
  deriving DecidableEq, Repr

/-- An attestation report (R373): its signature is part of the cryptography that the model leaves out (log 14). -/
structure Report where
  nonce : BitVec 256
  romDigest : BitVec 256
  fwDigest : BitVec 256
  cfgDigest : BitVec 256
  tenant : BitVec 16
  part : BitVec 4
  imageDigest : BitVec 256
  key : BitVec 512               -- the device's ephemeral public key
  deriving DecidableEq, Repr

/-- A word of a loft as it stood before a write, while matrix command `cmd` occupied the array of its tile (R89). -/
structure OldWord where
  cmd : Nat
  dpa : Nat
  val : GVal
  deriving DecidableEq, Repr

/-- What comes next when no instruction issues (log 3): the package goes on by itself, an event of the opcode table happens, or
something happens to the hardware that no instruction and no event names. -/
inductive Turn where
  | own
  | event (i : Instr)
  | lineFails (dpa : Nat) (mac : Bool)        -- a vault line fails ECC (R75), or its MAC (R122), when next opened
  | counterFails (tile bank level idx : Nat)  -- a counter line fails its MAC when next fetched (R123)
  | corrected (tile bank : Nat)               -- ECC has corrected an error in a bank, or (32) in the tile's own state (R330, R337)
  | bondFails (dpa : Nat)                     -- the next bond transfer that carries the loft word fails for good (R94)
  | elementFails (tile key : Nat)             -- an accumulator element has an uncorrectable error (R330)
  | computeHangs (tile : Nat) (on : Bool)     -- the compute side stops, or goes on, answering its router (R340)
  | routerSilent (tile : Nat) (on : Bool)     -- a router stops, or goes on, sending heartbeats (R342)
  | domainHas (pkg : Nat) (is_ : Bool)        -- a package joins the domain, or leaves it (R42)
  | houseTable (btab : Word)                  -- firmware sets up the buffer table of house itself (log 7)
  | hostJoins (slot fn idx : Nat)             -- firmware makes a host tenant that has an offer a sharer of a window (R124)
  | hostLeaves (slot fn : Nat)                -- firmware removes a host tenant from a window (R124, R127)
  | imageBuffer (tenant idx size rights region base : Nat) (paged : Bool) (words : List (Nat × Word))
      -- firmware creates a buffer that a launch image declares, and loads what the image holds of it (R399, R407)
  | pageMoves (tenant idx page addr : Nat)    -- firmware migrates a page of a paged buffer to another address of its region (R60, R117)
  | mgmtReads (master fn off : Nat)           -- a register of a function's management window is read (R357)
  | copyReads (tile k : Nat)        -- a copy command reads its next element, and its write is performed later (R300)
  | copyWrites (tile k home : Nat)  -- its oldest write to a home tile is performed, before those to others (R300)
  | imageStored (header : ImageHeader)        -- a firmware image is put into the boot store (R372)
  | rollbackStored (n : BitVec 32)            -- the signed store's rollback index is written (R372)
  | reportAsked (part : Nat) (nonce : BitVec 256)  -- a tenant's verifier asks for an attestation report (R373)
  | tenantReady (tenant : Nat) (btab root : Word) (image : List (Nat × Word))
      -- firmware prepares a tenant that has not run yet: its buffer table, its stack, its vector table (R361)
  deriving DecidableEq, Repr

/-- An access of a host through BAR2: its offset, and a write's width and value (R356). -/
inductive BarAccess where
  | plainWrite (off : Word) (width : Nat) (value : Word)
  | plainRead (off : Word) (width : Nat)
  | fillWrite (off : Word) (width : Nat) (value : Word)
  | statusRead (off : Word)
  deriving DecidableEq, Repr

/-- An access of a host through BAR2 that waits: for a page of its buffer (R54), for its home, or behind an earlier one. -/
structure BarWait where
  fn : Nat
  ev : BarAccess
  hold : Option Hold := none
  deriving DecidableEq, Repr

/-- A fabric channel (R370). -/
structure Channel where
  mapgen : BitVec 8 := 0
  deriving DecidableEq, Repr

/-- Ownership of the device (R358). -/
structure Ringmaster where
  state : BitVec 2 := 0
  owner : BitVec 2 := 3
  target : BitVec 2 := 3
  epoch : BitVec 32 := 0
  since : Nat := 0               -- reference cycle at which HANDOVER or ELECTING began
  claimed : Option Nat := none   -- reference cycle of the claim that took the device: claims of one cycle go to the lowest (R359)
  beat : Nat := 0                -- reference cycle of the last I3C heartbeat
  deriving DecidableEq, Repr

/-- The state of the package. -/
structure State where
  -- which step comes next
  agenda : List Turn := []       -- turns to come, first one first; at its end the package goes on by itself (log 3)
  cur : Nat := 0                 -- the context that issues, tile × 512 + slot
  issuing : Bool := false        -- Carousel has chosen `cur` and its instruction has not run yet (R151)
  cycle : Word := 0              -- c.cycle (R21, R312)
  fresh : Nat := 0               -- numbers requests, messages and commands (the model's own)
  free : Nat := 0                -- numbers the uses of free values (log 5)
  -- the package
  package : BitVec 8 := 0        -- its number in its domain (R19)
  domain : BitVec 9 := 0
  members : Map Bool := []       -- the other packages that are in the domain (R42)
  infra : Map Point := []        -- islands of the towers' base logic, 0–15, and of Midway, 16: N or OFF (R22)
  tiles : Map Tile := []
  ctxs : Map Ctx := []
  -- memory of the load-store domain, by device physical address (R41)
  mem : List Host.Cell := []
  codeOld : List (Nat × Nat) := []  -- halfwords of code banks that have been overwritten, address and value, oldest first (R111)
  dataOld : List OldWord := []   -- words of lofts as they stood before writes while a matrix command occupies the array (R89)
  tags : Map Tag := []
  -- references, answers and messages in flight
  net : List Req := []
  replies : List Reply := []
  refused : List Req := []       -- backing off (R69)
  waits : List Wait := []
  idleWaits : Map Word := []     -- words of wait-list entries not in use, as house firmware has written them (R71)
  served : List (Nat × Nat) := []  -- banks and requester ranks of the arrivals of this cycle (R65)
  waking : List Nat := []        -- words whose wake cascade runs: each bank serves one entry a cycle (R66, R67)
  looked : Bool := false         -- the banks have looked at their deadlines in this cycle, and entries have expired (R70)
  watches : List Watch := []
  lostRecs : List Nat := []      -- numbers of the watch records whose lost flag is set (R77)
  msgs : List Msg := []
  refusedMsgs : List Msg := []
  heldAnswers : List (Msg × MsgAnswer) := []  -- answers to the messages of contexts whose tile is at G (R23)
  marks : List Mark := []
  releases : List (Nat × Nat × Word) := []  -- barrier releases on their way: tile, object, status (R169)
  -- regions, tables, keys (R29, R38, R39, R119)
  ircfg : Map Word := []
  irhash : Map Word := []
  btab : Map Word := []
  houseBtab : Word := 0          -- table of house's own buffers (log 7)
  kslot : Map Word := []
  -- sealing (R113–R125)
  ctr : Map (BitVec 56) := []    -- FRESH and COUNT of each data line, by line address; FRESH where unlisted (R113)
  epochs : Map Bool := []        -- key-epoch bit E of each window line, by line address (R125)
  lineKeys : Map Nat := []       -- the key under which each vault line is sealed (R109); 0 where no line is
  keyGens : Map Nat := []        -- keys generated and erased so far, by tenant or window slot (R120, R121)
  counters : Map (Map (Option Bool)) := []  -- by vault, the counter lines that its counter cache holds, and which are dirty (R116)
  sroot : Map Word := []         -- SROOT of each bank, 16 counters (R115)
  badLines : List (Nat × Bool) := []  -- lines that fail ECC (false) or their MAC (true) when next referenced
  badBonds : List (Nat × Nat × Nat × Word) := []
      -- loft words whose next bond transfer fails (R94); tenant, partition and pointer of the write that carries one
  badCounters : List (Nat × Nat × Nat × Nat) := []  -- tile, bank, level, index of counter lines that fail their MAC
  quarantines : List Quarantine := []
  rekeys : List Rekey := []
  windows : List Window := []
  sessions : Map Word := []      -- the last sequence number accepted, by session slot (R129)
  spares : Map Spare := []
  -- firmware services
  pageReqs : List PageReq := []
  ranges : List Range := []      -- given out by firmware (R407)
  hostPosts : List (Nat × Word × Word) := []  -- page-request records sent: the function that owns the tenant, w0 and w1 (R56)
  records : List Record := []    -- posted, not yet written to a queue (R374, R378)
  rotations : List Rotation := []
  saved : List Saved := []
  savedTiles : List SavedTile := []
  tables : Map Word := []        -- BTAB of a tenant that is switched out
  launches : List Launch := []
  -- hosts
  rm : Ringmaster := {}
  rstcause : Word := 0
  pwrlim : Word := 3600
  fns : Map Fn := []
  vfbind : Map Word := []
  vfEnable : Map Bool := []      -- by link
  bound : Map Word := []         -- VFBIND as it is in effect: changes come with rotation (R361)
  images : List (Nat × List (Nat × Word)) := []  -- vector tables of tenants that have not run yet: tenant; type, word (R361)
  teardowns : List Nat := []     -- links of the teardown records that have not been posted, in their order (R362)
  attested : Map Bool := []      -- by partition: the tenant's verifier accepted the report (R373)
  barWaits : List BarWait := []  -- accesses through BAR2 that wait, oldest first
  hostRead : Option (Word × Bool) := none  -- the last completion a host received, and its uncorrectable status
  msixSent : List (BitVec 128) := []       -- messages written to hosts
  discards : Nat := 0            -- writes of masters that are not the owner, in this second (R360)
  discarded : Nat × Nat × Nat := (0, 0, 0)   -- the last of them: master, function and offset
  channels : Map Channel := []
  booted : Bool := false         -- a firmware image has been accepted (R372)
  image : ImageHeader := {}      -- header of the image in the boot store, and of the one before it
  prevImage : ImageHeader := {}
  rollback : BitVec 32 := 0      -- rollback index in the signed non-volatile store
  reports : Map (Option Report) := []  -- the last report of each partition (R373)
  deriving DecidableEq, Repr

/-- Why the machine stops. -/
inductive Fault where
  /-- An event at a bank names a device physical address that R37, R9 and R10 give no word: raised by the arrival events only,
  in states no run reaches. Safe: no address is invented. -/
  | noSuchWord (dpa : Nat)
  deriving DecidableEq, Repr

/-- Why a step has no meaning. -/
inductive Refusal where
  /-- The row's meaning has not been written: raised by `exec` only. Safe: no effect is invented. -/
  | notModelled (mnemonic : String)
  deriving DecidableEq, Repr

/-- The first record after a reset (R374, R381): code 0x010F, SEV 5, engine 12, SCOPE 2, no tenant and no context, action 25, and RSTCAUSE
with cause 0 in w7. -/
def resetRecord : Record := ⟨0x010FACFFFF2F0000, 0x8000000000000000, 0, 0, 0, 0, 0x0019000000000001, 0⟩

/-- The package right after a power-on reset (R381): every slot idle, every word fresh (R61), every register at its reset value.
The fields with a stated reset value have it as their default above; the log names the others. -/
def State.reset : State := { records := [resetRecord] }

end Sys2Proof.Machine
end

