-- ==== Sys2Proof/WellFormed.lean ====
section
/-! DEFINITION. Well-formedness. `encodable`: the instruction has a word of its own (the limits of the compact map, R192,
and the field values that tell jmp from call and jr from callr, R190). `operandsOk`: its fields name registers that exist and
keep the code point's stated limits (R183, R193 to R197, R206, R211, R236, R259); an instruction that breaks them decodes and
then traps ILLEGAL_OPERAND (R189). -/

namespace Sys2Proof

/-- Is it one of the 288 instructions, and not one of the device's own steps? -/
def Instr.isInstruction : Instr → Bool
  | .mvN _ _ => true
  | .liN _ _ => true
  | .addN _ _ => true
  | .addiN _ _ => true
  | .subN _ _ => true
  | .shliN _ _ => true
  | .andN _ _ => true
  | .shriN _ _ => true
  | .orN _ _ => true
  | .sraiN _ _ => true
  | .xorN _ _ => true
  | .andiN _ _ => true
  | .ldN _ _ => true
  | .ldspN _ _ => true
  | .stN _ _ => true
  | .stspN _ _ => true
  | .beqzN _ _ => true
  | .bnezN _ _ => true
  | .jN _ => true
  | .jrN _ => true
  | .callrN _ => true
  | .retN => true
  | .nopN => true
  | .addspN _ => true
  | .add _ _ _ => true
  | .sub _ _ _ => true
  | .and _ _ _ => true
  | .or _ _ _ => true
  | .xor _ _ _ => true
  | .andn _ _ _ => true
  | .shl _ _ _ => true
  | .shr _ _ _ => true
  | .sra _ _ _ => true
  | .mul _ _ _ => true
  | .mulh _ _ _ => true
  | .mulhu _ _ _ => true
  | .div _ _ _ => true
  | .divu _ _ _ => true
  | .rem _ _ _ => true
  | .remu _ _ _ => true
  | .slt _ _ _ => true
  | .sltu _ _ _ => true
  | .min _ _ _ => true
  | .max _ _ _ => true
  | .clz _ _ => true
  | .popc _ _ => true
  | .addi _ _ _ => true
  | .andi _ _ _ => true
  | .ori _ _ _ => true
  | .xori _ _ _ => true
  | .slti _ _ _ => true
  | .sltui _ _ _ => true
  | .shli _ _ _ => true
  | .shri _ _ _ => true
  | .srai _ _ _ => true
  | .addFp32 _ _ _ => true
  | .subFp32 _ _ _ => true
  | .mulFp32 _ _ _ => true
  | .divFp32 _ _ _ => true
  | .sqrtFp32 _ _ => true
  | .minFp32 _ _ _ => true
  | .maxFp32 _ _ _ => true
  | .fmaFp32 _ _ _ _ => true
  | .seqFp32 _ _ _ => true
  | .sltFp32 _ _ _ => true
  | .cvtI32Fp32 _ _ => true
  | .cvtFp32I32 _ _ => true
  | .lui _ _ => true
  | .lpc _ _ => true
  | .pmk _ _ _ => true
  | .pidx _ _ => true
  | .poff _ _ => true
  | .padd _ _ _ => true
  | .bfx _ _ _ _ => true
  | .bfxu _ _ _ _ => true
  | .bfi _ _ _ _ => true
  | .brEq _ _ _ => true
  | .brNe _ _ _ => true
  | .brLt _ _ _ => true
  | .brGe _ _ _ => true
  | .brLtu _ _ _ => true
  | .brGeu _ _ _ => true
  | .brLtz _ _ => true
  | .brGez _ _ => true
  | .jmp _ => true
  | .call _ _ => true
  | .jr _ _ => true
  | .callr _ _ _ => true
  | .ret => true
  | .loop _ _ => true
  | .ldB _ _ _ => true
  | .ldBz _ _ _ => true
  | .ldH _ _ _ => true
  | .ldHz _ _ _ => true
  | .ldW _ _ _ => true
  | .ldWz _ _ _ => true
  | .ldD _ _ _ => true
  | .ldDWf _ _ _ => true
  | .ldDWfc _ _ _ => true
  | .ldDWfHelp _ _ _ => true
  | .ldDWfcHelp _ _ _ => true
  | .ldDPr _ _ _ => true
  | .stB _ _ _ => true
  | .stH _ _ _ => true
  | .stW _ _ _ => true
  | .stD _ _ _ => true
  | .stDSf _ _ _ => true
  | .stDWe _ _ _ => true
  | .ldmD _ _ _ _ => true
  | .stmD _ _ _ _ => true
  | .pset _ _ => true
  | .pclr _ _ => true
  | .pget _ _ _ => true
  | .watch _ _ _ => true
  | .unwatch _ _ => true
  | .fenceAcqTile => true
  | .fenceAcqTower => true
  | .fenceAcqPkg => true
  | .fenceAcqDom => true
  | .fenceAcqWin => true
  | .fenceRelTile => true
  | .fenceRelTower => true
  | .fenceRelPkg => true
  | .fenceRelDom => true
  | .fenceRelWin => true
  | .fenceFullTile => true
  | .fenceFullTower => true
  | .fenceFullPkg => true
  | .fenceFullDom => true
  | .fenceFullWin => true
  | .amoAdd _ _ _ => true
  | .amoAnd _ _ _ => true
  | .amoOr _ _ _ => true
  | .amoXor _ _ _ => true
  | .amoMin _ _ _ => true
  | .amoMax _ _ _ => true
  | .amoSwap _ _ _ => true
  | .amoCas _ _ _ _ => true
  | .amoAddW _ _ _ => true
  | .amoAndW _ _ _ => true
  | .amoOrW _ _ _ => true
  | .amoXorW _ _ _ => true
  | .amoMinW _ _ _ => true
  | .amoMaxW _ _ _ => true
  | .amoSwapW _ _ _ => true
  | .amoCasW _ _ _ _ => true
  | .amoAddFp32 _ _ _ => true
  | .amoMaxFp32 _ _ _ => true
  | .rdxInit _ => true
  | .rdxAddFp32 _ _ => true
  | .rdxAddBf16 _ _ => true
  | .rdxRead _ _ => true
  | .spawn _ => true
  | .spawnT _ _ => true
  | .tdone _ => true
  | .tyield => true
  | .texit => true
  | .help _ => true
  | .dqlen _ => true
  | .send _ _ _ _ => true
  | .sendMc _ _ _ _ => true
  | .sendMb _ _ _ => true
  | .sendMbF _ _ _ => true
  | .msgret => true
  | .gbar _ => true
  | .garrive => true
  | .gwait _ => true
  | .gquery _ _ => true
  | .gleave => true
  | .sborrow _ => true
  | .sreturn _ => true
  | .xmovTo _ _ _ => true
  | .xmovFrom _ _ _ => true
  | .xmovmTo _ _ _ _ => true
  | .xmovmFrom _ _ _ _ => true
  | .xmovxTo _ _ _ => true
  | .xmovxFrom _ _ _ => true
  | .qput _ _ => true
  | .qget _ _ => true
  | .qputNb _ _ _ => true
  | .qgetNb _ _ => true
  | .qlen _ _ => true
  | .vaddFp32 _ _ _ => true
  | .vsubFp32 _ _ _ => true
  | .vmulFp32 _ _ _ => true
  | .vdivFp32 _ _ _ => true
  | .vfmaFp32 _ _ _ => true
  | .vminFp32 _ _ _ => true
  | .vmaxFp32 _ _ _ => true
  | .vabsFp32 _ _ => true
  | .vnegFp32 _ _ => true
  | .vreluFp32 _ _ => true
  | .vaddbFp32 _ _ _ => true
  | .vmulbFp32 _ _ _ => true
  | .vaddBf16 _ _ _ => true
  | .vsubBf16 _ _ _ => true
  | .vmulBf16 _ _ _ => true
  | .vfmaBf16 _ _ _ => true
  | .vminBf16 _ _ _ => true
  | .vmaxBf16 _ _ _ => true
  | .vreluBf16 _ _ => true
  | .vaddI32 _ _ _ => true
  | .vsubI32 _ _ _ => true
  | .vmulI32 _ _ _ => true
  | .vminI32 _ _ _ => true
  | .vmaxI32 _ _ _ => true
  | .vandI32 _ _ _ => true
  | .vorI32 _ _ _ => true
  | .vxorI32 _ _ _ => true
  | .vshlI32 _ _ _ => true
  | .vsraI32 _ _ _ => true
  | .vreluI32 _ _ => true
  | .vexpFp32 _ _ => true
  | .vlogFp32 _ _ => true
  | .vrcpFp32 _ _ => true
  | .vrsqrtFp32 _ _ => true
  | .vsqrtFp32 _ _ => true
  | .vtanhFp32 _ _ => true
  | .vsigmFp32 _ _ => true
  | .vcmpEqFp32 _ _ _ => true
  | .vcmpLtFp32 _ _ _ => true
  | .vcmpLeFp32 _ _ _ => true
  | .vcmpEqI32 _ _ _ => true
  | .vcmpLtI32 _ _ _ => true
  | .vsel _ _ _ => true
  | .vsumFp32 _ _ => true
  | .vsumI32 _ _ => true
  | .vmaxrFp32 _ _ => true
  | .vbcast _ _ => true
  | .vget _ _ _ => true
  | .vset _ _ _ => true
  | .vcvtBf16Fp32 _ _ _ => true
  | .vcvtFp32Bf16 _ _ _ => true
  | .vcvtI32Fp32 _ _ => true
  | .vcvtFp32I32 _ _ => true
  | .vmov _ _ => true
  | .vld _ _ _ => true
  | .vst _ _ _ => true
  | .abind _ => true
  | .aunbind => true
  | .atypeFp32 _ => true
  | .atypeI32 _ => true
  | .atypeBf16 _ => true
  | .azero _ => true
  | .aqlen _ => true
  | .aver _ _ => true
  | .mma _ _ => true
  | .mmaSp6 _ _ => true
  | .mmaSp12 _ _ => true
  | .mmaZ _ _ => true
  | .await _ _ => true
  | .drain _ _ _ => true
  | .drainAdd _ _ _ => true
  | .acopy _ _ _ => true
  | .cpy _ _ => true
  | .cpyMm _ _ _ _ => true
  | .cpyMc _ _ => true
  | .cpyMmMc _ _ _ _ => true
  | .cpyAdd _ _ => true
  | .cpyFill _ _ => true
  | .cpyKeep _ _ => true
  | .cpySend _ _ _ => true
  | .cpyCancel _ _ => true
  | .cpyQuery _ _ => true
  | .xset _ _ _ => true
  | .xgetLo _ _ => true
  | .xgetHi _ _ => true
  | .xld _ _ _ => true
  | .xst _ _ _ => true
  | .xclr _ => true
  | .trap _ => true
  | .brk _ => true
  | .tback => true
  | .nap _ => true
  | .ifence => true
  | .cget _ _ => true
  | .cset _ _ => true
  | .cseti _ _ => true
  | .cclr _ _ _ => true
  | .cbis _ _ _ => true
  | .hcget _ _ => true
  | .hcset _ _ => true
  | .hstart _ _ _ _ => true
  | .hkill _ _ => true
  | .hrec _ => true
  | .hquiesce _ => true
  | .hpurge _ _ => true
  | .hcopy _ _ _ => true
  | .carouselIssue _ => false
  | .escalation _ => false
  | .serviceCall _ => false
  | .sealCreate _ _ _ _ => false
  | .sealOffer _ => false
  | .sealJoin _ _ => false
  | .sealRights _ => false
  | .sealLeave _ => false
  | .sealRekey _ => false
  | .sealImport _ _ => false
  | .sealExport _ _ => false
  | .loftSetFormat _ => false
  | .loftFormatApply _ => false
  | .napExpiry _ => false
  | .pageWalk _ _ => false
  | .pageRequest _ _ => false
  | .pageGrant _ _ => false
  | .pageRequestFail _ => false
  | .pageRequestTimeout _ => false
  | .rewalkReport _ _ => false
  | .portWake _ _ _ _ => false
  | .wakeHoldExpiry _ => false
  | .shootdown _ => false
  | .shootdownAck _ => false
  | .arriveLoad _ => false
  | .arriveStore _ => false
  | .arriveWf _ => false
  | .arriveWfc _ => false
  | .arriveWe _ => false
  | .arriveSf _ => false
  | .arrivePset _ => false
  | .arrivePclr _ => false
  | .arriveHelp _ => false
  | .arriveProbe _ => false
  | .arrivePget _ => false
  | .arriveWatch _ => false
  | .arriveUnwatch _ => false
  | .arriveAmo _ => false
  | .arriveRdxAdd _ => false
  | .rdxSlotRead _ _ => false
  | .rdxSum _ => false
  | .refusalRetry _ => false
  | .deadlineCheck => false
  | .cancel _ => false
  | .reply _ => false
  | .quarantineLift _ => false
  | .rekeySweepLine _ => false
  | .rekeyComplete _ => false
  | .keyErase _ => false
  | .matrixStart _ => false
  | .matrixComplete _ => false
  | .staleCommand _ => false
  | .awaitTimeout _ => false
  | .drainRun _ => false
  | .copyStart _ => false
  | .copyElement _ _ => false
  | .copyComplete _ _ => false
  | .followOnReady _ _ _ => false
  | .copyResume _ _ => false
  | .pop _ => false
  | .frameStart _ => false
  | .stealAttempt _ => false
  | .stealAnswer _ => false
  | .stealBackoff _ _ => false
  | .stateMark _ => false
  | .helpProcedure _ => false
  | .spawnRelease _ => false
  | .dequeReserve _ => false
  | .messageArrive _ => false
  | .handlerStart _ => false
  | .mailboxArrive _ => false
  | .gangMemberStart _ => false
  | .barrierReport _ => false
  | .barrierRelease _ => false
  | .slotRotation _ _ => false
  | .slotSwap _ => false
  | .loftHandover _ _ => false
  | .launchAcquire _ => false
  | .launchDone _ => false
  | .operatingPointChange _ _ => false
  | .powerThrottle _ => false
  | .thermalThrottle _ => false
  | .thermalReset => false
  | .contextStateError _ => false
  | .engineOutOfService _ _ => false
  | .dramParityAlert _ _ _ _ => false
  | .sparingStart _ _ => false
  | .sparingRowCopy _ => false
  | .bankRetire _ _ => false
  | .flitResend _ _ => false
  | .endToEndResend _ => false
  | .channelRetire _ => false
  | .heartbeatSend _ => false
  | .heartbeatReceive _ _ _ => false
  | .judgement _ _ => false
  | .fence _ => false
  | .frameRecovery _ => false
  | .selfTestEnd _ _ => false
  | .bar2PlainWrite _ _ _ _ => false
  | .bar2PlainRead _ _ _ => false
  | .bar2FillWrite _ _ _ _ => false
  | .bar2StatusRead _ _ => false
  | .bar2ReservedAlias _ _ _ => false
  | .mgmtRegisterWrite _ _ _ _ => false
  | .rmownClaim _ => false
  | .rmownHandover _ _ => false
  | .rmownAccept _ => false
  | .rmownCancel _ => false
  | .handoverTimeout => false
  | .i3cHeartbeat => false
  | .ownerLost => false
  | .ownerReturn => false
  | .electionTimeout => false
  | .vfbindWrite _ _ _ => false
  | .vfEnableClear _ => false
  | .attestation _ => false
  | .eqheadWrite _ _ => false
  | .errorRecordWrite => false
  | .icoalTimer _ _ => false
  | .msixUnmask _ _ => false
  | .firmwareBoot _ => false
  | .powerOn => false
  | .pcieFundamentalReset _ => false
  | .ownerResetRequest _ => false
  | .mcResetRequest => false
  | .supplyFault => false
  | .firmwareWatchdog => false
  | .tileReset _ _ => false
  | .bufferEntryFetch _ _ => false
  | .engineSelfTestEnd _ => false
  | .vfEnableSet _ => false

/-- The limits that a word of the opcode table always meets: x ≠ 0 in most compact forms (R192), d ≠ 0 in call and callr
(R190). The device's own steps have no word. -/
def Instr.encodable : Instr → Bool
  | .mvN x _ => x != 0
  | .liN x _ => x != 0
  | .addN x _ => x != 0
  | .addiN x _ => x != 0
  | .subN x _ => x != 0
  | .shliN x _ => x != 0
  | .andN x _ => x != 0
  | .shriN x _ => x != 0
  | .orN x _ => x != 0
  | .sraiN x _ => x != 0
  | .xorN x _ => x != 0
  | .andiN x _ => x != 0
  | .ldN x _ => x != 0
  | .ldspN x _ => x != 0
  | .stN _ _ => true
  | .stspN _ _ => true
  | .beqzN _ _ => true
  | .bnezN _ _ => true
  | .jN _ => true
  | .jrN x => x != 0
  | .callrN x => x != 0
  | .retN => true
  | .nopN => true
  | .addspN _ => true
  | .add _ _ _ => true
  | .sub _ _ _ => true
  | .and _ _ _ => true
  | .or _ _ _ => true
  | .xor _ _ _ => true
  | .andn _ _ _ => true
  | .shl _ _ _ => true
  | .shr _ _ _ => true
  | .sra _ _ _ => true
  | .mul _ _ _ => true
  | .mulh _ _ _ => true
  | .mulhu _ _ _ => true
  | .div _ _ _ => true
  | .divu _ _ _ => true
  | .rem _ _ _ => true
  | .remu _ _ _ => true
  | .slt _ _ _ => true
  | .sltu _ _ _ => true
  | .min _ _ _ => true
  | .max _ _ _ => true
  | .clz _ _ => true
  | .popc _ _ => true
  | .addi _ _ _ => true
  | .andi _ _ _ => true
  | .ori _ _ _ => true
  | .xori _ _ _ => true
  | .slti _ _ _ => true
  | .sltui _ _ _ => true
  | .shli _ _ _ => true
  | .shri _ _ _ => true
  | .srai _ _ _ => true
  | .addFp32 _ _ _ => true
  | .subFp32 _ _ _ => true
  | .mulFp32 _ _ _ => true
  | .divFp32 _ _ _ => true
  | .sqrtFp32 _ _ => true
  | .minFp32 _ _ _ => true
  | .maxFp32 _ _ _ => true
  | .fmaFp32 _ _ _ _ => true
  | .seqFp32 _ _ _ => true
  | .sltFp32 _ _ _ => true
  | .cvtI32Fp32 _ _ => true
  | .cvtFp32I32 _ _ => true
  | .lui _ _ => true
  | .lpc _ _ => true
  | .pmk _ _ _ => true
  | .pidx _ _ => true
  | .poff _ _ => true
  | .padd _ _ _ => true
  | .bfx _ _ _ _ => true
  | .bfxu _ _ _ _ => true
  | .bfi _ _ _ _ => true
  | .brEq _ _ _ => true
  | .brNe _ _ _ => true
  | .brLt _ _ _ => true
  | .brGe _ _ _ => true
  | .brLtu _ _ _ => true
  | .brGeu _ _ _ => true
  | .brLtz _ _ => true
  | .brGez _ _ => true
  | .jmp _ => true
  | .call d _ => d != 0
  | .jr _ _ => true
  | .callr d _ _ => d != 0
  | .ret => true
  | .loop _ _ => true
  | .ldB _ _ _ => true
  | .ldBz _ _ _ => true
  | .ldH _ _ _ => true
  | .ldHz _ _ _ => true
  | .ldW _ _ _ => true
  | .ldWz _ _ _ => true
  | .ldD _ _ _ => true
  | .ldDWf _ _ _ => true
  | .ldDWfc _ _ _ => true
  | .ldDWfHelp _ _ _ => true
  | .ldDWfcHelp _ _ _ => true
  | .ldDPr _ _ _ => true
  | .stB _ _ _ => true
  | .stH _ _ _ => true
  | .stW _ _ _ => true
  | .stD _ _ _ => true
  | .stDSf _ _ _ => true
  | .stDWe _ _ _ => true
  | .ldmD _ _ _ _ => true
  | .stmD _ _ _ _ => true
  | .pset _ _ => true
  | .pclr _ _ => true
  | .pget _ _ _ => true
  | .watch _ _ _ => true
  | .unwatch _ _ => true
  | .fenceAcqTile => true
  | .fenceAcqTower => true
  | .fenceAcqPkg => true
  | .fenceAcqDom => true
  | .fenceAcqWin => true
  | .fenceRelTile => true
  | .fenceRelTower => true
  | .fenceRelPkg => true
  | .fenceRelDom => true
  | .fenceRelWin => true
  | .fenceFullTile => true
  | .fenceFullTower => true
  | .fenceFullPkg => true
  | .fenceFullDom => true
  | .fenceFullWin => true
  | .amoAdd _ _ _ => true
  | .amoAnd _ _ _ => true
  | .amoOr _ _ _ => true
  | .amoXor _ _ _ => true
  | .amoMin _ _ _ => true
  | .amoMax _ _ _ => true
  | .amoSwap _ _ _ => true
  | .amoCas _ _ _ _ => true
  | .amoAddW _ _ _ => true
  | .amoAndW _ _ _ => true
  | .amoOrW _ _ _ => true
  | .amoXorW _ _ _ => true
  | .amoMinW _ _ _ => true
  | .amoMaxW _ _ _ => true
  | .amoSwapW _ _ _ => true
  | .amoCasW _ _ _ _ => true
  | .amoAddFp32 _ _ _ => true
  | .amoMaxFp32 _ _ _ => true
  | .rdxInit _ => true
  | .rdxAddFp32 _ _ => true
  | .rdxAddBf16 _ _ => true
  | .rdxRead _ _ => true
  | .spawn _ => true
  | .spawnT _ _ => true
  | .tdone _ => true
  | .tyield => true
  | .texit => true
  | .help _ => true
  | .dqlen _ => true
  | .send _ _ _ _ => true
  | .sendMc _ _ _ _ => true
  | .sendMb _ _ _ => true
  | .sendMbF _ _ _ => true
  | .msgret => true
  | .gbar _ => true
  | .garrive => true
  | .gwait _ => true
  | .gquery _ _ => true
  | .gleave => true
  | .sborrow _ => true
  | .sreturn _ => true
  | .xmovTo _ _ _ => true
  | .xmovFrom _ _ _ => true
  | .xmovmTo _ _ _ _ => true
  | .xmovmFrom _ _ _ _ => true
  | .xmovxTo _ _ _ => true
  | .xmovxFrom _ _ _ => true
  | .qput _ _ => true
  | .qget _ _ => true
  | .qputNb _ _ _ => true
  | .qgetNb _ _ => true
  | .qlen _ _ => true
  | .vaddFp32 _ _ _ => true
  | .vsubFp32 _ _ _ => true
  | .vmulFp32 _ _ _ => true
  | .vdivFp32 _ _ _ => true
  | .vfmaFp32 _ _ _ => true
  | .vminFp32 _ _ _ => true
  | .vmaxFp32 _ _ _ => true
  | .vabsFp32 _ _ => true
  | .vnegFp32 _ _ => true
  | .vreluFp32 _ _ => true
  | .vaddbFp32 _ _ _ => true
  | .vmulbFp32 _ _ _ => true
  | .vaddBf16 _ _ _ => true
  | .vsubBf16 _ _ _ => true
  | .vmulBf16 _ _ _ => true
  | .vfmaBf16 _ _ _ => true
  | .vminBf16 _ _ _ => true
  | .vmaxBf16 _ _ _ => true
  | .vreluBf16 _ _ => true
  | .vaddI32 _ _ _ => true
  | .vsubI32 _ _ _ => true
  | .vmulI32 _ _ _ => true
  | .vminI32 _ _ _ => true
  | .vmaxI32 _ _ _ => true
  | .vandI32 _ _ _ => true
  | .vorI32 _ _ _ => true
  | .vxorI32 _ _ _ => true
  | .vshlI32 _ _ _ => true
  | .vsraI32 _ _ _ => true
  | .vreluI32 _ _ => true
  | .vexpFp32 _ _ => true
  | .vlogFp32 _ _ => true
  | .vrcpFp32 _ _ => true
  | .vrsqrtFp32 _ _ => true
  | .vsqrtFp32 _ _ => true
  | .vtanhFp32 _ _ => true
  | .vsigmFp32 _ _ => true
  | .vcmpEqFp32 _ _ _ => true
  | .vcmpLtFp32 _ _ _ => true
  | .vcmpLeFp32 _ _ _ => true
  | .vcmpEqI32 _ _ _ => true
  | .vcmpLtI32 _ _ _ => true
  | .vsel _ _ _ => true
  | .vsumFp32 _ _ => true
  | .vsumI32 _ _ => true
  | .vmaxrFp32 _ _ => true
  | .vbcast _ _ => true
  | .vget _ _ _ => true
  | .vset _ _ _ => true
  | .vcvtBf16Fp32 _ _ _ => true
  | .vcvtFp32Bf16 _ _ _ => true
  | .vcvtI32Fp32 _ _ => true
  | .vcvtFp32I32 _ _ => true
  | .vmov _ _ => true
  | .vld _ _ _ => true
  | .vst _ _ _ => true
  | .abind _ => true
  | .aunbind => true
  | .atypeFp32 _ => true
  | .atypeI32 _ => true
  | .atypeBf16 _ => true
  | .azero _ => true
  | .aqlen _ => true
  | .aver _ _ => true
  | .mma _ _ => true
  | .mmaSp6 _ _ => true
  | .mmaSp12 _ _ => true
  | .mmaZ _ _ => true
  | .await _ _ => true
  | .drain _ _ _ => true
  | .drainAdd _ _ _ => true
  | .acopy _ _ _ => true
  | .cpy _ _ => true
  | .cpyMm _ _ _ _ => true
  | .cpyMc _ _ => true
  | .cpyMmMc _ _ _ _ => true
  | .cpyAdd _ _ => true
  | .cpyFill _ _ => true
  | .cpyKeep _ _ => true
  | .cpySend _ _ _ => true
  | .cpyCancel _ _ => true
  | .cpyQuery _ _ => true
  | .xset _ _ _ => true
  | .xgetLo _ _ => true
  | .xgetHi _ _ => true
  | .xld _ _ _ => true
  | .xst _ _ _ => true
  | .xclr _ => true
  | .trap _ => true
  | .brk _ => true
  | .tback => true
  | .nap _ => true
  | .ifence => true
  | .cget _ _ => true
  | .cset _ _ => true
  | .cseti _ _ => true
  | .cclr _ _ _ => true
  | .cbis _ _ _ => true
  | .hcget _ _ => true
  | .hcset _ _ => true
  | .hstart _ _ _ _ => true
  | .hkill _ _ => true
  | .hrec _ => true
  | .hquiesce _ => true
  | .hpurge _ _ => true
  | .hcopy _ _ _ => true
  | .carouselIssue _ => false
  | .escalation _ => false
  | .serviceCall _ => false
  | .sealCreate _ _ _ _ => false
  | .sealOffer _ => false
  | .sealJoin _ _ => false
  | .sealRights _ => false
  | .sealLeave _ => false
  | .sealRekey _ => false
  | .sealImport _ _ => false
  | .sealExport _ _ => false
  | .loftSetFormat _ => false
  | .loftFormatApply _ => false
  | .napExpiry _ => false
  | .pageWalk _ _ => false
  | .pageRequest _ _ => false
  | .pageGrant _ _ => false
  | .pageRequestFail _ => false
  | .pageRequestTimeout _ => false
  | .rewalkReport _ _ => false
  | .portWake _ _ _ _ => false
  | .wakeHoldExpiry _ => false
  | .shootdown _ => false
  | .shootdownAck _ => false
  | .arriveLoad _ => false
  | .arriveStore _ => false
  | .arriveWf _ => false
  | .arriveWfc _ => false
  | .arriveWe _ => false
  | .arriveSf _ => false
  | .arrivePset _ => false
  | .arrivePclr _ => false
  | .arriveHelp _ => false
  | .arriveProbe _ => false
  | .arrivePget _ => false
  | .arriveWatch _ => false
  | .arriveUnwatch _ => false
  | .arriveAmo _ => false
  | .arriveRdxAdd _ => false
  | .rdxSlotRead _ _ => false
  | .rdxSum _ => false
  | .refusalRetry _ => false
  | .deadlineCheck => false
  | .cancel _ => false
  | .reply _ => false
  | .quarantineLift _ => false
  | .rekeySweepLine _ => false
  | .rekeyComplete _ => false
  | .keyErase _ => false
  | .matrixStart _ => false
  | .matrixComplete _ => false
  | .staleCommand _ => false
  | .awaitTimeout _ => false
  | .drainRun _ => false
  | .copyStart _ => false
  | .copyElement _ _ => false
  | .copyComplete _ _ => false
  | .followOnReady _ _ _ => false
  | .copyResume _ _ => false
  | .pop _ => false
  | .frameStart _ => false
  | .stealAttempt _ => false
  | .stealAnswer _ => false
  | .stealBackoff _ _ => false
  | .stateMark _ => false
  | .helpProcedure _ => false
  | .spawnRelease _ => false
  | .dequeReserve _ => false
  | .messageArrive _ => false
  | .handlerStart _ => false
  | .mailboxArrive _ => false
  | .gangMemberStart _ => false
  | .barrierReport _ => false
  | .barrierRelease _ => false
  | .slotRotation _ _ => false
  | .slotSwap _ => false
  | .loftHandover _ _ => false
  | .launchAcquire _ => false
  | .launchDone _ => false
  | .operatingPointChange _ _ => false
  | .powerThrottle _ => false
  | .thermalThrottle _ => false
  | .thermalReset => false
  | .contextStateError _ => false
  | .engineOutOfService _ _ => false
  | .dramParityAlert _ _ _ _ => false
  | .sparingStart _ _ => false
  | .sparingRowCopy _ => false
  | .bankRetire _ _ => false
  | .flitResend _ _ => false
  | .endToEndResend _ => false
  | .channelRetire _ => false
  | .heartbeatSend _ => false
  | .heartbeatReceive _ _ _ => false
  | .judgement _ _ => false
  | .fence _ => false
  | .frameRecovery _ => false
  | .selfTestEnd _ _ => false
  | .bar2PlainWrite _ _ _ _ => false
  | .bar2PlainRead _ _ _ => false
  | .bar2FillWrite _ _ _ _ => false
  | .bar2StatusRead _ _ => false
  | .bar2ReservedAlias _ _ _ => false
  | .mgmtRegisterWrite _ _ _ _ => false
  | .rmownClaim _ => false
  | .rmownHandover _ _ => false
  | .rmownAccept _ => false
  | .rmownCancel _ => false
  | .handoverTimeout => false
  | .i3cHeartbeat => false
  | .ownerLost => false
  | .ownerReturn => false
  | .electionTimeout => false
  | .vfbindWrite _ _ _ => false
  | .vfEnableClear _ => false
  | .attestation _ => false
  | .eqheadWrite _ _ => false
  | .errorRecordWrite => false
  | .icoalTimer _ _ => false
  | .msixUnmask _ _ => false
  | .firmwareBoot _ => false
  | .powerOn => false
  | .pcieFundamentalReset _ => false
  | .ownerResetRequest _ => false
  | .mcResetRequest => false
  | .supplyFault => false
  | .firmwareWatchdog => false
  | .tileReset _ _ => false
  | .bufferEntryFetch _ _ => false
  | .engineSelfTestEnd _ => false
  | .vfEnableSet _ => false

/-- The operand limits whose breach traps ILLEGAL_OPERAND at decoding (R183, R189). -/
def Instr.operandsOk : Instr → Bool
  | .mvN _ _ => true
  | .liN _ _ => true
  | .addN _ _ => true
  | .addiN _ _ => true
  | .subN _ _ => true
  | .shliN _ _ => true
  | .andN _ _ => true
  | .shriN _ _ => true
  | .orN _ _ => true
  | .sraiN _ _ => true
  | .xorN _ _ => true
  | .andiN _ _ => true
  | .ldN _ _ => true
  | .ldspN _ _ => true
  | .stN _ _ => true
  | .stspN _ _ => true
  | .beqzN _ _ => true
  | .bnezN _ _ => true
  | .jN _ => true
  | .jrN _ => true
  | .callrN _ => true
  | .retN => true
  | .nopN => true
  | .addspN _ => true
  | .add _ _ _ => true
  | .sub _ _ _ => true
  | .and _ _ _ => true
  | .or _ _ _ => true
  | .xor _ _ _ => true
  | .andn _ _ _ => true
  | .shl _ _ _ => true
  | .shr _ _ _ => true
  | .sra _ _ _ => true
  | .mul _ _ _ => true
  | .mulh _ _ _ => true
  | .mulhu _ _ _ => true
  | .div _ _ _ => true
  | .divu _ _ _ => true
  | .rem _ _ _ => true
  | .remu _ _ _ => true
  | .slt _ _ _ => true
  | .sltu _ _ _ => true
  | .min _ _ _ => true
  | .max _ _ _ => true
  | .clz _ _ => true
  | .popc _ _ => true
  | .addi _ _ _ => true
  | .andi _ _ _ => true
  | .ori _ _ _ => true
  | .xori _ _ _ => true
  | .slti _ _ _ => true
  | .sltui _ _ _ => true
  | .shli _ _ imm => limShli imm
  | .shri _ _ imm => limShri imm
  | .srai _ _ imm => limSrai imm
  | .addFp32 _ _ _ => true
  | .subFp32 _ _ _ => true
  | .mulFp32 _ _ _ => true
  | .divFp32 _ _ _ => true
  | .sqrtFp32 _ _ => true
  | .minFp32 _ _ _ => true
  | .maxFp32 _ _ _ => true
  | .fmaFp32 _ _ _ _ => true
  | .seqFp32 _ _ _ => true
  | .sltFp32 _ _ _ => true
  | .cvtI32Fp32 _ _ => true
  | .cvtFp32I32 _ _ => true
  | .lui _ _ => true
  | .lpc _ _ => true
  | .pmk _ _ _ => true
  | .pidx _ _ => true
  | .poff _ _ => true
  | .padd _ _ _ => true
  | .bfx _ _ b imm => limBfx b imm
  | .bfxu _ _ b imm => limBfxu b imm
  | .bfi _ _ b imm => limBfi b imm
  | .brEq _ _ _ => true
  | .brNe _ _ _ => true
  | .brLt _ _ _ => true
  | .brGe _ _ _ => true
  | .brLtu _ _ _ => true
  | .brGeu _ _ _ => true
  | .brLtz _ _ => true
  | .brGez _ _ => true
  | .jmp _ => true
  | .call _ _ => true
  | .jr _ _ => true
  | .callr _ _ _ => true
  | .ret => true
  | .loop _ _ => true
  | .ldB _ _ _ => true
  | .ldBz _ _ _ => true
  | .ldH _ _ _ => true
  | .ldHz _ _ _ => true
  | .ldW _ _ _ => true
  | .ldWz _ _ _ => true
  | .ldD _ _ _ => true
  | .ldDWf _ _ _ => true
  | .ldDWfc _ _ _ => true
  | .ldDWfHelp _ _ _ => true
  | .ldDWfcHelp _ _ _ => true
  | .ldDPr _ _ _ => true
  | .stB _ _ _ => true
  | .stH _ _ _ => true
  | .stW _ _ _ => true
  | .stD _ _ _ => true
  | .stDSf _ _ _ => true
  | .stDWe _ _ _ => true
  | .ldmD _ _ _ _ => true
  | .stmD _ _ _ _ => true
  | .pset _ _ => true
  | .pclr _ _ => true
  | .pget _ _ _ => true
  | .watch _ _ _ => true
  | .unwatch _ _ => true
  | .fenceAcqTile => true
  | .fenceAcqTower => true
  | .fenceAcqPkg => true
  | .fenceAcqDom => true
  | .fenceAcqWin => true
  | .fenceRelTile => true
  | .fenceRelTower => true
  | .fenceRelPkg => true
  | .fenceRelDom => true
  | .fenceRelWin => true
  | .fenceFullTile => true
  | .fenceFullTower => true
  | .fenceFullPkg => true
  | .fenceFullDom => true
  | .fenceFullWin => true
  | .amoAdd _ _ _ => true
  | .amoAnd _ _ _ => true
  | .amoOr _ _ _ => true
  | .amoXor _ _ _ => true
  | .amoMin _ _ _ => true
  | .amoMax _ _ _ => true
  | .amoSwap _ _ _ => true
  | .amoCas _ _ _ _ => true
  | .amoAddW _ _ _ => true
  | .amoAndW _ _ _ => true
  | .amoOrW _ _ _ => true
  | .amoXorW _ _ _ => true
  | .amoMinW _ _ _ => true
  | .amoMaxW _ _ _ => true
  | .amoSwapW _ _ _ => true
  | .amoCasW _ _ _ _ => true
  | .amoAddFp32 _ _ _ => true
  | .amoMaxFp32 _ _ _ => true
  | .rdxInit _ => true
  | .rdxAddFp32 _ _ => true
  | .rdxAddBf16 _ _ => true
  | .rdxRead _ _ => true
  | .spawn _ => true
  | .spawnT _ _ => true
  | .tdone _ => true
  | .tyield => true
  | .texit => true
  | .help _ => true
  | .dqlen _ => true
  | .send _ _ _ _ => true
  | .sendMc d _ _ _ => limSendMc d
  | .sendMb _ _ _ => true
  | .sendMbF _ _ _ => true
  | .msgret => true
  | .gbar _ => true
  | .garrive => true
  | .gwait _ => true
  | .gquery _ _ => true
  | .gleave => true
  | .sborrow _ => true
  | .sreturn _ => true
  | .xmovTo _ _ imm => limXmovTo imm
  | .xmovFrom _ _ imm => limXmovFrom imm
  | .xmovmTo _ _ _ imm => limXmovmTo imm
  | .xmovmFrom _ _ _ imm => limXmovmFrom imm
  | .xmovxTo _ b imm => limXmovxTo b imm
  | .xmovxFrom d _ imm => limXmovxFrom d imm
  | .qput _ imm => limQput imm
  | .qget _ imm => limQget imm
  | .qputNb _ _ imm => limQputNb imm
  | .qgetNb _ imm => limQgetNb imm
  | .qlen _ imm => limQlen imm
  | .vaddFp32 _ _ _ => true
  | .vsubFp32 _ _ _ => true
  | .vmulFp32 _ _ _ => true
  | .vdivFp32 _ _ _ => true
  | .vfmaFp32 _ _ _ => true
  | .vminFp32 _ _ _ => true
  | .vmaxFp32 _ _ _ => true
  | .vabsFp32 _ _ => true
  | .vnegFp32 _ _ => true
  | .vreluFp32 _ _ => true
  | .vaddbFp32 _ _ b => limVaddbFp32 b
  | .vmulbFp32 _ _ b => limVmulbFp32 b
  | .vaddBf16 _ _ _ => true
  | .vsubBf16 _ _ _ => true
  | .vmulBf16 _ _ _ => true
  | .vfmaBf16 _ _ _ => true
  | .vminBf16 _ _ _ => true
  | .vmaxBf16 _ _ _ => true
  | .vreluBf16 _ _ => true
  | .vaddI32 _ _ _ => true
  | .vsubI32 _ _ _ => true
  | .vmulI32 _ _ _ => true
  | .vminI32 _ _ _ => true
  | .vmaxI32 _ _ _ => true
  | .vandI32 _ _ _ => true
  | .vorI32 _ _ _ => true
  | .vxorI32 _ _ _ => true
  | .vshlI32 _ _ _ => true
  | .vsraI32 _ _ _ => true
  | .vreluI32 _ _ => true
  | .vexpFp32 _ _ => true
  | .vlogFp32 _ _ => true
  | .vrcpFp32 _ _ => true
  | .vrsqrtFp32 _ _ => true
  | .vsqrtFp32 _ _ => true
  | .vtanhFp32 _ _ => true
  | .vsigmFp32 _ _ => true
  | .vcmpEqFp32 _ _ _ => true
  | .vcmpLtFp32 _ _ _ => true
  | .vcmpLeFp32 _ _ _ => true
  | .vcmpEqI32 _ _ _ => true
  | .vcmpLtI32 _ _ _ => true
  | .vsel _ _ _ => true
  | .vsumFp32 _ _ => true
  | .vsumI32 _ _ => true
  | .vmaxrFp32 _ _ => true
  | .vbcast _ a => limVbcast a
  | .vget d _ b => limVget d b
  | .vset _ a b => limVset a b
  | .vcvtBf16Fp32 _ _ _ => true
  | .vcvtFp32Bf16 _ _ b => limVcvtFp32Bf16 b
  | .vcvtI32Fp32 _ _ => true
  | .vcvtFp32I32 _ _ => true
  | .vmov _ _ => true
  | .vld _ a b => limVld a b
  | .vst _ a b => limVst a b
  | .abind d => limAbind d
  | .aunbind => true
  | .atypeFp32 d => limAtypeFp32 d
  | .atypeI32 d => limAtypeI32 d
  | .atypeBf16 d => limAtypeBf16 d
  | .azero d => limAzero d
  | .aqlen _ => true
  | .aver _ a => limAver a
  | .mma d a => limMma d a
  | .mmaSp6 d a => limMmaSp6 d a
  | .mmaSp12 d a => limMmaSp12 d a
  | .mmaZ d a => limMmaZ d a
  | .await d _ => limAwait d
  | .drain d a _ => limDrain d a
  | .drainAdd d a _ => limDrainAdd d a
  | .acopy d a _ => limAcopy d a
  | .cpy a _ => limCpy a
  | .cpyMm d a _ _ => limCpyMm d a
  | .cpyMc a _ => limCpyMc a
  | .cpyMmMc d a _ _ => limCpyMmMc d a
  | .cpyAdd a _ => limCpyAdd a
  | .cpyFill a _ => limCpyFill a
  | .cpyKeep a _ => limCpyKeep a
  | .cpySend _ a _ => limCpySend a
  | .cpyCancel _ _ => true
  | .cpyQuery _ _ => true
  | .xset d _ _ => limXset d
  | .xgetLo _ a => limXgetLo a
  | .xgetHi _ a => limXgetHi a
  | .xld d _ _ => limXld d
  | .xst d _ _ => limXst d
  | .xclr d => limXclr d
  | .trap _ => true
  | .brk _ => true
  | .tback => true
  | .nap _ => true
  | .ifence => true
  | .cget _ imm => limCget imm
  | .cset _ imm => limCset imm
  | .cseti _ imm => limCseti imm
  | .cclr _ _ imm => limCclr imm
  | .cbis _ _ imm => limCbis imm
  | .hcget _ _ => true
  | .hcset _ _ => true
  | .hstart _ _ _ _ => true
  | .hkill _ _ => true
  | .hrec _ => true
  | .hquiesce _ => true
  | .hpurge _ _ => true
  | .hcopy _ _ _ => true
  | .carouselIssue _ => true
  | .escalation _ => true
  | .serviceCall _ => true
  | .sealCreate _ _ _ _ => true
  | .sealOffer _ => true
  | .sealJoin _ _ => true
  | .sealRights _ => true
  | .sealLeave _ => true
  | .sealRekey _ => true
  | .sealImport _ _ => true
  | .sealExport _ _ => true
  | .loftSetFormat _ => true
  | .loftFormatApply _ => true
  | .napExpiry _ => true
  | .pageWalk _ _ => true
  | .pageRequest _ _ => true
  | .pageGrant _ _ => true
  | .pageRequestFail _ => true
  | .pageRequestTimeout _ => true
  | .rewalkReport _ _ => true
  | .portWake _ _ _ _ => true
  | .wakeHoldExpiry _ => true
  | .shootdown _ => true
  | .shootdownAck _ => true
  | .arriveLoad _ => true
  | .arriveStore _ => true
  | .arriveWf _ => true
  | .arriveWfc _ => true
  | .arriveWe _ => true
  | .arriveSf _ => true
  | .arrivePset _ => true
  | .arrivePclr _ => true
  | .arriveHelp _ => true
  | .arriveProbe _ => true
  | .arrivePget _ => true
  | .arriveWatch _ => true
  | .arriveUnwatch _ => true
  | .arriveAmo _ => true
  | .arriveRdxAdd _ => true
  | .rdxSlotRead _ _ => true
  | .rdxSum _ => true
  | .refusalRetry _ => true
  | .deadlineCheck => true
  | .cancel _ => true
  | .reply _ => true
  | .quarantineLift _ => true
  | .rekeySweepLine _ => true
  | .rekeyComplete _ => true
  | .keyErase _ => true
  | .matrixStart _ => true
  | .matrixComplete _ => true
  | .staleCommand _ => true
  | .awaitTimeout _ => true
  | .drainRun _ => true
  | .copyStart _ => true
  | .copyElement _ _ => true
  | .copyComplete _ _ => true
  | .followOnReady _ _ _ => true
  | .copyResume _ _ => true
  | .pop _ => true
  | .frameStart _ => true
  | .stealAttempt _ => true
  | .stealAnswer _ => true
  | .stealBackoff _ _ => true
  | .stateMark _ => true
  | .helpProcedure _ => true
  | .spawnRelease _ => true
  | .dequeReserve _ => true
  | .messageArrive _ => true
  | .handlerStart _ => true
  | .mailboxArrive _ => true
  | .gangMemberStart _ => true
  | .barrierReport _ => true
  | .barrierRelease _ => true
  | .slotRotation _ _ => true
  | .slotSwap _ => true
  | .loftHandover _ _ => true
  | .launchAcquire _ => true
  | .launchDone _ => true
  | .operatingPointChange _ _ => true
  | .powerThrottle _ => true
  | .thermalThrottle _ => true
  | .thermalReset => true
  | .contextStateError _ => true
  | .engineOutOfService _ _ => true
  | .dramParityAlert _ _ _ _ => true
  | .sparingStart _ _ => true
  | .sparingRowCopy _ => true
  | .bankRetire _ _ => true
  | .flitResend _ _ => true
  | .endToEndResend _ => true
  | .channelRetire _ => true
  | .heartbeatSend _ => true
  | .heartbeatReceive _ _ _ => true
  | .judgement _ _ => true
  | .fence _ => true
  | .frameRecovery _ => true
  | .selfTestEnd _ _ => true
  | .bar2PlainWrite _ _ _ _ => true
  | .bar2PlainRead _ _ _ => true
  | .bar2FillWrite _ _ _ _ => true
  | .bar2StatusRead _ _ => true
  | .bar2ReservedAlias _ _ _ => true
  | .mgmtRegisterWrite _ _ _ _ => true
  | .rmownClaim _ => true
  | .rmownHandover _ _ => true
  | .rmownAccept _ => true
  | .rmownCancel _ => true
  | .handoverTimeout => true
  | .i3cHeartbeat => true
  | .ownerLost => true
  | .ownerReturn => true
  | .electionTimeout => true
  | .vfbindWrite _ _ _ => true
  | .vfEnableClear _ => true
  | .attestation _ => true
  | .eqheadWrite _ _ => true
  | .errorRecordWrite => true
  | .icoalTimer _ _ => true
  | .msixUnmask _ _ => true
  | .firmwareBoot _ => true
  | .powerOn => true
  | .pcieFundamentalReset _ => true
  | .ownerResetRequest _ => true
  | .mcResetRequest => true
  | .supplyFault => true
  | .firmwareWatchdog => true
  | .tileReset _ _ => true
  | .bufferEntryFetch _ _ => true
  | .engineSelfTestEnd _ => true
  | .vfEnableSet _ => true

/-- A well-formed instruction: it has a word, and its operands exist. -/
def WellFormed (i : Instr) : Bool := i.encodable && i.operandsOk

end Sys2Proof
end

