-- ==== Sys2Proof/Machine/Ops.lean ====
section
/-! DEFINITION. The named operations over contexts, tiles, registers and memory that every meaning is written with: register
access, blocking, taking a trap and returning from one (R317, R319), error records (R374), and the words and tags of memory. -/

namespace Sys2Proof.Machine

open Sys2Proof (Word Byte Elem Instr)

/-- The outcome of a step. -/
abbrev Out := Host.Outcome State Fault Refusal

/-! ### Fields -/

/-- Bits [hi:lo] of a word (R5). -/
def fld (w : Word) (hi lo : Nat) : Nat := w.toNat / 2 ^ lo % 2 ^ (hi + 1 - lo)

/-- Bit `n` of a word. -/
def bit (w : Word) (n : Nat) : Bool := fld w n n == 1

/-- A word from a number, taken modulo 2^64. -/
def wd (n : Nat) : Word := BitVec.ofNat 64 n

/-- Sign extension to 64 bits. -/
def sext {n : Nat} (x : BitVec n) : Word := x.signExtend 64

/-- One bit as a number. -/
def b2n (b : Bool) : Nat := if b then 1 else 0

/-- The bit of a number set or cleared. -/
def setBitIf {n : Nat} (x : BitVec n) (k : Nat) (v : Bool) : BitVec n :=
  if v then x ||| BitVec.ofNat n (2 ^ k) else x &&& ~~~ (BitVec.ofNat n (2 ^ k))

/-! ### Trap causes (R326) -/

abbrev cILLEGAL_OP : Nat := 0x01
abbrev cILLEGAL_OPERAND : Nat := 0x02
abbrev cALIGN : Nat := 0x03
abbrev cBUFFER_INVALID : Nat := 0x04
abbrev cBOUNDS : Nat := 0x05
abbrev cRIGHTS : Nat := 0x06
abbrev cPAGE_FAULT : Nat := 0x07
abbrev cLOFT_BOUNDS : Nat := 0x08
abbrev cWAIT_TIMEOUT : Nat := 0x09
abbrev cWAIT_OVERFLOW : Nat := 0x0A
abbrev cMSG_REJECT : Nat := 0x0B
abbrev cDEAD_TARGET : Nat := 0x0C
abbrev cPOISON_CONSUMED : Nat := 0x0D
abbrev cSEAL_INTEGRITY : Nat := 0x0E
abbrev cGANG_LOST : Nat := 0x0F
abbrev cFORMAT_MISMATCH : Nat := 0x10
abbrev cVERSION_RANGE : Nat := 0x11
abbrev cSTAGE_FAULT : Nat := 0x12
abbrev cSLOT_FAULT : Nat := 0x13
abbrev cBREAK : Nat := 0x14
abbrev cSYSCALL : Nat := 0x15
abbrev cENGINE_FAULT : Nat := 0x16
abbrev cPRIVILEGE : Nat := 0x17
abbrev cWINDOW_RIGHTS : Nat := 0x18

/-! ### Contexts and tiles -/

def ctxId (tile slot : Nat) : Nat := tile * 512 + slot
def tileOf (id : Nat) : Nat := id / 512
def slotOf (id : Nat) : Nat := id % 512

def State.ctxAt (s : State) (id : Nat) : Ctx := Map.get (fun _ => {}) s.ctxs id
def State.setCtxAt (s : State) (id : Nat) (c : Ctx) : State := { s with ctxs := Map.set (fun _ => {}) s.ctxs id c }
def State.tileAt (s : State) (t : Nat) : Tile := Map.get (fun _ => {}) s.tiles t
def State.setTileAt (s : State) (t : Nat) (x : Tile) : State := { s with tiles := Map.set (fun _ => {}) s.tiles t x }

/-- The context that issues. -/
def State.me (s : State) : Ctx := s.ctxAt s.cur
def State.setMe (s : State) (c : Ctx) : State := s.setCtxAt s.cur c
/-- The tile that issues. -/
def State.myTile (s : State) : Tile := s.tileAt (tileOf s.cur)
def State.setMyTile (s : State) (x : Tile) : State := s.setTileAt (tileOf s.cur) x

/-- A house slot runs only device firmware (R4). -/
def houseSlot (id : Nat) : Bool := 504 ≤ slotOf id

/-- Reset value of PCFG p (R149). -/
def pcfgReset (p : Nat) : Word := if p = 16 then wd (2 ^ 63 + 504 * 2 ^ 54 + 8 * 2 ^ 44 + 8 * 2 ^ 36) else 0

def Tile.pcfgAt (t : Tile) (p : Nat) : Word := Map.get pcfgReset t.pcfg p

/-- Is the slot one of partition p's (R149)? PCFG 16 is fixed at slots 504–511. -/
def Tile.owns (t : Tile) (p slot : Nat) : Bool :=
  if p = 16 then bit (t.pcfgAt 16) 63 && 504 ≤ slot && slot < 512
  else
    let w := t.pcfgAt p
    bit w 63 && fld w 62 54 ≤ slot && slot < fld w 62 54 + fld w 53 44

/-- The partition of a slot: 0–15, 16 for house, 17 for none. -/
def Tile.partOf (t : Tile) (slot : Nat) : Nat :=
  if 504 ≤ slot then (if t.owns 16 slot then 16 else 17) else ((List.range 16).find? (fun p => t.owns p slot)).getD 17

def State.partOf (s : State) (id : Nat) : Nat := (s.tileAt (tileOf id)).partOf (slotOf id)

/-- Tenant hosted by partition p in a tile (R149). -/
def Tile.tenantOf (t : Tile) (p : Nat) : Nat := fld (t.pcfgAt p) 15 0

/-- A tile island is running when it is at N, L1, L2 or G and its tile is not fenced (R12), nor in the self-test of a reset (R381). -/
def Tile.running (t : Tile) : Bool := decide (t.point ≠ .off) && !t.herd.fenced && !t.herd.resetting

/-- A tile whose units move: at N, L1 or L2 and not fenced (R23). -/
def Tile.clocked (t : Tile) : Bool := t.running && decide (t.point ≠ .g)

/-- Operating point of a tower's base logic, 0–15, or of Midway, 16 (R22). -/
def State.infraAt (s : State) (k : Nat) : Point := Map.get (fun _ => .n) s.infra k

/-- Is a rotation of the partition under way (R175)? And have all its slots been handed over, its loft not yet (R176)? -/
def State.turning (s : State) (part : Nat) : Bool := s.rotations.any (fun r => r.part == part)
def State.handing (s : State) (part : Nat) : Bool := s.rotations.any (fun r => r.part == part && r.left.isEmpty)
/-- The rotation that has handed the slot over, and not its tile's loft and barrier objects. -/
def State.handedOver (s : State) (id : Nat) : Option Rotation :=
  s.rotations.find? (fun r => r.part == s.partOf id && !r.left.contains id && r.tiles.contains (tileOf id))

/-! ### Registers -/

def Ctx.getG (c : Ctx) (n : Nat) : GVal := if n = 0 then {} else Map.get (fun _ => {}) c.g n

/-- Write g n; a write to g0 is discarded (R185, R186). The register no longer awaits an earlier load. -/
def Ctx.setG (c : Ctx) (n : Nat) (v : GVal) : Ctx :=
  if n = 0 then c else { c with g := Map.set (fun _ => {}) c.g n v, pend := Map.erase c.pend n }

/-- Half `k mod 2` of e register `k / 2`. -/
def Ctx.getE (c : Ctx) (k : Nat) : GVal := Map.get (fun _ => {}) c.e k
def Ctx.setE (c : Ctx) (k : Nat) (v : GVal) : Ctx :=
  { c with e := Map.set (fun _ => {}) c.e k v, pend := Map.erase c.pend (32 + k) }

/-- The request a register awaits; 0 for none. Key n for g n, 32 + 2n + h for half h of e n. -/
def Ctx.awaits (c : Ctx) (key : Nat) : Nat := Map.get (fun _ => 0) c.pend key

/-- Does a register of the list await a load (R202)? g0 never does. -/
def Ctx.awaiting (c : Ctx) (keys : List Nat) : Bool := keys.any (fun k => k != 0 && c.awaits k != 0)

/-- Mark registers as awaiting request `id`. -/
def Ctx.expect (c : Ctx) (keys : List Nat) (id : Nat) : Ctx :=
  { c with pend := keys.foldl (fun m k => if k = 0 then m else Map.set (fun _ => 0) m k id) c.pend }

def Ctx.setKey (c : Ctx) (key : Nat) (v : GVal) : Ctx := if key < 32 then c.setG key v else c.setE (key - 32) v

/-- Fill a register with the answer of request `id`, unless a later instruction has written it meanwhile. -/
def Ctx.deliver (c : Ctx) (id key : Nat) (v : GVal) : Ctx :=
  if key = 0 then c else if c.awaits key = id then c.setKey key v else c

/-- Keys of the two halves of an e register. -/
def eKeys (n : Nat) : List Nat := [32 + 2 * n, 32 + 2 * n + 1]

/-! ### Going on, blocking -/

/-- The context goes on `len` bytes further. -/
def Ctx.advance (c : Ctx) (len : Nat) : Ctx :=
  { c with pc := c.pc + wd len, again := 0, plainWait := false, barWait := false, seen := [], walked := [], hold := none }

/-- The instruction completes: the context becomes `c` and goes on after it. -/
def State.complete (s : State) (c : Ctx) (len : Nat) : Out := .next (s.setMe (c.advance len))

def Ctx.block (c : Ctx) (w : Why) : Ctx := { c with st := .blocked w }

/-- The context is BLOCKED and issues the same instruction again (R147, R202). -/
def State.stall (s : State) : Out := .next (s.setMe (s.me.block .retry))

/-- Contexts that wait to issue again may try again. -/
def retryAll : Map Ctx → Map Ctx
  | [] => []
  | (k, c) :: m => (k, if c.st = .blocked .retry then { c with st := .ready } else c) :: retryAll m

def State.unstall (s : State) : State := { s with ctxs := retryAll s.ctxs }

/-- The meaning runs once every register it reads is there (R202); until then the context is BLOCKED. -/
def State.reading (s : State) (keys : List Nat) (k : Ctx → Out) : Out :=
  if s.me.awaiting keys then s.stall else k s.me

/-! ### Traps (R317, R319) -/

/-- Code pointers name index 0x3_FFFE (R179). -/
def codeBase : Word := 0xFFFF800000000000

/-- The checks of R179 on a target, in their order; the cause of the first that fails. -/
def targetFault (t : Word) : Option Nat :=
  if fld t 63 46 ≠ 0x3FFFE then some cILLEGAL_OPERAND
  else if fld t 45 0 % 2 = 1 then some cALIGN
  else if 0x40000 ≤ fld t 45 0 then some cLOFT_BOUNDS
  else none

/-- The trapping context issues nothing further; a house slot takes the trap (R318). -/
def Ctx.escalate (c : Ctx) (cause : Nat) (epc tval : Word) : Ctx :=
  { c with
    st := .blocked (.escalated cause epc tval none), wait := none, again := 0, plainWait := false, barWait := false, seen := []
    walked := [], hold := none, faulted := c.faulted || c.handling }

/-- Taking a trap, for every precise cause (R317). -/
def Ctx.enter (c : Ctx) (cause : Nat) (epc tval : Word) : Ctx :=
  if c.inTrap || c.trapvec == 0 || (targetFault c.trapvec).isSome then c.escalate cause epc tval
  else
    { c with
      st := .ready
      wait := none
      again := 0
      plainWait := false
      barWait := false
      seen := []
      walked := []
      hold := none
      faulted := c.faulted || c.handling
      cause := BitVec.ofNat 8 cause
      adopted := decide (c.depth ≠ 0)
      epc := epc
      tval := tval
      inTrap := true
      pc := c.trapvec }

def State.trapAt (s : State) (id cause : Nat) (tval : Word) : State :=
  s.setCtxAt id ((s.ctxAt id).enter cause (s.ctxAt id).pc tval)

/-- The instruction traps precisely: c.epc names it, and it has no effect (R8, R325). -/
def State.trap (s : State) (cause : Nat) (tval : Word) : Out := .next (s.trapAt s.cur cause tval)

/-- POISON_CONSUMED with the poison-origin latch in c.tval (R327). -/
def State.trapPoison (s : State) (tv : Word) : Out := s.trap cPOISON_CONSUMED tv

/-- Return from a trap (R319): an INTRAP of 0, and a target that fails R179, both escalate. -/
def State.trapReturn (s : State) : Out :=
  let c := s.me
  if c.inTrap = false then .next (s.setMe (c.escalate cILLEGAL_OPERAND c.pc 0))
  else
    match targetFault c.epc with
    | some cause => .next (s.setMe (c.escalate cause c.pc c.epc))
    | none => .next (s.setMe { c with inTrap := false, pc := c.epc })

/-- An ordering point first traps a failure that a non-blocking reference met at its home (R409). `tv` is c.tval in a compact
form, which holds the halfword (R192). -/
def State.orderPoint (s : State) (k : State → Out) : Out :=
  match s.me.deferred with
  | some (cause, p) => .next ((s.setMe { s.me with deferred := none }).trapAt s.cur cause p)
  | none => k s

/-- The operand limits of R183 and of the code point; a breach traps ILLEGAL_OPERAND with the word in c.tval (R189). -/
def State.checked (s : State) (ok : Bool) (word : Nat) (k : Out) : Out :=
  if ok then k else s.trap cILLEGAL_OPERAND (wd word)

/-- A device-firmware instruction in a slot below 504 traps PRIVILEGE with the word in c.tval (R189, R322). -/
def State.house (s : State) (word : Nat) (k : Out) : Out :=
  if houseSlot s.cur then k else s.trap cPRIVILEGE (wd word)

/-! ### Numbers for requests and free values -/

def State.freshId (s : State) : Nat := s.fresh + 1
def State.bumpId (s : State) : State := { s with fresh := s.fresh + 1 }
def State.bumpFree (s : State) : State := { s with free := s.free + 1 }

/-! ### Device physical addresses (R41) -/

def mkDpa (loft : Bool) (pkg tile bank off : Nat) : Nat :=
  b2n loft * 2 ^ 63 + pkg * 2 ^ 55 + tile * 2 ^ 45 + bank * 2 ^ 38 + off

def dpaLoft (d : Nat) : Bool := d / 2 ^ 63 % 2 == 1
def dpaPkg (d : Nat) : Nat := d / 2 ^ 55 % 256
def dpaTile (d : Nat) : Nat := d / 2 ^ 45 % 1024
def dpaBank (d : Nat) : Nat := d / 2 ^ 38 % 128
def dpaOff (d : Nat) : Nat := d % 2 ^ 25

/-- Does a word stand at the address (R9, R10, R41)? Vault: banks 0–31 of 24 MiB. Loft: general banks 0–31 of 128 KiB, slices
64–127 of 64 KiB. -/
def dpaLegal (d : Nat) : Bool :=
  d < 2 ^ 64 && d / 2 ^ 25 % 2 ^ 13 == 0 &&
    (if dpaLoft d then
      (dpaBank d < 32 && dpaOff d < 0x20000) || (64 ≤ dpaBank d && dpaOff d < 0x10000)
    else dpaBank d < 32 && dpaOff d < 0x1800000)

/-- The word and the line that hold a byte. -/
def wordOf (d : Nat) : Nat := d / 8 * 8
def lineOf (d : Nat) : Nat := d / 64 * 64

/-- DPA of a loft offset of a tile of this package (R37). -/
def State.loftDpa (s : State) (tile off : Nat) : Nat :=
  if off < 0x400000 then mkDpa true s.package.toNat tile (off / 0x20000) (off % 0x20000)
  else mkDpa true s.package.toNat tile (64 + (off - 0x400000) / 0x10000) ((off - 0x400000) % 0x10000)

/-! ### Bytes, words and tags of memory -/

/-- What a byte that nothing has written reads as: 0 (R61). -/
def unwritten : Nat → Byte := fun _ => 0

/-- The canonical form of memory. -/
def Memory.wf (m : List Host.Cell) : Bool := Map.wf unwritten m

def readByte (m : List Host.Cell) (a : Nat) : Byte := Map.get unwritten m a
def writeByte (m : List Host.Cell) (a : Nat) (b : Byte) : List Host.Cell := Map.set unwritten m a b

/-- `n` bytes from address `a`, little-endian (R5). -/
def readBytes (m : List Host.Cell) (a : Nat) : Nat → Nat
  | 0 => 0
  | n + 1 => (readByte m a).toNat + 256 * readBytes m (a + 1) n

def writeBytes (m : List Host.Cell) (a : Nat) : Nat → Nat → List Host.Cell
  | 0, _ => m
  | n + 1, w => writeBytes (writeByte m a (BitVec.ofNat 8 w)) (a + 1) n (w / 256)

/-- Does the byte lie in a vault bank that is retired in place (R338)? -/
def State.retiredAt (s : State) (d : Nat) : Bool :=
  !dpaLoft d && dpaPkg d == s.package.toNat
    && (Map.get (fun _ => {}) s.spares (dpaTile d)).retired.any (fun x => x.1 == dpaBank d && decide (x.2 ≤ dpaOff d))

def State.word (s : State) (d : Nat) : Word := wd (readBytes s.mem (wordOf d) 8)
/-- Every word of a retired bank reads as full and poisoned. -/
def State.tagAt (s : State) (d : Nat) : Tag :=
  let t : Tag := Map.get (fun _ => {}) s.tags (wordOf d)
  if s.retiredAt d then { t with full := true, poison := true } else t
def State.setTagAt (s : State) (d : Nat) (t : Tag) : State :=
  { s with tags := Map.set (fun _ => {}) s.tags (wordOf d) t }
/-- The halfwords of a code bank that a write of `width` bytes overwrites; a context may have fetched them ahead (R111). -/
def State.oldCode (s : State) (d width : Nat) : List (Nat × Nat) :=
  if dpaLoft d && decide (dpaBank d < 2) then
    (List.range ((d % 2 + width + 1) / 2)).map (fun j => (d / 2 * 2 + 2 * j, readBytes s.mem (d / 2 * 2 + 2 * j) 2))
  else []
/-- The command that occupies the array: it has started, and chunks of it are left (R281). -/
def Tile.inArray (t : Tile) : Option MCmd := t.mq.find? (fun m => m.running && decide (0 < m.left))

/-- The words that a write of `width` bytes changes in the data banks and slices of a tile whose array works; it may have read them before
(R89). -/
def State.oldData (s : State) (d width : Nat) : List OldWord :=
  if dpaLoft d && decide (2 ≤ dpaBank d) then
    match (s.tileAt (dpaTile d)).inArray with
    | none => []
    | some m =>
      (List.range ((d % 8 + width + 7) / 8)).map (fun j =>
        { cmd := m.id, dpa := wordOf d + 8 * j, val := ⟨s.word (wordOf d + 8 * j), (s.tagAt (wordOf d + 8 * j)).poison⟩ })
  else []

/-- A write to a retired bank is discarded. -/
def State.poke (s : State) (d width : Nat) (v : Nat) : State :=
  if s.retiredAt d then s
  else { s with mem := writeBytes s.mem d width v, codeOld := s.codeOld ++ s.oldCode d width, dataOld := s.dataOld ++ s.oldData d width }
def State.gval (s : State) (d : Nat) : GVal :=
  { v := if s.retiredAt d then Sys2Proof.Config.freeWord d else s.word d, p := (s.tagAt d).poison }

/-- Does the quarantine cover the byte? -/
def Quarantine.covers (q : Quarantine) (pkg d : Nat) : Bool :=
  !dpaLoft d && dpaPkg d == pkg && dpaTile d == q.tile && dpaBank d == q.bank
    && decide (q.lo ≤ dpaOff d) && decide (dpaOff d < q.lo + q.len)

def State.quarantined (s : State) (d : Nat) : Bool := s.quarantines.any (fun q => q.covers s.package.toNat d)

/-! ### Error records (R374) -/

/-- Coordinates in the layout of c.coord (R19). -/
def State.coordOf (s : State) (tile slot stage : Nat) : Word :=
  wd (s.domain.toNat * 2 ^ 30 + s.package.toNat * 2 ^ 22 + tile * 2 ^ 12 + slot * 2 ^ 3 + stage)

def State.post (s : State) (r : RecordSpec) : State :=
  let w0 := r.code * 2 ^ 48 + r.sev * 2 ^ 45 + r.engine * 2 ^ 40 + r.tenant % 2 ^ 16 * 2 ^ 24 + b2n r.adopted * 2 ^ 22
    + r.scope * 2 ^ 20 + (if r.part < 16 then r.part else 15) * 2 ^ 16
  let w1 := match r.ctx with
    | some id => s.coordOf (tileOf id) (slotOf id) (r.stage.getD (s.ctxAt id).stage.toNat)
    | none => wd (2 ^ 63) ||| s.coordOf r.tile 0 0
  let w6 := wd (r.action * 2 ^ 48 + min r.count (2 ^ 32 - 1))
  { s with records := s.records ++ [⟨wd w0, w1, r.frame, r.ptr, r.dpa, s.cycle, w6, r.detail⟩] }

/-! ### Pointers -/

def ptrIdx (p : Word) : Nat := fld p 63 46
def ptrOff (p : Word) : Nat := fld p 45 0

/-- IDX kept, OFF plus a signed displacement modulo 2^46 (R210, R218). -/
def padd (p b : Word) : Word := wd (ptrIdx p * 2 ^ 46 + (ptrOff p + b.toNat) % 2 ^ 46)

/-- The forms of an instruction (R192): its length, and the halfword that c.tval holds in a compact form. -/
structure Form where
  len : Nat := 4
  half : Option Word := none
  deriving DecidableEq, Repr

/-- A compact form acts as its 32-bit instruction, but for its length and c.tval (R192). -/
def compactForm (word : Nat) : Form := { len := 2, half := some (wd word) }

/-- c.tval of a trap the form raises. -/
def Form.tv (f : Form) (tval : Word) : Word := f.half.getD tval

end Sys2Proof.Machine
end

