-- ==== Sys2Proof/Machine/Flags.lean ====
section
/-! DEFINITION. What the device has for flags: the poison flag of each value (R185, R201, R327), and the fields of c.status
and c.cause (R312, R187). -/

namespace Sys2Proof.Machine

open Sys2Proof (Word Byte Elem Instr)

/-- A result is poisoned when a register it was computed from is (R201). -/
def poisonOf (xs : List GVal) : Bool := xs.any (fun x => x.p)

/-- The poison-origin latch takes the pointer of a poisoned word that arrives (R327). -/
def Ctx.latchIf (c : Ctx) (poisoned : Bool) (ptr : Word) : Ctx := if poisoned then { c with latch := ptr } else c

/-- The deferred-fault register takes a failure unless it holds one (R409). -/
def Ctx.defer (c : Ctx) (cause : Nat) (ptr : Word) : Ctx :=
  match c.deferred with
  | some _ => c
  | none => { c with deferred := some (cause, ptr) }

end Sys2Proof.Machine
end

