-- ==== Sys2Proof/Machine/Translate.lean ====
section
/-! DEFINITION. Interleave regions and homes (R38 to R42), buffer-table entries and their validity (R30, R31, R46), the loft
check (R37, R80, R81), the page tree (R43 to R45), the checks of R32 with the caches of a buffer port (R35, R47, R48) for a
context, and directly from the tables for the units of a tile (log 10). -/

namespace Sys2Proof.Machine

open Sys2Proof (Word Byte Elem Instr)

/-! ### Regions (R38 to R40, R42) -/

/-- Parity of the low `n` bits. -/
def parity (x : Nat) : Nat → Nat
  | 0 => 0
  | n + 1 => (x % 2 + parity (x / 2) n) % 2

/-- The fields of IRCFG (R38). -/
structure Region where
  v : Bool
  scope : Nat
  glog : Nat
  plog : Nat
  home : Nat
  pkgBase : Nat
  rdx : Bool
  reserved : Nat
  bankBase : Nat
  perBank : Nat
  deriving DecidableEq, Repr

def regionOf (w : Word) : Region :=
  { v := bit w 63, scope := fld w 62 61, glog := fld w 60 57, plog := fld w 56 53, home := fld w 52 43
    pkgBase := fld w 42 35, rdx := bit w 34, reserved := fld w 33 32, bankBase := fld w 31 16, perBank := fld w 15 0 }

def State.region (s : State) (k : Nat) : Region := regionOf (Map.get (fun _ => 0) s.ircfg k)

/-- IRHASH[i] of region k (R39). -/
def State.hashRow (s : State) (k i : Nat) : Nat := (Map.get (fun _ => 0) s.irhash (k * 32 + i)).toNat % 2 ^ 32

/-- Hash width h (R39, R42). -/
def Region.h (r : Region) : Nat :=
  if r.rdx then 5
  else if r.scope = 0 then 5 else if r.scope = 1 then 11 else if r.scope = 2 then 15 else 15 + r.plog

/-- Number of home tiles (R39); a reduction region has one cell slot position in each tile (R42). -/
def Region.homes (r : Region) : Nat :=
  if r.rdx then 1
  else if r.scope = 0 then 1 else if r.scope = 1 then 64 else if r.scope = 2 then 1024 else 1024 * 2 ^ r.plog

def Region.size (r : Region) : Nat := r.perBank * 0x10000 * 32 * r.homes

/-- May region number `k` have this configuration (R38, R42)? A range that meets the Oryx reserve, units 336 and up, is no valid region:
firmware refuses it (R110; log 48). -/
def Region.okFor (r : Region) (k : Nat) : Bool :=
  r.v && decide (k < 32) && decide (r.reserved = 0) && decide (r.glog ≤ 10)
    && (if 16 ≤ k then r.scope == 3 else r.scope != 3)
    && (if r.scope = 3 then decide (r.plog ≤ 8) && decide (r.pkgBase + 2 ^ r.plog ≤ 256) else r.plog == 0)
    && (if r.scope = 0 then true
        else if r.scope = 1 then decide (r.home < 16)
        else if r.scope = 2 ∧ r.rdx = true then true else r.home == 0)
    && (!r.rdx || r.scope == 2)
    && decide (1 ≤ r.perBank) && decide (r.bankBase + r.perBank ≤ 336)

/-- Is region `k` valid in this package? Every package of a domain region is in the domain (R42). -/
def State.regionOk (s : State) (k : Nat) : Bool :=
  let r := s.region k
  r.okFor k && (r.scope != 3 || (List.range (2 ^ r.plog)).all (fun j =>
    r.pkgBase + j == s.package.toNat || Map.get (fun _ => false) s.members (r.pkgBase + j)))

/-- S[i] of R40 for i below `n`, as one number. -/
def State.selector (s : State) (k l q : Nat) : Nat → Nat
  | 0 => 0
  | n + 1 => s.selector k l q n + (l / 2 ^ n % 2 + parity (s.hashRow k n &&& q % 2 ^ 32) 32) % 2 * 2 ^ n

/-- Home of region address `ra` in region `k`, as a device physical address (R40, R41). -/
def State.homeOf (s : State) (k ra : Nat) : Nat :=
  let r := s.region k
  let g := 2 ^ (6 + r.glog)
  let n := ra / g
  let q := n / 2 ^ r.h
  let sel := s.selector k (n % 2 ^ r.h) q r.h
  let tile :=
    if r.rdx = true ∨ r.scope = 0 then r.home
    else if r.scope = 1 then r.home % 16 * 64 + sel / 32 % 64
    else sel / 32 % 1024
  let pkg := if r.scope = 3 then r.pkgBase + sel / 2 ^ 15 else s.package.toNat
  mkDpa false pkg tile (sel % 32) (r.bankBase * 0x10000 + q * g + ra % g)

/-- The region address whose home is `d`: the hash of R40 is its own inverse. -/
def State.regionAddr (s : State) (k d : Nat) : Option Nat :=
  let r := s.region k
  let g := 2 ^ (6 + r.glog)
  let off := dpaOff d - r.bankBase * 0x10000
  let q := off / g
  let sel :=
    if r.rdx = true ∨ r.scope = 0 then dpaBank d
    else if r.scope = 1 then dpaBank d + 32 * (dpaTile d % 64)
    else if r.scope = 2 then dpaBank d + 32 * dpaTile d
    else dpaBank d + 32 * dpaTile d + 2 ^ 15 * (dpaPkg d - r.pkgBase)
  let ra := (q * 2 ^ r.h + s.selector k sel q r.h) * g + off % g
  if s.homeOf k ra = d then some ra else none

/-- The window that a line belongs to (R124). -/
def State.windowOf (s : State) (d : Nat) : Option Window :=
  s.windows.find? (fun w =>
    match s.regionAddr w.region d with
    | some ra => decide (w.base ≤ ra) && decide (ra < w.base + w.size)
    | none => false)

/-! ### Buffer-table entries (R29 to R31) -/

def BufEntry.valid (e : BufEntry) : Bool := bit e.w0 63
def BufEntry.paged (e : BufEntry) : Bool := bit e.w0 62
def BufEntry.win (e : BufEntry) : Bool := bit e.w0 61
def BufEntry.region (e : BufEntry) : Nat := fld e.w0 55 50
def BufEntry.gen (e : BufEntry) : Nat := fld e.w0 49 34
def BufEntry.key (e : BufEntry) : Nat := fld e.w0 33 26
def BufEntry.owner (e : BufEntry) : Nat := fld e.w0 25 10
def BufEntry.base (e : BufEntry) : Nat := fld e.w1 47 0
def BufEntry.size (e : BufEntry) : Nat := fld e.w2 46 0

/-- Rights, as in the four bits w0 [59:56]. -/
structure Need where
  r : Bool := false
  w : Bool := false
  a : Bool := false
  s : Bool := false
  deriving DecidableEq, Repr

/-- Write-class references need W or A (R44). -/
def Need.writes (n : Need) : Bool := n.w || n.a

def BufEntry.grants (e : BufEntry) (n : Need) : Bool :=
  (!n.r || bit e.w0 59) && (!n.w || bit e.w0 58) && (!n.a || bit e.w0 57) && (!n.s || bit e.w0 56)

/-- The partition number that stands for the host tenant whose BTAB has index `i`, 16 to 144, in BLOCK 5 (R323). -/
def hostPart (i : Nat) : Nat := 1000 + i

/-- The tenant that a partition hosts in a tile, or the host tenant that its number stands for. -/
def State.tenantIn (s : State) (tile part : Nat) : Nat :=
  if 1000 ≤ part then 0xF000 + (part - 1016) else (s.tileAt tile).tenantOf part

/-- BTAB of a partition or of a host tenant (R29, R323); house has a table of its own (log 7). -/
def State.btabOf (s : State) (part : Nat) : Word :=
  if part = 16 then s.houseBtab else if 1000 ≤ part then Map.get (fun _ => 0) s.btab (part - 1000)
  else Map.get (fun _ => 0) s.btab part

def btabRegion (b : Word) : Nat := fld b 63 60
def btabCount (b : Word) : Nat := fld b 59 42
def btabBase (b : Word) : Nat := fld b 41 0

/-- A word of a table, at region address `ra` of region `k`; one in quarantine or in a retired bank has no stated bits, and its poison
is ignored (R63, R123, R338). A table that lies in no valid region reads as an entry that is not valid. What is read beyond the end of
the region the spec does not say: the address is hashed on (DESIGN CHOICE, log 43). -/
def State.regionWord (s : State) (k ra : Nat) : Word :=
  if s.regionOk k then
    (let d := s.homeOf k ra
     if s.quarantined d then Sys2Proof.Config.freeWord d else (s.gval d).v)
  else 0

/-- Entry `idx` of a partition's table, as it stands in memory (R30). -/
def State.entryAt (s : State) (part idx : Nat) : BufEntry :=
  let b := s.btabOf part
  let at_ := btabBase b + 32 * idx
  ⟨s.regionWord (btabRegion b) at_, s.regionWord (btabRegion b) (at_ + 8),
    s.regionWord (btabRegion b) (at_ + 16), s.regionWord (btabRegion b) (at_ + 24)⟩

/-- Is the entry treated as invalid (R31, R46)? -/
def State.entryBad (s : State) (e : BufEntry) : Bool :=
  let r := s.region e.region
  !e.valid || bit e.w0 60 || fld e.w0 9 0 != 0 || fld e.w1 63 48 != 0 || fld e.w2 63 47 != 0 || e.w3 != 0
    || !s.regionOk e.region
    || (!e.win && e.key != 0)
    || (!e.paged && decide (r.size < e.base + e.size))
    || (e.paged && r.rdx)

/-! ### The loft (R28, R37, R80, R81) -/

def loftIdx (idx : Nat) : Bool := (0x3F000 ≤ idx && idx ≤ 0x3F3FF) || idx == 0x3FFFE
def reservedIdx (idx : Nat) : Bool := (0x3F400 ≤ idx && idx ≤ 0x3FFFD) || idx == 0x3FFFF

/-- The tile whose loft an index names, from tile `here`. -/
def loftTile (here idx : Nat) : Nat := if idx = 0x3FFFE then here else idx - 0x3F000

/-- LOWN entry that covers a loft offset (R80). -/
def lownEntry (off : Nat) : Nat :=
  if off < 0x40000 then off / 0x4000 else if off < 0x400000 then off / 0x20000 + 14 else 46

/-- OWNER of an entry of LOWN: reset 16 for entry 0, which is fixed, and 31 for the others (R80). -/
def Tile.lownAt (t : Tile) (k : Nat) : Nat :=
  if k = 0 then 16 else (Map.get (fun _ => 31) t.lown k).toNat % 32

/-- May partition `part` reference the loft space of a LOWN entry? A house slot may reference any (R81). -/
def State.loftOwned (s : State) (tile entry part : Nat) : Bool :=
  part == 16 || (s.tileAt tile).lownAt entry == part && decide (part < 16)

/-! ### Outcomes of a translation -/

/-- Where a reference goes. -/
structure Target where
  dpa : Nat
  win : Bool := false       -- a window access (R98)
  rdx : Bool := false       -- in a reduction region
  key : Nat := 0            -- window key slot
  gen : Nat := 0            -- GEN of the entry
  deriving DecidableEq, Repr

/-- What R32 and R45 answer. -/
inductive Xlate where
  | to (t : Target)
  | trap (cause : Nat)
  | malformed (pte : Word)     -- a malformed page-table entry: a record, then BUFFER_INVALID
  | request (write : Bool)     -- a page request: MISS or WRITE
  | migrate
  deriving DecidableEq, Repr

/-- The checks of R32 up to the entry itself: what is decided without the buffer table, or the entry's index. -/
def State.xlateFront (s : State) (tile part : Nat) (ptr : Word) (width : Nat) : Except Xlate Nat :=
  let idx := ptrIdx ptr
  let off := ptrOff ptr
  if off % width ≠ 0 then .error (.trap cALIGN)
  else if loftIdx idx then
    if 0x800000 ≤ off then .error (.trap cLOFT_BOUNDS)
    else
      let t := loftTile tile idx
      if s.loftOwned t (lownEntry off) part then .error (.to { dpa := s.loftDpa t off })
      else .error (.trap cRIGHTS)
  else if idx = 0 ∨ reservedIdx idx = true ∨ btabCount (s.btabOf part) ≤ idx then .error (.trap cBUFFER_INVALID)
  else .ok idx

/-- The checks of R32 on the entry; the region address for an unpaged buffer, and `none` where a walk is due. -/
def State.xlateEntry (s : State) (e : BufEntry) (tenant : Nat) (off width : Nat) (need : Need) :
    Except Xlate (Option Nat) :=
  if s.entryBad e = true ∨ e.owner ≠ tenant then .error (.trap cBUFFER_INVALID)
  else if e.grants need = false then .error (.trap (if e.win then cWINDOW_RIGHTS else cRIGHTS))
  else if e.size < off + width then .error (.trap cBOUNDS)
  else if e.paged then .ok none
  else .ok (some (e.base + off))

/-- The target of a region address in the entry's region. -/
def State.targetOf (s : State) (e : BufEntry) (ra : Nat) : Target :=
  { dpa := s.homeOf e.region ra, win := e.win, rdx := (s.region e.region).rdx, key := if e.win then e.key else 0
    gen := e.gen }

/-! ### The page tree (R43 to R45) -/

def levelShift (lvl : Nat) : Nat := if lvl = 0 then 34 else if lvl = 1 then 30 else if lvl = 2 then 21 else 12
def levelEntries (lvl : Nat) : Nat := if lvl = 0 then 4096 else if lvl = 1 then 16 else 512
def tableBytes (lvl : Nat) : Nat := 8 * levelEntries lvl
def pageBytes (lvl : Nat) : Nat := 2 ^ levelShift lvl
/-- Index(off, lvl) of R45. -/
def levelIndex (off lvl : Nat) : Nat := off / pageBytes lvl % levelEntries lvl

/-- What one page-table entry says. -/
inductive PteStep where
  | malformed | miss | migrate
  | leaf (addr : Nat) (nw : Bool)
  | table (addr : Nat)
  deriving DecidableEq, Repr

/-- Does a table of level `lvl` at `addr` lie aligned inside the region? -/
def State.tableOk (s : State) (k addr lvl : Nat) : Bool :=
  s.regionOk k && addr % tableBytes lvl == 0 && decide (addr + tableBytes lvl ≤ (s.region k).size)

/-- R45 for one entry, read at level `lvl`; `tk` is BTAB.REGION and `pk` the buffer's region. -/
def State.pteStep (s : State) (tk pk lvl : Nat) (pte : Word) : PteStep :=
  let addr := fld pte 47 0
  if bit pte 63 = false then .miss
  else if fld pte 59 48 ≠ 0 ∨ (lvl = 3 ∧ bit pte 62 = false) then .malformed
  else if bit pte 62 then
    if addr % pageBytes lvl ≠ 0 ∨ (s.region pk).size < addr + pageBytes lvl then .malformed
    else if bit pte 60 then .migrate
    else .leaf addr (bit pte 61)
  else if s.tableOk tk addr (lvl + 1) then .table addr
  else .malformed

/-- The whole walk of R45 at once, from level `4 - fuel`. -/
def State.walkNow (s : State) (tk : Nat) (e : BufEntry) (off : Nat) (need : Need) : Nat → Nat → Xlate
  | 0, _ => .malformed 0
  | fuel + 1, table =>
    let lvl := 3 - fuel
    let pte := s.regionWord tk (table + 8 * levelIndex off lvl)
    match s.pteStep tk e.region lvl pte with
    | .malformed => .malformed pte
    | .miss => .request false
    | .migrate => .migrate
    | .leaf addr nw =>
      if nw && need.writes then .request true else .to (s.targetOf e (addr + off % pageBytes lvl))
    | .table addr => s.walkNow tk e off need fuel addr

def PCached.covers (c : PCached) (part idx gen off : Nat) : Bool :=
  c.part == part && c.idx == idx && c.gen == gen && c.pn == off / pageBytes c.level

/-- The entry that a port uses: the one it has cached, else the table's (R32, R35). -/
def State.portEntry (s : State) (tile part idx : Nat) : BufEntry :=
  match (s.tileAt tile).bcache.find? (fun c => c.part == part && c.idx == idx) with
  | some b => b.ent
  | none => s.entryAt part idx

/-- The checks of R32 and R45 for a unit of a tile, whose walk is one step (log 10). -/
def State.unitXlate (s : State) (tile part tenant : Nat) (ptr : Word) (width : Nat) (need : Need) : Xlate :=
  match s.xlateFront tile part ptr width with
  | .error x => x
  | .ok idx =>
    let e := s.portEntry tile part idx
    match s.xlateEntry e tenant (ptrOff ptr) width need with
    | .error x => x
    | .ok (some ra) => .to (s.targetOf e ra)
    | .ok none =>
      match (s.tileAt tile).pcache.find? (fun c => c.covers part idx e.gen (ptrOff ptr)) with
      | some c =>
        if c.nw && need.writes then .request true else .to (s.targetOf e (c.addr + ptrOff ptr % pageBytes c.level))
      | none =>
        let tk := btabRegion (s.btabOf part)
        if s.tableOk tk e.base 0 then s.walkNow tk e (ptrOff ptr) need 4 e.base else .malformed e.w1

/-- Region addresses that a walk reads, and the entry at which it ends, with its level. -/
def State.walkPath (s : State) (tk : Nat) (e : BufEntry) (off : Nat) : Nat → Nat → List Nat
  | 0, _ => []
  | fuel + 1, table =>
    let lvl := 3 - fuel
    let ra := table + 8 * levelIndex off lvl
    ra :: (match s.pteStep tk e.region lvl (s.regionWord tk ra) with
      | .table addr => s.walkPath tk e off fuel addr
      | _ => [])

def State.walkEnd (s : State) (tk : Nat) (e : BufEntry) (off : Nat) : Nat × Word :=
  let path := s.walkPath tk e off 4 e.base
  (path.length - 1, s.regionWord tk (path.getLastD 0))

/-- The leaf that maps an offset, migrating or not: its level, its address and its NW bit. -/
def State.leafOf (s : State) (tk : Nat) (e : BufEntry) (off : Nat) : Option (Nat × Nat × Bool) :=
  let (lvl, pte) := s.walkEnd tk e off
  match s.pteStep tk e.region lvl pte with
  | .leaf addr nw => some (lvl, addr, nw)
  | .migrate => some (lvl, fld pte 47 0, bit pte 61)
  | _ => none

/-- The record of a malformed page-table entry (R45, R376). -/
def badTable (tenant part : Nat) (ctx : Option Nat) (tile : Nat) (ptr pte : Word) : RecordSpec :=
  { code := 0x0100, sev := 2, engine := 1, tenant := tenant, part := part, ctx := ctx, tile := tile, ptr := ptr
    action := 23, detail := pte }

/-! ### The caches of a buffer port (R35, R47, R48) -/

/-- Page number at a level: the offset shifted (R47). -/
def pageNumber (off lvl : Nat) : Nat := off / pageBytes lvl

/-- The set of the page cache that holds a translation (R47). -/
def pcacheSet (part idx pn : Nat) : Nat := (pn % 256) ^^^ (idx % 256) ^^^ (part * 16 % 256)

/-- A hit makes the translation the most recently used (R47). -/
def touch (cs : List PCached) (c : PCached) : List PCached := cs.erase c ++ [c]

/-- A new translation replaces the least recently used of a full set (R47). -/
def pcacheInsert (cs : List PCached) (c : PCached) : List PCached :=
  let inSet (x : PCached) : Bool := pcacheSet x.part x.idx x.pn == pcacheSet c.part c.idx c.pn
  let cs := cs.filter (fun x => !(x.part == c.part && x.idx == c.idx && x.level == c.level && x.pn == c.pn))
  if 4 ≤ (cs.filter inSet).length then
    match cs.find? inSet with
    | some old => cs.erase old ++ [c]
    | none => cs ++ [c]
  else cs ++ [c]

/-- The entry cache takes an entry; of 64 held, the free value names the one replaced (R35, log 16). -/
def bcacheInsert (cs : List BCached) (c : BCached) (free : Nat) : List BCached :=
  let cs := cs.filter (fun x => !(x.part == c.part && x.idx == c.idx))
  if 64 ≤ cs.length then cs.eraseIdx (Sys2Proof.Config.evict free % 64) ++ [c] else cs ++ [c]

/-- Does the context wait at its buffer port? -/
def Ctx.waitsAtPort (c : Ctx) : Bool :=
  match c.st with
  | .blocked (.port _ _ _ _) => true
  | _ => false

/-- Does a unit of the context's slot wait for a page? -/
def Ctx.waitsPage (c : Ctx) : Bool :=
  match c.st with
  | .blocked (.helping _ _ x) => x.isSome
  | .blocked (.adopting _ _ _ _ x) => x.isSome
  | .blocked (.returning _ x) => x.isSome
  | .blocked (.escalated _ _ _ x) => x.isSome
  | _ => c.hold.isSome

/-- References of a tile that are not complete, those parked at the port among them (R48). -/
def State.outstanding (s : State) (tile : Nat) : Nat :=
  (s.net.filter (fun r => r.src == tile)).length + (s.refused.filter (fun r => r.src == tile)).length
    + (s.waits.filter (fun w => w.req.src == tile)).length + (s.replies.filter (fun r => r.req.src == tile)).length
    + (s.ctxs.filter (fun x => tileOf x.1 == tile && (x.2.waitsAtPort || x.2.waitsPage))).length
    + ((s.tileAt tile).cq.filter (fun c => c.page.isSome)).length

/-- The reference waits at the buffer port for page `page` of buffer `idx` (R58, R96), behind those that wait there already. -/
def State.parkAtPort (s : State) (idx page : Nat) (tv : Word) (use : PortUse) : Out :=
  let t := s.myTile
  .next ((s.setMyTile { t with parked := t.parked.filter (fun x => x != slotOf s.cur) ++ [slotOf s.cur] }).setMe
    (s.me.block (.port idx page tv use)))

/-- A fault joins the faults waiting at a port. -/
def Tile.addFault (t : Tile) (f : PortFault) : Tile :=
  if t.faults.any (fun x => x.part == f.part && x.idx == f.idx && x.page == f.page && x.write == f.write) then t
  else { t with faults := t.faults ++ [f] }

/-- The entry that a reference of the issuing context finds: cached, or fetched for it (R35). The cached one comes first, since a cached
translation is good under its GEN only (R47). -/
def State.entryFor (s : State) (idx : Nat) : Option BCached :=
  (s.myTile.bcache ++ s.me.seen).find? (fun c => c.part == s.partOf s.cur && c.idx == idx)

/-- The translation that it finds: of a walk that it joined, or cached (R47, R48). -/
def State.transFor (s : State) (idx gen off : Nat) : Option PCached :=
  (s.me.walked ++ s.myTile.pcache).find? (fun c => c.covers (s.partOf s.cur) idx gen off)

/-- A translation that is used: one that the cache holds becomes the most recently used (R47). -/
def State.touched (s : State) (c : PCached) : State :=
  if s.myTile.pcache.contains c then s.setMyTile { s.myTile with pcache := touch s.myTile.pcache c } else s

/-- The port takes the reference, unless it tracks 4096 already (R48). -/
def State.atPort (s : State) (t : Tile) (idx page : Nat) (tv : Word) (use : PortUse) : Out :=
  if 4096 ≤ s.outstanding (tileOf s.cur) then s.stall else (s.setMyTile t).parkAtPort idx page tv use

/-- The checks of R32 for a reference of the issuing context, through its tile's caches. A miss leaves the context at the port
(R96); it issues the instruction again once the entry or the page is there, and the entry and the page that were fetched for it are
the ones it uses (log 9). `tv` is what c.tval takes if a page request fails, and `fail` what a failed check leads to. -/
def State.portWith (s : State) (ptr tv : Word) (width : Nat) (need : Need) (use : PortUse) (fail : State → Nat → Out)
    (k : State → Target → Out) : Out :=
  let tile := tileOf s.cur
  let part := s.partOf s.cur
  let t := s.tileAt tile
  let off := ptrOff ptr
  match s.xlateFront tile part ptr width with
  | .error (.to target) => if 4096 ≤ s.outstanding tile then s.stall else k s target
  | .error (.trap cause) => fail s cause
  | .error _ => fail s cBUFFER_INVALID
  | .ok idx =>
    match s.entryFor idx with
    | none =>
      let fetches := if t.fetches.contains (part, idx) then t.fetches else t.fetches ++ [(part, idx)]
      s.atPort { t with fetches := fetches } idx (off / 4096) tv use
    | some b =>
      match s.xlateEntry b.ent s.me.tenant.toNat off width need with
      | .error (.trap cause) => fail s cause
      | .error _ => fail s cBUFFER_INVALID
      | .ok (some ra) => if 4096 ≤ s.outstanding tile then s.stall else k s (s.targetOf b.ent ra)
      | .ok none =>
        match s.transFor idx b.ent.gen off with
        | some c =>
          if c.nw && need.writes then
            let s := s.touched c
            s.atPort (s.myTile.addFault { part := part, idx := idx, page := off / 4096, write := true, ptr := ptr }) idx
              (off / 4096) tv use
          else if 4096 ≤ s.outstanding tile then s.stall
          else k (s.touched c) (s.targetOf b.ent (c.addr + off % pageBytes c.level))
        | none =>
          if s.tableOk (btabRegion (s.btabOf part)) b.ent.base 0 = false then
            fail (s.post (badTable s.me.tenant.toNat part (some s.cur) tile ptr b.ent.w1)) cBUFFER_INVALID
          else if t.walks.any (fun w => w.part == part && w.idx == idx && w.off == off / 4096 * 4096)
              || t.faults.any (fun f => f.part == part && f.idx == idx && f.page == off / 4096 && !f.write) then
            s.atPort t idx (off / 4096) tv use
          else if 16 ≤ t.walks.length then s.stall
          else
            let w : Walk := { part := part, idx := idx, off := off / 4096 * 4096, level := 0, table := b.ent.base
                              write := need.writes }
            s.atPort { t with walks := t.walks ++ [w] } idx (off / 4096) tv use

/-- The checks for an instruction that traps when one fails. -/
def State.port (s : State) (ptr tv : Word) (width : Nat) (need : Need) (k : State → Target → Out) : Out :=
  s.portWith ptr tv width need .trap (fun s cause => s.trap cause tv) k

/-- A translation that is already cached, and passes every check (R249). -/
def State.cachedXlate (s : State) (tile part tenant : Nat) (ptr : Word) (width : Nat) (need : Need) : Option Target :=
  let t := s.tileAt tile
  match s.xlateFront tile part ptr width with
  | .error (.to target) => some target
  | .error _ => none
  | .ok idx =>
    match t.bcache.find? (fun c => c.part == part && c.idx == idx) with
    | none => none
    | some b =>
      match s.xlateEntry b.ent tenant (ptrOff ptr) width need with
      | .error _ => none
      | .ok (some ra) => some (s.targetOf b.ent ra)
      | .ok none =>
        (t.pcache.find? (fun c => c.covers part idx b.ent.gen (ptrOff ptr))).map
          (fun c => s.targetOf b.ent (c.addr + ptrOff ptr % pageBytes c.level))

/-- A tenant with a host behind it shares the window (R223). -/
def State.hostShared (s : State) (t : Target) : Bool :=
  t.win && s.windows.any (fun w => w.slot == t.key && w.sharers.any (fun x => 0xF000 ≤ x.1))

end Sys2Proof.Machine
end

