-- ==== Sys2Proof/Machine/Bank.lean ====
section
/-! DEFINITION. The home banks: order of service (R65, R99, R102), word events and watch messages (R62, R77), the wake cascade
(R66, R67), wait lists (R68 to R72), line sealing, unreadable lines and quarantine (R75, R113, R117, R122, R123), and what each
kind of reference does at its home. -/

namespace Sys2Proof.Machine

open Sys2Proof (Word Byte Elem Instr)

/-! ### What is outstanding (R96, R98, R99, R227) -/

/-- Scopes (R98). -/
inductive Scope where
  | tile | tower | pkg | dom | win | all
  deriving DecidableEq, Repr

/-- Is an access in the scope, for a context of tile `src` of package `pkg` (R98)? -/
def Scope.has (sc : Scope) (pkg src : Nat) (r : Req) : Bool :=
  match sc with
  | .all => true
  | .win => r.win
  | .dom => !r.win
  | .pkg => !r.win && dpaPkg r.dpa == pkg
  | .tower => !r.win && dpaPkg r.dpa == pkg && dpaTile r.dpa / 64 == src / 64
  | .tile => !r.win && dpaPkg r.dpa == pkg && dpaTile r.dpa == src

/-- Accesses to memory, and not the release parts of spawn and garrive. -/
def MemOp.isAccess : MemOp → Bool
  | .spawn _ _ _ => false
  | .arrive _ _ => false
  | .claim => false
  | _ => true

/-- References that read (R101: a fence.acq waits for reads). -/
def MemOp.isRead : MemOp → Bool
  | .load _ _ => true
  | .rowLoad _ => true
  | .wf => true
  | .wfc => true
  | .help _ => true
  | .probe => true
  | .pget => true
  | .amo _ _ => true
  | .rdxAdd => true
  | .rdxRead => true
  | _ => false

/-- References of context `id` that have not been performed, or whose answer has not come back. -/
def State.pendingOf (s : State) (id : Nat) : List Req :=
  (s.net ++ s.refused ++ s.replies.map (fun r => r.req)).filter
    (fun r => r.src == tileOf id && r.slot == slotOf id)

/-- Does a fence of the context have to wait (R227)? -/
def State.fenceWaits (s : State) (id : Nat) (sc : Scope) (readsOnly : Bool) : Bool :=
  (s.pendingOf id).any (fun r =>
    r.op.isAccess && sc.has s.package.toNat (tileOf id) r && (!readsOnly || r.op.isRead))

/-- Does an earlier covered access hold the release at position `k` of `net` in its context (R99)? -/
def State.releaseHeld (s : State) (k : Nat) (r : Req) : Bool :=
  r.rel && (s.net.take k).any (fun q => q.src == r.src && q.slot == r.slot && q.op.isAccess && q.win == r.win)

/-- The bank of a word. -/
def bankId (d : Nat) : Nat := d / 2 ^ 38

/-- Rank of a unit of a tile, and of a request that a bank makes itself (R65). -/
def unitRank (tile : Nat) : Nat := tile * 1024 + 512
def bankRank : Nat := 2 ^ 30

/-- Rank of a requester among the arrivals of one cycle: tile, then slot, units and their claims as slot 512, banks last (R65,
R154). -/
def Req.rank (r : Req) : Nat :=
  if r.slot = 513 then bankRank else if r.op = .claim then unitRank r.src else r.src * 1024 + r.slot % 1024

/-- Has the bank of the word admitted in this cycle a requester that ranks after `rank` (R65)? -/
def State.outRanked (s : State) (d rank : Nat) : Bool := s.served.any (fun x => x.1 == bankId d && decide (rank < x.2))
/-- The bank of the word admits a requester. -/
def State.noteServed (s : State) (d rank : Nat) : State := { s with served := s.served ++ [(bankId d, rank)] }

/-- Does the unit that serves the word not answer now? A loft of a tile at point G waits (R12, R23), and so does a vault whose
tower's base logic is at OFF (R11); a word whose cascade runs is served when that has returned (R67); and the look at the deadlines
comes last in its cycle (R70). -/
def State.homeWaits (s : State) (d : Nat) : Bool :=
  (if dpaLoft d then decide ((s.tileAt (dpaTile d)).point = .g) && !(s.tileAt (dpaTile d)).herd.fenced
    else decide (s.infraAt (dpaTile d / 64) = .off))
    || s.waking.contains (wordOf d) || s.looked

/-- May the request at position `k` be performed next? Not while its release is held (R99), not before an earlier request
from the same tile to the same home tile (R16, R102), unless that one has not left another context yet, and not in a cycle in
which its bank has admitted a requester that ranks after it (R65). -/
def State.mayArrive (s : State) (k : Nat) (r : Req) : Bool :=
  !s.releaseHeld k r
    && !((s.net.take k).zipIdx.any (fun (q, j) =>
        q.src == r.src && dpaTile q.dpa == dpaTile r.dpa && dpaPkg q.dpa == dpaPkg r.dpa
          && !(s.releaseHeld j q && q.slot != r.slot)))
    && !s.homeWaits r.dpa
    && !s.outRanked r.dpa r.rank

/-! ### Answers, and counter lines (R114 to R116, R123)

The counter line of level `lvl` that covers byte `off` of a bank is number `off / 64 / 8^lvl`. -/

def State.answer (s : State) (r : Req) (a : Answer) : State := { s with replies := s.replies ++ [⟨r, a⟩] }

def Wait.reads (w : Wait) : Bool :=
  match w.req.op with
  | .wf => !w.void
  | .wfc => !w.void
  | .help _ => !w.void
  | _ => false

def Wait.writes (w : Wait) : Bool := !w.void && decide (w.req.op ≠ .wf) && decide (w.req.op ≠ .wfc)
  && (match w.req.op with | .help _ => false | _ => true)

/-- The answer to a parked reference; one whose entry names another package goes there (R71). -/
def State.answerWait (s : State) (w : Wait) (a : Answer) : State :=
  let s := { s with waits := s.waits.erase w }
  if w.pkg = s.package then s.answer w.req a else s

/-- Parked readers of a quarantined range receive poison (R123). -/
def State.wakePoisoned (s : State) (q : Quarantine) : List Wait → State
  | [] => s
  | w :: ws =>
    if q.covers s.package.toNat w.req.dpa && w.reads then
      let v : GVal := { v := Sys2Proof.Config.freeWord s.free, p := true }
      (s.bumpFree.answerWait w (.value v)).wakePoisoned q ws
    else s.wakePoisoned q ws

def ctrKey (bank lvl idx : Nat) : Nat := (bank * 8 + lvl) * 2 ^ 20 + idx

/-- The counter cache of a vault: the lines it holds, and whether each is dirty. -/
def State.ctrCache (s : State) (tile : Nat) : Map (Option Bool) := Map.get (fun _ => []) s.counters tile
def State.setCtr (s : State) (tile key : Nat) (v : Option Bool) : State :=
  { s with counters := Map.set (fun _ => []) s.counters tile (Map.set (fun _ => none) (s.ctrCache tile) key v) }

/-- Levels from `lvl` on whose lines an access of line `idx` of that level fetches: upward to one that is cached, or to SROOT (R116). -/
def State.ctrFetch (s : State) (tile bank lvl idx : Nat) : List Nat :=
  ((List.range 6).filter (fun l => decide (lvl ≤ l))).takeWhile (fun l =>
    (Map.get (fun _ => none) (s.ctrCache tile) (ctrKey bank l (idx / 8 ^ (l - lvl)))).isNone)

/-- Counter line `idx` of a level is fetched and verified with those above it that are not cached, and they enter the cache; the
subtree of the lowest one that fails its MAC goes into quarantine (R123). -/
def State.fetchCtr (s : State) (tile bank lvl idx : Nat) : State :=
  let ls := s.ctrFetch tile bank lvl idx
  let fill (s : State) (ls : List Nat) : State :=
    ls.foldl (fun (s : State) l => s.setCtr tile (ctrKey bank l (idx / 8 ^ (l - lvl))) (some false)) s
  match ls.find? (fun l => s.badCounters.contains (tile, bank, l, idx / 8 ^ (l - lvl))) with
  | none => fill s ls
  | some l =>
    let i := idx / 8 ^ (l - lvl)
    let q : Quarantine := { tile := tile, bank := bank, lo := i * 8 ^ l * 64, len := 8 ^ l * 64, level := l }
    let s := fill s (ls.filter (fun j => decide (l < j)))
    { s with badCounters := s.badCounters.erase (tile, bank, l, i), quarantines := s.quarantines ++ [q] }.wakePoisoned q s.waits

/-- A counter of SROOT. -/
def rootKey (tile bank i : Nat) : Nat := (tile * 33 + bank) * 16 + i
def State.rootAt (s : State) (k : Nat) : Word := Map.get (fun _ => 0) s.sroot k

/-- A dirty line is written back: its parent counter, which is fetched for it, goes up by 1. -/
def State.writeBack (s : State) (tile key : Nat) : State :=
  let bank := key / 2 ^ 23
  let lvl := key / 2 ^ 20 % 8
  let idx := key % 2 ^ 20
  if lvl = 5 then
    let k := rootKey tile bank idx
    { s with sroot := Map.set (fun _ => 0) s.sroot k (wd ((s.rootAt k).toNat + 1)) }
  else (s.fetchCtr tile bank (lvl + 1) (idx / 8)).setCtr tile (ctrKey bank (lvl + 1) (idx / 8)) (some true)

/-- Lines beyond the 8,192 that the cache holds leave it; which ones, the spec does not say (log 42). -/
def State.trimCtr (s : State) (tile : Nat) : Nat → State
  | 0 => s
  | n + 1 =>
    let m := s.ctrCache tile
    if m.length ≤ 8192 then s
    else
      let x := m.getD (Sys2Proof.Config.evict s.free % m.length) (0, none)
      let s := (s.setCtr tile x.1 none).bumpFree
      (if x.2 = some true then s.writeBack tile x.1 else s).trimCtr tile n

/-- The counter path of a vault line is verified (R116). -/
def State.openPath (s : State) (d : Nat) : State :=
  (s.fetchCtr (dpaTile d) (dpaBank d) 1 (dpaOff d / 512)).trimCtr (dpaTile d) 64

/-- The line's counter changes in its level-1 line, which is fetched for it. -/
def State.dirtyCtr (s : State) (d : Nat) : State :=
  ((s.fetchCtr (dpaTile d) (dpaBank d) 1 (dpaOff d / 512)).setCtr (dpaTile d) (ctrKey (dpaBank d) 1 (dpaOff d / 512))
    (some true)).trimCtr (dpaTile d) 64

/-! ### Sealing (R113, R117) -/

/-- A line that is not listed is fresh with COUNT 0 (R113). -/
def freshLine : Nat → BitVec 56 := fun _ => BitVec.ofNat 56 (2 ^ 55)

def State.lineCtr (s : State) (d : Nat) : BitVec 56 := Map.get freshLine s.ctr (lineOf d)
def State.lineFresh (s : State) (d : Nat) : Bool := (s.lineCtr d).toNat / 2 ^ 55 == 1
def lineCount (c : BitVec 56) : Nat := c.toNat % 2 ^ 55

def State.setTag (s : State) (d : Nat) (f : Tag → Tag) : State := s.setTagAt d (f (s.tagAt d))

/-- The eight words of a line marked poisoned. -/
def State.poisonWords (s : State) (line : Nat) : Nat → State
  | 0 => s
  | n + 1 => (s.poisonWords line n).setTag (line + 8 * n) (fun t => { t with poison := true })

/-! Keys are named by their owner: the tenant, or 2^16 + the window's slot. The number of keys that an owner has had tells its
present key from those that have been overwritten (R120, R121). -/

def windowKey (slot : Nat) : Nat := 2 ^ 16 + slot

/-- Whose key the buffer entry of the reference names (R109). -/
def Req.owner (r : Req) : Nat := if r.key = 0 then r.tenant else windowKey r.key

def State.keyGen (s : State) (owner : Nat) : Nat := Map.get (fun _ => 0) s.keyGens owner
/-- A key is generated, or overwritten. -/
def State.nextKey (s : State) (owner : Nat) : State :=
  { s with keyGens := Map.set (fun _ => 0) s.keyGens owner (s.keyGen owner + 1) }

/-- The key of generation `n` of an owner, as a line records it. -/
def keyMark (owner n : Nat) : Nat := owner * 2 ^ 32 + n + 1

def State.lineKey (s : State) (line : Nat) : Nat := Map.get (fun _ => 0) s.lineKeys line
/-- The line is sealed under the present key of an owner. -/
def State.keyLine (s : State) (line owner : Nat) : State :=
  { s with lineKeys := Map.set (fun _ => 0) s.lineKeys line (keyMark owner (s.keyGen owner)) }

/-- Does the line's MAC hold under a key of the owner (R112)? While a window is re-keyed, both its keys are there (R125). -/
def State.keyOpens (s : State) (line owner : Nat) : Bool :=
  let k := s.lineKey line
  let n := s.keyGen owner
  let rekeying := decide (2 ^ 16 ≤ owner) && fld (Map.get (fun _ => 0) s.kslot (owner - 2 ^ 16)) 63 62 == 2
  k == 0 || k == keyMark owner n || (rekeying && decide (1 ≤ n) && k == keyMark owner (n - 1))

/-- Does the owner's key slot drain? A reference under it is dropped (R123). -/
def State.draining (s : State) (owner : Nat) : Bool :=
  s.kslot.any (fun x => fld x.2 63 62 == 3
    && (if 2 ^ 16 ≤ owner then x.1 == owner - 2 ^ 16 else fld x.2 61 60 == 0 && fld x.2 59 44 == owner))

/-- A write seals a window line under the slot's current epoch and key (R125). -/
def State.stampEpoch (s : State) (d : Nat) : State :=
  match s.windowOf (lineOf d) with
  | none => s
  | some w =>
    { s with epochs := Map.set (fun _ => false) s.epochs (lineOf d) (bit (Map.get (fun _ => 0) s.kslot w.slot) 27) }.keyLine
      (lineOf d) (windowKey w.slot)

/-- An event that changes a vault line clears FRESH and adds 1 to COUNT (R113); at the end of COUNT R117 holds. -/
def State.seal (s : State) (d : Nat) : State :=
  if dpaLoft d then s
  else
    let s := s.stampEpoch d
    let n := lineCount (s.lineCtr d)
    if 2 ^ 55 ≤ n + 1 then
      (s.poisonWords (lineOf d) 8).post
        { code := 0x000E, sev := 4, engine := 5, tile := dpaTile d, dpa := wd (lineOf d), action := 13 }
    else
      let s' := { s with ctr := Map.set freshLine s.ctr (lineOf d) (BitVec.ofNat 56 (n + 1)) }.dirtyCtr d
      if n + 1 = 2 ^ 54 then
        s'.post { code := 0x0110, sev := 0, engine := 5, tile := dpaTile d, dpa := wd (lineOf d), action := 30
                  detail := wd (n + 1) }
      else s'

/-! ### Watch messages (R76, R77) -/

/-- Number of the messages of a word: 1 WRITE, 2 FILL, 3 EMPTY, 4 DISPLACED, 5 REMOVED; 6 when the value carries poison. Of a
poisoned word, DISPLACED and REMOVED keep their number and send the value bits: the table gives m1 = 0 for number 6 only
(DESIGN CHOICE, log 39). g6 is all ones (R247). -/
def State.watchMsg (s : State) (w : Watch) (ev : Nat) (v : GVal) : State :=
  let e := if v.p && ev ≤ 3 then 6 else ev
  let m : Msg :=
    { id := s.freshId, dst := w.tile, table := if w.house then 16 else w.part, type := w.type
      m0 := wd (w.ptr.toNat / 8 * 8 + e), m1 := if e = 6 then 0 else v.v
      coord := wd (2 ^ 64 - 1), src := dpaTile w.dpa, tenant := w.tenant, user := !w.house, origin := .watch w.dpa w.num }
  { s.bumpId with msgs := s.msgs ++ [m] }

/-- Every event on a watched word sends one message to the watcher (R77). -/
def State.notify (s : State) (d ev : Nat) : State :=
  if (s.tagAt d).watched then
    match s.watches.find? (fun w => w.dpa == wordOf d) with
    | some w => s.watchMsg w ev (s.gval d)
    | none => s
  else s

/-- Watch records go without being re-armed; each watcher is sent REMOVED (R77). -/
def State.dropWatches (s : State) (p : Watch → Bool) : State :=
  let gone := s.watches.filter p
  gone.foldl (fun (s : State) w => s.watchMsg w 5 (s.gval w.dpa)) { s with watches := s.watches.filter (fun w => !p w) }

/-! ### Word events (R62) -/

/-- The record of words that could not be read, by ECC or over the bond (R75, R94), or by their MAC (R122). -/
def unreadable (line : Nat) (mac : Bool) (tenant part : Nat) (ptr detail : Word) : RecordSpec :=
  let base : RecordSpec :=
    { code := 0x000E, sev := 2, engine := 5, tenant := tenant, part := part, tile := dpaTile line
      ptr := wd (ptr.toNat / 64 * 64), dpa := wd line, action := 3 }
  if mac then base else { base with code := 0x0102, engine := if dpaLoft line then 4 else 3, detail := detail }

/-- A write whose transfer over the bond has failed for good leaves its loft word full and poisoned (R94). -/
def State.crossBond (s : State) (d : Nat) : State :=
  match s.badBonds.find? (fun b => b.1 == wordOf d) with
  | none => s
  | some b =>
    let s := { s with badBonds := s.badBonds.filter (fun x => x.1 != wordOf d) }.poke (wordOf d) 8
      (Sys2Proof.Config.freeWord s.free).toNat
    let s := s.bumpFree.setTag d (fun t => { t with full := true, poison := true })
    s.bumpFree.post (unreadable (lineOf d) false b.2.1 b.2.2.1 b.2.2.2 (Sys2Proof.Config.freeWord s.free))

/-- A write event that leaves P. -/
def State.wroteEvent (s : State) (d : Nat) : State := ((s.seal d).crossBond d).notify d 1
/-- P goes from 0 to 1. -/
def State.fillEvent (s : State) (d : Nat) : State :=
  (((s.setTag d (fun t => { t with full := true })).seal d).crossBond d).notify d 2
/-- P goes from 1 to 0. -/
def State.emptyEvent (s : State) (d : Nat) : State := ((s.setTag d (fun t => { t with full := false })).seal d).notify d 3

/-- The value of a store in place: `width` bytes at `d`. A whole word takes the value's poison, a narrower one adds it (R220). -/
def State.putValue (s : State) (d width : Nat) (v : GVal) : State :=
  (s.poke d width v.v.toNat).setTag d
    (fun t => { t with poison := if width = 8 then v.p else t.poison || v.p })

/-- Element bytes of a word are written (R273): a word that they fill takes their poison, another one adds it. -/
def State.putBytes (s : State) (d n : Nat) (v : GVal) : State :=
  (s.poke d n v.v.toNat).setTag d (fun t => { t with poison := v.p || (t.poison && n != 8) })

/-! ### Wake (R66, R67) -/

def MemOp.clears : MemOp → Bool
  | .wfc => true
  | .help c => c
  | _ => false

/-- One satisfied entry; `none` when no entry of the word can be served. -/
def State.wakeOne (s : State) (d : Nat) : Option State :=
  let here (w : Wait) : Bool := wordOf w.req.dpa == wordOf d
  if (s.tagAt d).full then
    match s.waits.find? (fun w => here w && w.reads) with
    | none => none
    | some w =>
      let s' := s.answerWait w (.value (s.gval d))
      some (if w.req.op.clears then s'.emptyEvent d else s')
  else
    match s.waits.find? (fun w => here w && w.writes) with
    | none => none
    | some w => some (((s.putValue d 8 w.req.val).fillEvent d).answerWait w .done)

/-- Wake(p): the cascade runs from the next cycle on, one entry of the word a cycle (R66, R67). -/
def State.wake (s : State) (d : Nat) : State :=
  if (s.wakeOne d).isSome && !s.waking.contains (wordOf d) then { s with waking := s.waking ++ [wordOf d] } else s

/-- A bank serves the next entry of a cascade. One that has not returned stands after the bank's others (R67). -/
def State.wakeNext (s : State) (d : Nat) : State :=
  let s := { s with waking := s.waking.erase d }
  match s.wakeOne d with
  | none => s
  | some s => s.wake d

/-- The first word of each bank among those whose cascades run. -/
def bankHeads : List Nat → List Nat → List Nat
  | _, [] => []
  | banks, d :: ds => if banks.contains (bankId d) then bankHeads banks ds else d :: bankHeads (bankId d :: banks) ds

/-- A cycle of the banks' cascades. -/
def State.wakeCycle (s : State) : State :=
  if s.waking = [] then s else ((bankHeads [] s.waking).foldl (fun (s : State) d => s.wakeNext d) s).unstall

/-- A write that fills: the value, then P, then the cascade (SF of R66, and engine writes). -/
def State.putFull (s : State) (d width : Nat) (v : GVal) : State :=
  let s' := s.putValue d width v
  if (s.tagAt d).full then s'.wroteEvent d else (s'.fillEvent d).wake d

/-- P set or cleared in place; where it is so already, a write event (R235). An empty word has waiting writers, a full one readers. -/
def State.setFull (s : State) (d : Nat) : State := if (s.tagAt d).full then s.wroteEvent d else (s.fillEvent d).wake d
def State.setEmpty (s : State) (d : Nat) : State := if (s.tagAt d).full then (s.emptyEvent d).wake d else s.wroteEvent d
/-- P cleared where it is 1, and nothing else (R238). -/
def State.emptied (s : State) (d : Nat) : State := if (s.tagAt d).full then (s.emptyEvent d).wake d else s

/-- Would the reference change the word's value, P or W (R123)? -/
def MemOp.changes : MemOp → Bool
  | .load _ _ => false
  | .rowLoad _ => false
  | .wf => false
  | .help c => c
  | .probe => false
  | .pget => false
  | .rdxRead => false
  | _ => true

/-- References whose data the word's bank receives, and those to which it sends the word (R94). -/
def MemOp.stores : MemOp → Bool
  | .store _ => true
  | .rowStore _ => true
  | .we => true
  | .sf => true
  | .mailbox _ => true
  | _ => false
def MemOp.fetches : MemOp → Bool
  | .load _ _ => true
  | .rowLoad _ => true
  | .wf => true
  | .wfc => true
  | .help _ => true
  | .probe => true
  | .amo _ _ => true
  | .claim => true
  | _ => false

/-! ### Lines that cannot be read, and quarantine (R75, R122, R123) -/

/-- A word becomes full and poisoned; one that was empty is filled, and its waiters are served. -/
def State.spoilWord (s : State) (d : Nat) : State :=
  let s' := (s.poke d 8 (Sys2Proof.Config.freeWord s.free).toNat).bumpFree.setTag d (fun t => { t with poison := true })
  if (s'.tagAt d).full then s' else (s'.fillEvent d).wake d

def State.spoilWords (s : State) (line : Nat) : Nat → State
  | 0 => s
  | n + 1 => (s.spoilWords line n).spoilWord (line + 8 * n)

/-- A data line that cannot be read; `ptr` names the reference that found it. Its new contents are sealed under a COUNT of their own
(R113); a fresh line is never opened, so nothing fails in it. -/
def State.spoilLine (s : State) (line : Nat) (mac : Bool) (tenant part : Nat) (ptr : Word) : State :=
  let s := { s with badLines := s.badLines.filter (fun b => b.1 != line) }
  if s.lineFresh line then s
  else
    let s' := (s.spoilWords line 8).seal line
    let s' := if mac then s' else s'.bumpFree
    s'.post (unreadable line mac tenant part ptr (Sys2Proof.Config.freeWord s'.free))

/-- A loft word crosses the bond. Where the transfer has failed for good, a word that is read becomes full and poisoned first; one that
is written does so once the write is performed, which the reference is named for (R94). -/
def State.openBond (s : State) (r : Req) : State :=
  let w := wordOf r.dpa
  if s.badBonds.any (fun b => b.1 == w) then
    let rest := s.badBonds.filter (fun b => b.1 != w)
    if r.op.fetches then
      let s := { s with badBonds := rest }.spoilWord w
      s.bumpFree.post (unreadable (lineOf r.dpa) false r.tenant r.part r.ptr (Sys2Proof.Config.freeWord s.free))
    else if r.op.stores then { s with badBonds := rest ++ [(w, r.tenant, r.part, r.ptr)] }
    else s
  else s

/-- A vault line outside quarantine is opened under the key that the reference names (R109, R112). A fresh line is not opened
(R113): a write seals it under the key that opened it last, its own. -/
def State.openVault (s : State) (r : Req) : State :=
  let line := lineOf r.dpa
  if s.lineFresh line then s.keyLine line r.owner
  else
    match s.badLines.find? (fun b => b.1 == line) with
    | some b => (s.spoilLine line b.2 r.tenant r.part r.ptr).keyLine line r.owner
    | none =>
      if s.lineKey line = 0 then s.keyLine line r.owner
      else if s.keyOpens line r.owner then s
      else (s.spoilLine line true r.tenant r.part r.ptr).keyLine line r.owner

/-- The line is opened: its counter path and its MAC are checked first. -/
def State.openLine (s : State) (r : Req) : State :=
  if dpaPkg r.dpa != s.package.toNat then s
  else if dpaLoft r.dpa then s.openBond r
  else
    let s := s.openPath r.dpa
    if s.quarantined r.dpa then s else s.openVault r

/-! ### Wait lists (R68 to R71) -/

/-- Entries reserved for a partition and for house, shared entries, and shared entries one partition may hold (R68). -/
def waitReserved (loft : Bool) (part : Nat) : Nat := if part = 16 then (if loft then 32 else 64) else (if loft then 16 else 64)
def waitPool (loft : Bool) : Nat := if loft then 224 else 960
def waitCap (loft : Bool) : Nat := if loft then 112 else 480

/-- May a park take an entry, and is it a shared one? House, too, draws on the shared pool once its reserved entries are used,
up to the cap of one partition: the table names house under the reserved entries only (DESIGN CHOICE, log 39). -/
def State.waitRoom (s : State) (r : Req) : Option Bool :=
  let loft := dpaLoft r.dpa
  let list := s.waits.filter (fun w => dpaLoft w.req.dpa == loft && dpaTile w.req.dpa == dpaTile r.dpa
    && dpaPkg w.req.dpa == dpaPkg r.dpa)
  let own := list.filter (fun w => w.req.part == r.part)
  if (own.filter (fun w => !w.shared)).length < waitReserved loft r.part then some false
  else if (list.filter (fun w => w.shared)).length < waitPool loft
      ∧ (own.filter (fun w => w.shared)).length < waitCap loft then some true
  else none

/-- The frame a context runs: at depth 0 its g2, otherwise the top of its adoption stack (R154). -/
def Ctx.runs (c : Ctx) : Word := if c.depth = 0 then (c.getG 2).v else c.frames.headD 0

/-- A PARKED or RUNNING mark leaves for the state word of the frame the context runs (R154). -/
def State.sendMark (s : State) (id : Nat) (parked : Option (Nat × Nat × Bool × Nat)) : State :=
  let f := (s.ctxAt id).runs
  if f = 0 then s
  else { s with marks := s.marks ++ [{ ctx := id, frame := f, parked := parked, tenant := (s.ctxAt id).tenant.toNat }] }

/-- The parked reference of a context is over: the RUNNING mark leaves (R154). -/
def State.unpark (s : State) (id : Nat) : State :=
  if (s.ctxAt id).parkedAt.isSome then (s.setCtxAt id { s.ctxAt id with parkedAt := none }).sendMark id none else s

/-- References of a context that ends while they are in flight: they are still performed, and nobody takes their answers (R409). -/
def State.orphan (s : State) (id : Nat) : State :=
  let free (r : Req) : Req := if r.src = tileOf id ∧ r.slot = slotOf id ∧ r.op.isAccess then { r with slot := r.slot + 1024 } else r
  { s with
    net := s.net.map free
    replies := s.replies.map (fun (x : Reply) => { x with req := free x.req }) }

/-- Deadline of a reference accepted now, in units of 1024 reference cycles (R70). -/
def State.deadlineOf (s : State) (t : Nat) : Option Nat :=
  if t = 0 then none else some ((s.cycle.toNat + 1023) / 1024 + t)

/-- The number of the entry that a park takes: a free choice among those of its list that are not in use (log 19). -/
def State.newNum (s : State) (r : Req) : Nat :=
  let loft := dpaLoft r.dpa
  let used := (s.waits.filter (fun w => dpaLoft w.req.dpa == loft && dpaTile w.req.dpa == dpaTile r.dpa
    && dpaPkg w.req.dpa == dpaPkg r.dpa)).map (fun (w : Wait) => w.num)
  let unused := (List.range (if loft then 512 else 2048)).filter (fun n => !used.contains n)
  unused.getD ((Sys2Proof.Config.freeWord s.free).toNat % unused.length) 0

/-- The key of word `j` of a wait-list entry that is not in use. -/
def waitKey (tile : Nat) (loft : Bool) (num j : Nat) : Nat := ((tile * 2 + b2n loft) * 2048 + num) * 4 + j

/-- Park(p, kind): an entry is taken, or the reference is refused (R68). -/
def State.park (s : State) (r : Req) : State :=
  match s.waitRoom r with
  | none => s.answer r .refused
  | some shared =>
    let num := s.newNum r
    let w : Wait :=
      { req := r, num := num, shared := shared, deadline := s.deadlineOf r.deadline, pkg := s.package }
    let k := waitKey (dpaTile r.dpa) (dpaLoft r.dpa) num 0
    let s' := { s.bumpFree with
      waits := s.waits ++ [w], idleWaits := s.idleWaits.filter (fun x => x.1 < k || k + 4 ≤ x.1) }
    if r.slot < 512 then
      let id := ctxId r.src r.slot
      let at_ := (dpaPkg r.dpa, dpaTile r.dpa, dpaLoft r.dpa, num)
      (s'.setCtxAt id { s'.ctxAt id with parkedAt := some at_ }).sendMark id (some at_)
    else s'

/-! ### Arrival (R62, R66, R72, R76, R229) -/

/-- What a read of the word returns; in quarantine, poison (R123). -/
def State.readAt (s : State) (d : Nat) : GVal × State :=
  if s.quarantined d then ({ v := Sys2Proof.Config.freeWord s.free, p := true }, s.bumpFree) else (s.gval d, s)

/-- Is the word full, as a read finds it? -/
def State.fullAt (s : State) (d : Nat) : Bool := s.quarantined d || (s.tagAt d).full

/-- Can all the words of a vld still come? -/
def State.loadLives (s : State) (x : RowLoad) : Bool :=
  decide (x.need ≤ x.words.length + ((s.net ++ s.replies.map (fun y => y.req)).filter (fun r => decide (r.op = .rowLoad x.id))).length)

/-- A vld that has lost a word to a drop writes no row, and its row is free again. -/
def State.pruneRows (s : State) : State :=
  { s with tiles := s.tiles.map (fun (x : Nat × Tile) => (x.1, { x.2 with rows := x.2.rows.filter s.loadLives })) }

/-- One arrival: the request at position `k` is taken from the network and performed by `f`, if it may be and is of the kind
`p`; otherwise nothing happens. -/
def State.arrive (s : State) (k : Nat) (p : MemOp → Bool) (f : State → Req → State) : Out :=
  match s.net[k]? with
  | none => .next s
  | some r =>
    if p r.op && s.mayArrive k r then
      if s.draining r.owner then .next ({ s with net := s.net.eraseIdx k }.pruneRows).unstall
      else if dpaLegal r.dpa = false then .fault (.noSuchWord r.dpa)
      else
        let s := { s with net := s.net.eraseIdx k }.noteServed r.dpa r.rank
        let s :=
          if dpaLoft r.dpa && !(s.tileAt (dpaTile r.dpa)).running then s.answer r (.failed cDEAD_TARGET)
          else
            let s := s.openLine r
            if r.op.changes && s.quarantined r.dpa then s.answer r (.failed cSEAL_INTEGRITY) else f s r
        .next s.unstall
    else .next s

/-- The bytes of a load, from the word (R219). -/
def loadBytes (w : Word) (d width : Nat) (signExt : Bool) : Word :=
  let x := w.toNat / 2 ^ (8 * (d % 8)) % 2 ^ (8 * width)
  if signExt then BitVec.ofInt 64 (signed (8 * width) x) else wd x

def State.arriveLoad (s : State) (r : Req) : State :=
  let (v, s') := s.readAt r.dpa
  match r.op with
  | .load width signExt => s'.answer r (.value { v with v := loadBytes v.v r.dpa width signExt })
  | .rowLoad _ => s'.answer r (.value v)
  | _ => s

def State.arriveStore (s : State) (r : Req) : State :=
  match r.op with
  | .store width => ((s.putValue r.dpa width r.val).wroteEvent r.dpa).answer r .done
  | .rowStore n => ((s.putBytes r.dpa n r.val).wroteEvent r.dpa).answer r .done
  | _ => s

def State.arriveWf (s : State) (r : Req) : State :=
  if s.fullAt r.dpa then
    let (v, s') := s.readAt r.dpa
    s'.answer r (.value v)
  else s.park r

def State.arriveWfc (s : State) (r : Req) : State :=
  if (s.tagAt r.dpa).full then ((s.answer r (.value (s.gval r.dpa))).emptyEvent r.dpa).wake r.dpa else s.park r

def State.arriveWe (s : State) (r : Req) : State :=
  if (s.tagAt r.dpa).full then s.park r
  else (((s.putValue r.dpa 8 r.val).fillEvent r.dpa).answer r .done).wake r.dpa

def State.arriveSf (s : State) (r : Req) : State := (s.putFull r.dpa 8 r.val).answer r .done
def State.arrivePset (s : State) (r : Req) : State := (s.setFull r.dpa).answer r .done
def State.arrivePclr (s : State) (r : Req) : State := (s.setEmpty r.dpa).answer r .done

/-- Owner(p) of R78: the companion is the odd word of the pair; poison and 0 name no owner. The word as the help-qualified wait
names it is `ptr`. -/
def State.ownerOf (s : State) (d : Nat) (ptr : Word) : Word :=
  if d % 16 = 0 then
    let c := s.gval (d + 8)
    if c.p then 0 else if bit c.v 63 then ptr else c.v
  else 0

/-- A help-qualified wait (R72). -/
def State.arriveHelp (s : State) (r : Req) : State :=
  let clear := r.op.clears
  let plain : Req := { r with op := if clear then .wfc else .wf }
  if s.fullAt r.dpa then (if clear then s.arriveWfc plain else s.arriveWf plain)
  else
    let own := s.ownerOf r.dpa r.ptr
    if own = 0 then s.park plain else s.answer r (.owner own)

def State.arriveProbe (s : State) (r : Req) : State :=
  let full := s.fullAt r.dpa
  let (v, s') := s.readAt r.dpa
  s'.answer r (.probed v full)

def State.arrivePget (s : State) (r : Req) : State :=
  s.answer r (.value { v := wd (b2n (s.fullAt r.dpa)), p := false })

/-- Records of one vault or one loft (R76). -/
def State.watchRoom (s : State) (d : Nat) : Bool :=
  decide ((s.watches.filter (fun w => dpaLoft w.dpa == dpaLoft d && dpaTile w.dpa == dpaTile d
    && dpaPkg w.dpa == dpaPkg d)).length < (if dpaLoft d then 64 else 512))

def State.arriveWatch (s : State) (r : Req) : State :=
  match r.op with
  | .watch type =>
    let w : Watch :=
      { num := s.freshId, dpa := wordOf r.dpa, ptr := r.ptr, type := type, tile := r.src, package := s.package.toNat, tenant := r.tenant
        part := r.part, house := r.part == 16 }
    match (if (s.tagAt r.dpa).watched then s.watches.find? (fun x => x.dpa == wordOf r.dpa) else none) with
    | some old =>
      let s' := s.bumpId.watchMsg old 4 (s.gval r.dpa)
      (({ s' with watches := s'.watches.map (fun (x : Watch) => if x.dpa == wordOf r.dpa then w else x) }).setTag r.dpa
        (fun t => { t with watched := true })).answer r .done
    | none =>
      if s.watchRoom r.dpa then
        ((({ s.bumpId with watches := s.watches ++ [w] }).setTag r.dpa (fun t => { t with watched := true })).seal r.dpa).answer
          r .done
      else s.answer r .refused
  | _ => s

def State.arriveUnwatch (s : State) (r : Req) : State :=
  if (s.tagAt r.dpa).watched then
    ((({ s with watches := s.watches.filter (fun (x : Watch) => x.dpa != wordOf r.dpa) }).setTag r.dpa
      (fun t => { t with watched := false })).seal r.dpa).answer r .done
  else s.answer r .done

/-! ### Atomics (R229 to R231) -/

/-- The new value of an integer atomic on `n` bits, or none for a failed cas. -/
def amoNew (op : AmoOp) (n old b c : Nat) : Option Nat :=
  match op with
  | .add => some ((old + b) % 2 ^ n)
  | .and => some (old &&& b)
  | .or => some (old ||| b)
  | .xor => some (old ^^^ b)
  | .min => some (if signed n old ≤ signed n b then old else b)
  | .max => some (if signed n old ≤ signed n b then b else old)
  | .swap => some b
  | .cas => if old = c then some b else none
  | .addFp32 => some (addF 23 0 old b)
  | .maxFp32 => some (maxF 23 old b)

def State.arriveAmo (s : State) (r : Req) : State :=
  match r.op with
  | .amo op width =>
    let word := s.gval r.dpa
    let n := 8 * width
    let old := word.v.toNat / 2 ^ (8 * (r.dpa % 8)) % 2 ^ n
    if op = .cas ∧ (word.p = true ∨ r.cmp.p = true) then s.answer r (.failed cPOISON_CONSUMED)
    else
      let p := word.p || r.val.p
      let ret : Word :=
        if width = 4 ∧ op ≠ .addFp32 ∧ op ≠ .maxFp32 then BitVec.ofInt 64 (signed 32 old) else wd old
      match amoNew op n old (r.val.v.toNat % 2 ^ n) (r.cmp.v.toNat % 2 ^ n) with
      | none => s.answer r (.value ⟨ret, p⟩)
      | some x =>
        if r.guest && p then s.answer r .poisoned
        else (((s.putValue r.dpa width ⟨wd x, p⟩).wroteEvent r.dpa).answer r (.value ⟨ret, p⟩))
  | _ => s

/-- Does the request cross Midway (R14)? -/
def Req.crosses (r : Req) : Bool := r.src / 64 != dpaTile r.dpa / 64

/-- May Midway's switches combine two fetch-and-adds (R232)? -/
def Req.combines (r q : Req) : Bool :=
  (match r.op, q.op with
    | .amo .add w, .amo .add v => w == v
    | _, _ => false)
  && !dpaLoft r.dpa && q.dpa == r.dpa && q.tenant == r.tenant && ptrIdx q.ptr == ptrIdx r.ptr && q.gen == r.gen
  && r.crosses && q.crosses && q.src != r.src

/-- The Midway port through which a tile's packets leave its tower (R14, R15). -/
def midwayPort (tile : Nat) : Nat := tile / 64 * 16 + tile % 64 / 16 * 4 + tile % 8 / 2

/-- Order of service among the components of a combined add: stage j of the omega network joins ports that differ in bit 8 - j of their
number, a port whose bit is 0 being the upper one, and the last stage decides first (R15, R65; log 42). -/
def upperFirst (port : Nat) : Nat := (List.range 8).foldl (fun n j => 2 * n + port / 2 ^ j % 2) 0

/-- The adds in flight that may be combined with the arriving one: they come through other ports, on a lower input than it. -/
def State.combinable (s : State) (k : Nat) (r : Req) : List Req :=
  (s.net.zipIdx.filter (fun (q, j) => j != k && r.combines q && s.mayArrive j q
    && decide (upperFirst (midwayPort r.src) < upperFirst (midwayPort q.src)))).map (fun x => x.1)

/-- The adds that have been combined with the arriving one, in their order of service: which of those that may, the switches decide
(log 42), one of each port. -/
def State.components (s : State) (k : Nat) (r : Req) : List Req :=
  let some_ := ((s.combinable k r).zipIdx.filter (fun (_, n) =>
    (Sys2Proof.Config.freeWord s.free).toNat.testBit (n % 64))).map (fun x => x.1)
  (List.range 256).filterMap (fun n => some_.find? (fun q => upperFirst (midwayPort q.src) == n))

/-- One component is performed (R232). -/
def State.component (s : State) (q : Req) : State :=
  let s := { s with net := s.net.erase q }.openLine q
  if s.quarantined q.dpa then s.answer q (.failed cSEAL_INTEGRITY) else s.arriveAmo q

/-- rdx.add: the slot holds a zero-extended fp32 (R233). -/
def State.arriveRdxAdd (s : State) (r : Req) : State :=
  let slot := s.gval r.dpa
  let sum := addF 23 0 (slot.v.toNat % 2 ^ 32) (r.val.v.toNat % 2 ^ 32)
  ((s.putValue r.dpa 8 ⟨wd sum, slot.p || r.val.p⟩).wroteEvent r.dpa).answer r .done

/-! ### Words that a unit uses -/

/-- Can the word be written: DEAD_TARGET and SEAL_INTEGRITY are found at the home (R409, R123). -/
def State.homeStop (s : State) (d : Nat) (changes : Bool) : Option Nat :=
  if dpaLoft d && !(s.tileAt (dpaTile d)).running then some cDEAD_TARGET
  else if changes && s.quarantined d then some cSEAL_INTEGRITY
  else none

/-- The home does not answer now, or its bank has admitted a requester of this cycle that ranks after the unit (R65); a host's engine
and firmware have no rank. -/
def State.gated (s : State) (d : Nat) (rank : Option Nat := none) : Bool :=
  s.homeWaits d || (match rank with
    | none => false
    | some n => s.outRanked d n)

/-- The key that a unit's reference names: that of a window for its sharers, else the tenant's own (R30, R109). -/
def State.keyFor (s : State) (d tenant : Nat) : Nat :=
  match s.windowOf (lineOf d) with
  | some w => if w.sharers.any (fun y => y.1 == tenant) then w.slot else 0
  | none => 0

/-- The line is opened for a unit that reads the word, or writes it; its bank admits the unit (R65). -/
def State.openUnit (s : State) (d tenant part : Nat) (ptr : Word) (write : Bool := false) (rank : Option Nat := none) : State :=
  let s := match rank with
    | none => s
    | some n => s.noteServed d n
  s.openLine
    { id := 0, src := dpaTile d, slot := 512, op := if write then .sf else .load 8 false, dpa := d, ptr := ptr, tenant := tenant
      part := part, key := s.keyFor d tenant }

/-! ### Granted lines (R113) -/

/-- A line is granted: it reads as 0, full and unwatched, no key seals it, and its COUNT stays. -/
def State.grantLine (s : State) (d : Nat) : State :=
  let s := s.dropWatches (fun w => lineOf w.dpa == lineOf d)
  let s' := (List.range 8).foldl (fun (s : State) j => s.setTagAt (lineOf d + 8 * j) {}) s
  { s' with
    mem := writeBytes s'.mem (lineOf d) 64 0
    badLines := s'.badLines.filter (fun b => b.1 != lineOf d)
    lineKeys := Map.set (fun _ => 0) s'.lineKeys (lineOf d) 0
    ctr := Map.set freshLine s'.ctr (lineOf d) (BitVec.ofNat 56 (2 ^ 55 + lineCount (s.lineCtr d))) }.dirtyCtr d

/-- The home of a region address in every tile of a reduction region, which has a slot there (R42); elsewhere the one home. -/
def State.homesOf (s : State) (k ra : Nat) : List Nat :=
  let d := s.homeOf k ra
  if (s.region k).rdx then (List.range 1024).map (fun t => mkDpa false s.package.toNat t (dpaBank d) (dpaOff d)) else [d]

/-- A range is granted, line by line. -/
def State.grantRange (s : State) (k base size : Nat) : State :=
  (List.range (size / 64)).foldl (fun (s : State) j =>
    (s.homesOf k (base + 64 * j)).foldl (fun (s : State) d => s.grantLine d) s) s

end Sys2Proof.Machine
end

