-- ==== Sys2Proof/Machine/Operands.lean ====
section
/-! DEFINITION. The operand forms of the scalar classes: register and immediate operands, waiting for a register that awaits
a load (R202), poison of the result (R201), the consumption of compared operands, and transfers of control with the target
checks of R179 in the order of R216. -/

namespace Sys2Proof.Machine

open Sys2Proof (Word Byte Elem Instr)

/-- A register field as a register number, and as a key of `Ctx.pend`. -/
abbrev gr {n : Nat} (r : BitVec n) : Nat := r.toNat

/-- The low 32 bits of a register as a number (R207). -/
def low32 (w : Word) : Nat := w.toNat % 2 ^ 32

/-- d ← f a b, carrying poison (R201). -/
def State.alu2 (s : State) (frm : Form) (d a b : Nat) (f : Word → Word → Word) : Out :=
  s.reading [a, b] fun c =>
    s.complete (c.setG d ⟨f (c.getG a).v (c.getG b).v, (c.getG a).p || (c.getG b).p⟩) frm.len

/-- d ← f a, carrying poison. -/
def State.alu1 (s : State) (frm : Form) (d a : Nat) (f : Word → Word) : Out :=
  s.reading [a] fun c => s.complete (c.setG d ⟨f (c.getG a).v, (c.getG a).p⟩) frm.len

/-- d ← f a b for a compare: a poisoned operand traps POISON_CONSUMED (R201). -/
def State.cmp2 (s : State) (frm : Form) (d a b : Nat) (f : Word → Word → Bool) : Out :=
  s.reading [a, b] fun c =>
    if (c.getG a).p || (c.getG b).p then s.trapPoison (frm.tv c.latch)
    else s.complete (c.setG d ⟨wd (b2n (f (c.getG a).v (c.getG b).v)), false⟩) frm.len

/-- A compare with an immediate. -/
def State.cmp1 (s : State) (frm : Form) (d a : Nat) (f : Word → Bool) : Out :=
  s.reading [a] fun c =>
    if (c.getG a).p then s.trapPoison (frm.tv c.latch)
    else s.complete (c.setG d ⟨wd (b2n (f (c.getG a).v)), false⟩) frm.len

/-- A scalar fp32 operation on bits [31:0] of two sources, rounded in c.round (R207). -/
def State.fp2 (s : State) (d a b : Nat) (f : Nat → Nat → Nat → Nat) : Out :=
  s.alu2 {} d a b (fun x y => wd (f s.me.round.toNat (low32 x) (low32 y)))

def State.fp1 (s : State) (d a : Nat) (f : Nat → Nat → Nat) : Out :=
  s.alu1 {} d a (fun x => wd (f s.me.round.toNat (low32 x)))

/-- The context, with the registers it has written, goes on at `target`; the checks of R179 come first. -/
def State.transfer (s : State) (frm : Form) (c : Ctx) (target : Word) : Out :=
  match targetFault target with
  | some cause => s.trap cause (frm.tv target)
  | none => .next (s.setMe { c with pc := target })

/-- A pointer `k` halfwords on (R209, R213, R214). -/
def halfwordsOn (p k : Word) : Word := padd p (k * 2)

/-- A conditional branch on registers (R213, R216). -/
def State.branch2 (s : State) (frm : Form) (a b : Nat) (off : Word) (taken : Word → Word → Bool) : Out :=
  s.reading [a, b] fun c =>
    if (c.getG a).p || (c.getG b).p then s.trapPoison (frm.tv c.latch)
    else if taken (c.getG a).v (c.getG b).v then s.transfer frm c (halfwordsOn c.pc off)
    else s.complete c frm.len

/-- A relative jump, with the link in `d` (g0 for none) (R214). -/
def State.jumpRel (s : State) (frm : Form) (d : Nat) (off : Word) : Out :=
  s.transfer frm (s.me.setG d ⟨s.me.pc + wd frm.len, false⟩) (halfwordsOn s.me.pc off)

/-- A register jump, with the link in `d`; `a` is read before `d` is written (R214). -/
def State.jumpReg (s : State) (frm : Form) (d a : Nat) (disp : Word) : Out :=
  s.reading [a] fun c =>
    if (c.getG a).p then s.trapPoison (frm.tv c.latch)
    else s.transfer frm (c.setG d ⟨c.pc + wd frm.len, false⟩) (halfwordsOn (c.getG a).v disp)

end Sys2Proof.Machine
end

