-- ==== Sys2Proof/Machine/Memory.lean ====
section
/-! DEFINITION. Loads, stores, sync loads and stores, ldm and stm, presence and watch references, fences and ifence, as the
context issues them (R217 to R228), and their compact forms (R192). What they do at the home is in Bank. -/

namespace Sys2Proof.Machine

open Sys2Proof

/-- EA and Access of R218: the base is consumed, the pointer formed and checked; then `k` goes on with the target. -/
def State.access (s : State) (frm : Form) (keys : List Nat) (base : Nat) (disp : Word) (width : Nat) (need : Need)
    (k : State → Target → Word → Out) : Out :=
  s.reading (base :: keys) fun c =>
    if (c.getG base).p then s.trapPoison (frm.tv c.latch)
    else
      let ptr := padd (c.getG base).v disp
      s.port ptr (frm.tv ptr) width need (fun s t => k s t ptr)

/-- A reference of the issuing context. -/
def State.reqFor (s : State) (frm : Form) (op : MemOp) (t : Target) (ptr : Word) : Req :=
  let c := s.me
  { id := s.freshId, src := tileOf s.cur, slot := slotOf s.cur, op := op, dpa := t.dpa, ptr := ptr
    tenant := c.tenant.toNat, part := s.partOf s.cur, win := t.win, len := frm.len, deadline := c.timeout.toNat
    limit := c.retry.toNat, tries := c.again, pc := c.pc, key := t.key, gen := t.gen, guest := s.hostShared t }

/-- A non-blocking reference leaves; its destination registers await the answer, and the context goes on (R96). -/
def State.issue (s : State) (r : Req) : Out :=
  .next ({ s.bumpId with net := s.net ++ [r] }.setMe ((s.me.expect r.dest r.id).advance r.len))

/-- A blocking reference leaves; the context issues nothing until it is performed or traps (R96). -/
def State.issueBlocking (s : State) (r : Req) : Out :=
  .next ({ s.bumpId with net := s.net ++ [{ r with blocking := true }] }.setMe
    { s.me with st := .blocked (.ref r.id), wait := some r })

/-- Displacement of format M: off11 in units of the width (R217). -/
def dispM (off : BitVec 11) (width : Nat) : Word := sext off * wd width

def needR : Need := { r := true }
def needW : Need := { w := true }
def needRS : Need := { r := true, s := true }
def needWS : Need := { w := true, s := true }
def needRWA : Need := { r := true, w := true, a := true }

/-- A plain load (R219). -/
def State.load (s : State) (frm : Form) (d base : Nat) (disp : Word) (width : Nat) (signExt : Bool) : Out :=
  s.access frm [] base disp width needR fun s t ptr =>
    s.issue { s.reqFor frm (.load width signExt) t ptr with dest := [d] }

/-- A plain store (R220, R223). -/
def State.store (s : State) (frm : Form) (d base : Nat) (disp : Word) (width : Nat) : Out :=
  s.access frm [d] base disp width needW fun s t ptr =>
    if (s.me.getG d).p && s.hostShared t then s.trapPoison (frm.tv s.me.latch)
    else s.issue { s.reqFor frm (.store width) t ptr with val := s.me.getG d }

def execLdB (d b : BitVec 5) (off : BitVec 11) (s : State) : Out := s.load {} (gr d) (gr b) (dispM off 1) 1 true
def execLdBz (d b : BitVec 5) (off : BitVec 11) (s : State) : Out := s.load {} (gr d) (gr b) (dispM off 1) 1 false
def execLdH (d b : BitVec 5) (off : BitVec 11) (s : State) : Out := s.load {} (gr d) (gr b) (dispM off 2) 2 true
def execLdHz (d b : BitVec 5) (off : BitVec 11) (s : State) : Out := s.load {} (gr d) (gr b) (dispM off 2) 2 false
def execLdW (d b : BitVec 5) (off : BitVec 11) (s : State) : Out := s.load {} (gr d) (gr b) (dispM off 4) 4 true
def execLdWz (d b : BitVec 5) (off : BitVec 11) (s : State) : Out := s.load {} (gr d) (gr b) (dispM off 4) 4 false
def execLdD (d b : BitVec 5) (off : BitVec 11) (s : State) : Out := s.load {} (gr d) (gr b) (dispM off 8) 8 false

def execStB (d b : BitVec 5) (off : BitVec 11) (s : State) : Out := s.store {} (gr d) (gr b) (dispM off 1) 1
def execStH (d b : BitVec 5) (off : BitVec 11) (s : State) : Out := s.store {} (gr d) (gr b) (dispM off 2) 2
def execStW (d b : BitVec 5) (off : BitVec 11) (s : State) : Out := s.store {} (gr d) (gr b) (dispM off 4) 4
def execStD (d b : BitVec 5) (off : BitVec 11) (s : State) : Out := s.store {} (gr d) (gr b) (dispM off 8) 8

def execLdN (x y : BitVec 5) (s : State) : Out := s.load (compactForm (wordLdN x y)) (gr x) (gr y) 0 8 false
def execLdspN (x imm : BitVec 5) (s : State) : Out :=
  s.load (compactForm (wordLdspN x imm)) (gr x) 3 (wd (8 * imm.toNat)) 8 false
def execStN (x y : BitVec 5) (s : State) : Out := s.store (compactForm (wordStN x y)) (gr x) (gr y) 0 8
def execStspN (x imm : BitVec 5) (s : State) : Out :=
  s.store (compactForm (wordStspN x imm)) (gr x) 3 (wd (8 * imm.toNat)) 8

/-! ### Sync loads and stores (R221, R222) -/

/-- A sync load: an ordering point (R409), blocking. -/
def State.syncLoad (s : State) (d b : BitVec 5) (off : BitVec 11) (op : MemOp) : Out :=
  s.orderPoint fun s =>
    s.access {} [] (gr b) (dispM off 8) 8 needRS fun s t ptr =>
      s.issueBlocking { s.reqFor {} op t ptr with dest := [gr d] }

/-- A help form acts as its unqualified form when c.adopt.OFF = 1 or LIMIT = 0 (R221, R162). -/
def Ctx.helpOp (c : Ctx) (clear : Bool) : MemOp :=
  if c.adoptOff || c.limit == 0 || c.plainWait then (if clear then .wfc else .wf) else .help clear

def execLdDWf (d b : BitVec 5) (off : BitVec 11) (s : State) : Out := s.syncLoad d b off .wf
def execLdDWfc (d b : BitVec 5) (off : BitVec 11) (s : State) : Out := s.syncLoad d b off .wfc
def execLdDWfHelp (d b : BitVec 5) (off : BitVec 11) (s : State) : Out := s.syncLoad d b off (s.me.helpOp false)
def execLdDWfcHelp (d b : BitVec 5) (off : BitVec 11) (s : State) : Out := s.syncLoad d b off (s.me.helpOp true)
/-- The presence bit goes to g[(d + 1) mod 32] (R221). -/
def execLdDPr (d b : BitVec 5) (off : BitVec 11) (s : State) : Out :=
  s.orderPoint fun s =>
    s.access {} [] (gr b) (dispM off 8) 8 needRS fun s t ptr =>
      s.issueBlocking { s.reqFor {} .probe t ptr with dest := [gr d, (gr d + 1) % 32] }

/-- A store that is a release (R99, R222, R223): `blocking` for .we. -/
def State.syncStore (s : State) (d b : BitVec 5) (off : BitVec 11) (op : MemOp) (blocking : Bool) : Out :=
  s.orderPoint fun s =>
    s.access {} [gr d] (gr b) (dispM off 8) 8 needWS fun s t ptr =>
      if (s.me.getG (gr d)).p && s.hostShared t then s.trapPoison s.me.latch
      else
        let r := { s.reqFor {} op t ptr with val := s.me.getG (gr d), rel := true }
        if blocking then s.issueBlocking r else s.issue r

def execStDSf (d b : BitVec 5) (off : BitVec 11) (s : State) : Out := s.syncStore d b off .sf false
def execStDWe (d b : BitVec 5) (off : BitVec 11) (s : State) : Out := s.syncStore d b off .we true

/-! ### ldm.d and stm.d (R224) -/

/-- All the words are checked before any event; the first that fails decides the trap. -/
def State.portAll (s : State) (need : Need) (done : List (Word × Target)) (k : State → List (Word × Target) → Out) :
    List Word → Out
  | [] => k s done.reverse
  | p :: ps => s.port p p 8 need (fun s t => s.portAll need ((p, t) :: done) k ps)

/-- Pointers of `n` consecutive words. -/
def wordsFrom (ptr : Word) (n : Nat) : List Word := (List.range n).map (fun j => padd ptr (wd (8 * j)))

/-- The requests, numbered in order; `f j` completes the j-th. -/
def State.reqsFor (s : State) (op : MemOp) (f : Nat → Req → Req) : Nat → List (Word × Target) → List Req
  | _, [] => []
  | j, (p, t) :: ps => f j { s.reqFor {} op t p with id := s.freshId + j } :: s.reqsFor op f (j + 1) ps

/-- The requests of one instruction leave together, if the port can track them all (R48), and the context goes on. -/
def State.issueAll (s : State) (rs : List Req) (len : Nat) : Out :=
  if 4096 < s.outstanding (tileOf s.cur) + rs.length then s.stall
  else .next ({ s with net := s.net ++ rs, fresh := s.fresh + rs.length }.setMe
    ((rs.foldl (fun (c : Ctx) (r : Req) => c.expect r.dest r.id) s.me).advance len))

def execLdmD (d a b : BitVec 5) (imm : BitVec 6) (s : State) : Out :=
  s.reading [gr a] fun c =>
    if (c.getG (gr a)).p then s.trapPoison c.latch
    else
      s.portAll needR [] (fun s ws =>
        s.issueAll (s.reqsFor (.load 8 false) (fun j r => { r with dest := [(gr d + j) % 32] }) 0 ws) 4)
        (wordsFrom (padd (c.getG (gr a)).v (sext imm * 8)) (b.toNat + 1))

def execStmD (d a b : BitVec 5) (imm : BitVec 6) (s : State) : Out :=
  s.reading (gr a :: (List.range (b.toNat + 1)).map (fun j => (gr d + j) % 32)) fun c =>
    if (c.getG (gr a)).p then s.trapPoison c.latch
    else
      s.portAll needW [] (fun s ws =>
        if (ws.zipIdx.any (fun (pt, j) => (s.me.getG ((gr d + j) % 32)).p && s.hostShared pt.2)) then s.trapPoison s.me.latch
        else s.issueAll (s.reqsFor (.store 8) (fun j r => { r with val := s.me.getG ((gr d + j) % 32) }) 0 ws) 4)
        (wordsFrom (padd (c.getG (gr a)).v (sext imm * 8)) (b.toNat + 1))

/-! ### Presence and watch (R225, R226) -/

/-- pset is a release, so an ordering point; it does not block. -/
def execPset (b : BitVec 5) (off : BitVec 11) (s : State) : Out :=
  s.orderPoint fun s =>
    s.access {} [] (gr b) (dispM off 8) 8 needWS fun s t ptr => s.issue { s.reqFor {} .pset t ptr with rel := true }
def execPclr (b : BitVec 5) (off : BitVec 11) (s : State) : Out :=
  s.access {} [] (gr b) (dispM off 8) 8 needWS fun s t ptr => s.issue (s.reqFor {} .pclr t ptr)
def execPget (d b : BitVec 5) (off : BitVec 11) (s : State) : Out :=
  s.access {} [] (gr b) (dispM off 8) 8 needR fun s t ptr => s.issue { s.reqFor {} .pget t ptr with dest := [gr d] }

/-- The pointer is checked first (R218), then the message type (log 21). -/
def execWatch (d b : BitVec 5) (off : BitVec 11) (s : State) : Out :=
  s.orderPoint fun s =>
    s.access {} [gr d] (gr b) (dispM off 8) 8 needRS fun s t ptr =>
      let x := s.me.getG (gr d)
      if x.p then s.trapPoison s.me.latch
      else if fld x.v 7 0 = 0xFF then s.trap cILLEGAL_OPERAND 0xFF
      else s.issueBlocking (s.reqFor {} (.watch (BitVec.ofNat 8 (fld x.v 7 0))) t ptr)
def execUnwatch (b : BitVec 5) (off : BitVec 11) (s : State) : Out :=
  s.orderPoint fun s =>
    s.access {} [] (gr b) (dispM off 8) 8 needRS fun s t ptr => s.issueBlocking (s.reqFor {} .unwatch t ptr)

/-! ### Fences and ifence (R227, R228) -/

/-- The context is BLOCKED until the covered accesses have been performed; the fence is an ordering point (R409). -/
def State.fence (s : State) (sc : Scope) (readsOnly : Bool) : Out :=
  s.orderPoint fun s => if s.fenceWaits s.cur sc readsOnly then s.stall else s.complete s.me 4

def execFenceAcqTile (s : State) : Out := s.fence .tile true
def execFenceAcqTower (s : State) : Out := s.fence .tower true
def execFenceAcqPkg (s : State) : Out := s.fence .pkg true
def execFenceAcqDom (s : State) : Out := s.fence .dom true
def execFenceAcqWin (s : State) : Out := s.fence .win true
def execFenceRelTile (s : State) : Out := s.fence .tile false
def execFenceRelTower (s : State) : Out := s.fence .tower false
def execFenceRelPkg (s : State) : Out := s.fence .pkg false
def execFenceRelDom (s : State) : Out := s.fence .dom false
def execFenceRelWin (s : State) : Out := s.fence .win false
def execFenceFullTile (s : State) : Out := s.fence .tile false
def execFenceFullTower (s : State) : Out := s.fence .tower false
def execFenceFullPkg (s : State) : Out := s.fence .pkg false
/-- fence.full.dom covers all accesses (R98). -/
def execFenceFullDom (s : State) : Out := s.fence .all false
def execFenceFullWin (s : State) : Out := s.fence .win false

/-- Once the reads before it are performed, the fetched-ahead halfwords of the context are discarded: what has been overwritten until now
is not fetched any more (R228, R111). -/
def execIfence (s : State) : Out :=
  s.orderPoint fun s =>
    if s.fenceWaits s.cur .all true then s.stall else s.complete { s.me with fenced := s.codeOld.length } 4

end Sys2Proof.Machine
end

