-- ==== Sys2Proof/Machine/Atomics.lean ====
section
/-! DEFINITION. Atomics and reduce cells as the context issues them (R229 to R234). -/

namespace Sys2Proof.Machine

open Sys2Proof

/-- Will the home refuse the atomic for poison: a cas that compares it (R230), a write of it into a window that a host shares
(R223)? Asked of the word as it stands at issue. -/
def State.amoRefused (s : State) (op : AmoOp) (t : Target) (b c : GVal) : Bool :=
  (decide (op = .cas) && ((s.gval t.dpa).p || c.p)) || (s.hostShared t && ((s.gval t.dpa).p || b.p))

/-- An atomic: b, and c for cas, are read at issue; d awaits the old value (R229). It does not block (R96), but for one that its
home refuses: its trap is precise (R230, R325), so the context goes no further (log 40). -/
def State.amo (s : State) (op : AmoOp) (width : Nat) (d a b c : Nat) : Out :=
  s.access {} [b, c] a 0 width needRWA fun s t ptr =>
    if (s.me.getG b).p && s.hostShared t && decide (op ≠ .cas) then s.trapPoison s.me.latch
    else
      let r := { s.reqFor {} (.amo op width) t ptr with val := s.me.getG b, cmp := s.me.getG c, dest := [d] }
      if s.amoRefused op t r.val r.cmp then s.issueBlocking r else s.issue r

def execAmoAdd (d a b : BitVec 5) (s : State) : Out := s.amo .add 8 (gr d) (gr a) (gr b) 0
def execAmoAnd (d a b : BitVec 5) (s : State) : Out := s.amo .and 8 (gr d) (gr a) (gr b) 0
def execAmoOr (d a b : BitVec 5) (s : State) : Out := s.amo .or 8 (gr d) (gr a) (gr b) 0
def execAmoXor (d a b : BitVec 5) (s : State) : Out := s.amo .xor 8 (gr d) (gr a) (gr b) 0
def execAmoMin (d a b : BitVec 5) (s : State) : Out := s.amo .min 8 (gr d) (gr a) (gr b) 0
def execAmoMax (d a b : BitVec 5) (s : State) : Out := s.amo .max 8 (gr d) (gr a) (gr b) 0
def execAmoSwap (d a b : BitVec 5) (s : State) : Out := s.amo .swap 8 (gr d) (gr a) (gr b) 0
def execAmoCas (d a b c : BitVec 5) (s : State) : Out := s.amo .cas 8 (gr d) (gr a) (gr b) (gr c)
def execAmoAddW (d a b : BitVec 5) (s : State) : Out := s.amo .add 4 (gr d) (gr a) (gr b) 0
def execAmoAndW (d a b : BitVec 5) (s : State) : Out := s.amo .and 4 (gr d) (gr a) (gr b) 0
def execAmoOrW (d a b : BitVec 5) (s : State) : Out := s.amo .or 4 (gr d) (gr a) (gr b) 0
def execAmoXorW (d a b : BitVec 5) (s : State) : Out := s.amo .xor 4 (gr d) (gr a) (gr b) 0
def execAmoMinW (d a b : BitVec 5) (s : State) : Out := s.amo .min 4 (gr d) (gr a) (gr b) 0
def execAmoMaxW (d a b : BitVec 5) (s : State) : Out := s.amo .max 4 (gr d) (gr a) (gr b) 0
def execAmoSwapW (d a b : BitVec 5) (s : State) : Out := s.amo .swap 4 (gr d) (gr a) (gr b) 0
def execAmoCasW (d a b c : BitVec 5) (s : State) : Out := s.amo .cas 4 (gr d) (gr a) (gr b) (gr c)
def execAmoAddFp32 (d a b : BitVec 5) (s : State) : Out := s.amo .addFp32 4 (gr d) (gr a) (gr b) 0
def execAmoMaxFp32 (d a b : BitVec 5) (s : State) : Out := s.amo .maxFp32 4 (gr d) (gr a) (gr b) 0

/-! ### Reduce cells (R233, R234) -/

/-- The cell pointer: a loft pointer, and a buffer whose region has RDX = 0, trap BUFFER_INVALID (R92, R233). -/
def State.cell (s : State) (keys : List Nat) (a : Nat) (need : Need) (k : State → Target → Word → Out) : Out :=
  s.reading (a :: keys) fun c =>
    let ptr := (c.getG a).v
    if (c.getG a).p then s.trapPoison c.latch
    else if ptrOff ptr % 8 ≠ 0 then s.trap cALIGN ptr
    else if loftIdx (ptrIdx ptr) then s.trap cBUFFER_INVALID ptr
    else s.port ptr ptr 8 need fun s t => if t.rdx then k s t ptr else s.trap cBUFFER_INVALID ptr

/-- The slot of a cell in a tile (R42). -/
def State.slotOfCell (s : State) (t : Target) (tile : Nat) : Target :=
  { t with dpa := mkDpa false s.package.toNat tile (dpaBank t.dpa) (dpaOff t.dpa) }

/-- A write of +0.0 to each of the 1024 slots (R234). -/
def execRdxInit (a : BitVec 5) (s : State) : Out :=
  s.cell [] (gr a) { a := true } fun s t ptr =>
    s.issueAll (s.reqsFor (.store 8) (fun _ r => r) 0 ((List.range 1024).map (fun tile => (ptr, s.slotOfCell t tile)))) 4

/-- The addend goes to the issuing tile's own slot. -/
def State.rdxAdd (s : State) (a b : Nat) (f : Nat → Nat) : Out :=
  s.cell [b] a { a := true } fun s t ptr =>
    let x := s.me.getG b
    s.issue { s.reqFor {} .rdxAdd (s.slotOfCell t (tileOf s.cur)) ptr with val := ⟨wd (f x.v.toNat), x.p⟩ }

def execRdxAddFp32 (a b : BitVec 5) (s : State) : Out := s.rdxAdd (gr a) (gr b) (· % 2 ^ 32)
def execRdxAddBf16 (a b : BitVec 5) (s : State) : Out := s.rdxAdd (gr a) (gr b) (fun x => widenBf16 (x % 2 ^ 16))

/-- The read travels to the home slot, which reads every slot (R234). -/
def execRdxRead (d a : BitVec 5) (s : State) : Out :=
  s.cell [] (gr a) { r := true, a := true } fun s t ptr => s.issue { s.reqFor {} .rdxRead t ptr with dest := [gr d] }

end Sys2Proof.Machine
end

