-- ==== Sys2Proof/Machine/Scalar.lean ====
section
/-! DEFINITION. The integer, scalar fp32, constant, pointer and bit-field instructions (R203 to R211) and their compact
forms (R192). -/

namespace Sys2Proof.Machine

open Sys2Proof

/-! ### Integer operations (R203 to R206) -/

/-- Signed division truncated toward zero, with the edge results of R204. -/
def divS (a b : Word) : Word :=
  if b = 0 then BitVec.allOnes 64 else BitVec.ofInt 64 (Int.tdiv a.toInt b.toInt)

def divU (a b : Word) : Word := if b = 0 then BitVec.allOnes 64 else wd (a.toNat / b.toNat)

/-- The remainder takes the sign of a (R203). -/
def remS (a b : Word) : Word := a - b * divS a b

def remU (a b : Word) : Word := a - b * divU a b

/-- Shift amounts are b[5:0] (R203). -/
def shl64 (a b : Word) : Word := a <<< (b.toNat % 64)
def shr64 (a b : Word) : Word := a >>> (b.toNat % 64)
def sra64 (a b : Word) : Word := a.sshiftRight (b.toNat % 64)

/-- Bits [127:64] of the product. -/
def mulHigh (a b : Word) : Word := BitVec.ofInt 64 (a.toInt * b.toInt / 2 ^ 64)
def mulHighU (a b : Word) : Word := wd (a.toNat * b.toNat / 2 ^ 64)

def minS (a b : Word) : Word := if a.toInt ≤ b.toInt then a else b
def maxS (a b : Word) : Word := if a.toInt ≤ b.toInt then b else a

/-- Number of leading zero bits, 0–64 (R205). -/
def leadingZeros (a : Word) : Nat := if a = 0 then 64 else 63 - Nat.log2 a.toNat

/-- Number of one bits in the low `n` bits. -/
def countOnes (x : Nat) : Nat → Nat
  | 0 => 0
  | n + 1 => x % 2 + countOnes (x / 2) n

def ltS (a b : Word) : Bool := decide (a.toInt < b.toInt)
def ltU (a b : Word) : Bool := decide (a.toNat < b.toNat)

def execAdd (d a b : BitVec 5) (s : State) : Out := s.alu2 {} (gr d) (gr a) (gr b) (· + ·)
def execSub (d a b : BitVec 5) (s : State) : Out := s.alu2 {} (gr d) (gr a) (gr b) (· - ·)
def execAnd (d a b : BitVec 5) (s : State) : Out := s.alu2 {} (gr d) (gr a) (gr b) (· &&& ·)
def execOr (d a b : BitVec 5) (s : State) : Out := s.alu2 {} (gr d) (gr a) (gr b) (· ||| ·)
def execXor (d a b : BitVec 5) (s : State) : Out := s.alu2 {} (gr d) (gr a) (gr b) (· ^^^ ·)
def execAndn (d a b : BitVec 5) (s : State) : Out := s.alu2 {} (gr d) (gr a) (gr b) (fun x y => x &&& ~~~y)
def execShl (d a b : BitVec 5) (s : State) : Out := s.alu2 {} (gr d) (gr a) (gr b) shl64
def execShr (d a b : BitVec 5) (s : State) : Out := s.alu2 {} (gr d) (gr a) (gr b) shr64
def execSra (d a b : BitVec 5) (s : State) : Out := s.alu2 {} (gr d) (gr a) (gr b) sra64
def execMul (d a b : BitVec 5) (s : State) : Out := s.alu2 {} (gr d) (gr a) (gr b) (· * ·)
def execMulh (d a b : BitVec 5) (s : State) : Out := s.alu2 {} (gr d) (gr a) (gr b) mulHigh
def execMulhu (d a b : BitVec 5) (s : State) : Out := s.alu2 {} (gr d) (gr a) (gr b) mulHighU
def execDiv (d a b : BitVec 5) (s : State) : Out := s.alu2 {} (gr d) (gr a) (gr b) divS
def execDivu (d a b : BitVec 5) (s : State) : Out := s.alu2 {} (gr d) (gr a) (gr b) divU
def execRem (d a b : BitVec 5) (s : State) : Out := s.alu2 {} (gr d) (gr a) (gr b) remS
def execRemu (d a b : BitVec 5) (s : State) : Out := s.alu2 {} (gr d) (gr a) (gr b) remU
def execSlt (d a b : BitVec 5) (s : State) : Out := s.cmp2 {} (gr d) (gr a) (gr b) ltS
def execSltu (d a b : BitVec 5) (s : State) : Out := s.cmp2 {} (gr d) (gr a) (gr b) ltU
def execMin (d a b : BitVec 5) (s : State) : Out := s.alu2 {} (gr d) (gr a) (gr b) minS
def execMax (d a b : BitVec 5) (s : State) : Out := s.alu2 {} (gr d) (gr a) (gr b) maxS
def execClz (d a : BitVec 5) (s : State) : Out := s.alu1 {} (gr d) (gr a) (fun x => wd (leadingZeros x))
def execPopc (d a : BitVec 5) (s : State) : Out := s.alu1 {} (gr d) (gr a) (fun x => wd (countOnes x.toNat 64))

def execAddi (d a : BitVec 5) (imm : BitVec 11) (s : State) : Out := s.alu1 {} (gr d) (gr a) (· + sext imm)
def execAndi (d a : BitVec 5) (imm : BitVec 11) (s : State) : Out := s.alu1 {} (gr d) (gr a) (· &&& sext imm)
def execOri (d a : BitVec 5) (imm : BitVec 11) (s : State) : Out := s.alu1 {} (gr d) (gr a) (· ||| sext imm)
def execXori (d a : BitVec 5) (imm : BitVec 11) (s : State) : Out := s.alu1 {} (gr d) (gr a) (· ^^^ sext imm)
def execSlti (d a : BitVec 5) (imm : BitVec 11) (s : State) : Out := s.cmp1 {} (gr d) (gr a) (ltS · (sext imm))
def execSltui (d a : BitVec 5) (imm : BitVec 11) (s : State) : Out := s.cmp1 {} (gr d) (gr a) (ltU · (sext imm))
def execShli (d a : BitVec 5) (imm : BitVec 11) (s : State) : Out :=
  s.checked (limShli imm) (wordShli d a imm) (s.alu1 {} (gr d) (gr a) (shl64 · (wd imm.toNat)))
def execShri (d a : BitVec 5) (imm : BitVec 11) (s : State) : Out :=
  s.checked (limShri imm) (wordShri d a imm) (s.alu1 {} (gr d) (gr a) (shr64 · (wd imm.toNat)))
def execSrai (d a : BitVec 5) (imm : BitVec 11) (s : State) : Out :=
  s.checked (limSrai imm) (wordSrai d a imm) (s.alu1 {} (gr d) (gr a) (sra64 · (wd imm.toNat)))

/-! ### Scalar fp32 (R207, R208) -/

def execAddFp32 (d a b : BitVec 5) (s : State) : Out := s.fp2 (gr d) (gr a) (gr b) (addF 23)
def execSubFp32 (d a b : BitVec 5) (s : State) : Out := s.fp2 (gr d) (gr a) (gr b) (subF 23)
def execMulFp32 (d a b : BitVec 5) (s : State) : Out := s.fp2 (gr d) (gr a) (gr b) (mulF 23)
def execDivFp32 (d a b : BitVec 5) (s : State) : Out := s.fp2 (gr d) (gr a) (gr b) (divF 23)
def execSqrtFp32 (d a : BitVec 5) (s : State) : Out := s.fp1 (gr d) (gr a) (sqrtF 23)
def execMinFp32 (d a b : BitVec 5) (s : State) : Out := s.fp2 (gr d) (gr a) (gr b) (fun _ => minF 23)
def execMaxFp32 (d a b : BitVec 5) (s : State) : Out := s.fp2 (gr d) (gr a) (gr b) (fun _ => maxF 23)
def execFmaFp32 (d a b c : BitVec 5) (s : State) : Out :=
  s.reading [gr a, gr b, gr c] fun x =>
    s.complete (x.setG (gr d)
      ⟨wd (fmaF 23 x.round.toNat (low32 (x.getG (gr a)).v) (low32 (x.getG (gr b)).v) (low32 (x.getG (gr c)).v)),
        poisonOf [x.getG (gr a), x.getG (gr b), x.getG (gr c)]⟩) 4
def execSeqFp32 (d a b : BitVec 5) (s : State) : Out :=
  s.cmp2 {} (gr d) (gr a) (gr b) (fun x y => eqF 23 (low32 x) (low32 y))
def execSltFp32 (d a b : BitVec 5) (s : State) : Out :=
  s.cmp2 {} (gr d) (gr a) (gr b) (fun x y => ltF 23 (low32 x) (low32 y))
/-- The two conversions round to nearest even whatever c.round holds (R207). -/
def execCvtI32Fp32 (d a : BitVec 5) (s : State) : Out :=
  s.alu1 {} (gr d) (gr a) (fun x => BitVec.ofInt 64 (cvtI32 (low32 x)))
def execCvtFp32I32 (d a : BitVec 5) (s : State) : Out :=
  s.alu1 {} (gr d) (gr a) (fun x => wd (cvtFp32 (low32 x)))

/-! ### Constants, pointers and bit fields (R209 to R211) -/

def execLui (d : BitVec 5) (imm : BitVec 20) (s : State) : Out :=
  s.complete (s.me.setG (gr d) ⟨sext imm <<< 12, false⟩) 4
def execLpc (d : BitVec 5) (imm : BitVec 20) (s : State) : Out :=
  s.complete (s.me.setG (gr d) ⟨halfwordsOn s.me.pc (sext imm), false⟩) 4

def execPmk (d a b : BitVec 5) (s : State) : Out :=
  s.alu2 {} (gr d) (gr a) (gr b) (fun x y => wd (fld x 17 0 * 2 ^ 46 + fld y 45 0))
def execPidx (d a : BitVec 5) (s : State) : Out := s.alu1 {} (gr d) (gr a) (fun x => wd (ptrIdx x))
def execPoff (d a : BitVec 5) (s : State) : Out := s.alu1 {} (gr d) (gr a) (fun x => wd (ptrOff x))
def execPadd (d a b : BitVec 5) (s : State) : Out := s.alu2 {} (gr d) (gr a) (gr b) padd

/-- The field of `w` bits at `lo`, zero-extended. -/
def fieldU (x : Word) (lo w : Nat) : Word := wd (x.toNat / 2 ^ lo % 2 ^ w)
/-- The same field, sign-extended. -/
def fieldS (x : Word) (lo w : Nat) : Word := BitVec.ofInt 64 (signed w (x.toNat / 2 ^ lo))
/-- Bits [lo + w − 1 : lo] of `old` replaced by the low bits of `x`. -/
def fieldInsert (old x : Word) (lo w : Nat) : Word :=
  wd (old.toNat % 2 ^ lo + x.toNat % 2 ^ w * 2 ^ lo + old.toNat / 2 ^ (lo + w) * 2 ^ (lo + w))

def execBfx (d a b : BitVec 5) (imm : BitVec 6) (s : State) : Out :=
  s.checked (limBfx b imm) (wordBfx d a b imm) (s.alu1 {} (gr d) (gr a) (fieldS · imm.toNat (b.toNat + 1)))
def execBfxu (d a b : BitVec 5) (imm : BitVec 6) (s : State) : Out :=
  s.checked (limBfxu b imm) (wordBfxu d a b imm) (s.alu1 {} (gr d) (gr a) (fieldU · imm.toNat (b.toNat + 1)))
def execBfi (d a b : BitVec 5) (imm : BitVec 6) (s : State) : Out :=
  s.checked (limBfi b imm) (wordBfi d a b imm)
    (s.alu2 {} (gr d) (gr d) (gr a) (fun old x => fieldInsert old x imm.toNat (b.toNat + 1)))

/-! ### Compact forms (R192) -/

def execMvN (x y : BitVec 5) (s : State) : Out := s.alu2 (compactForm (wordMvN x y)) (gr x) (gr y) 0 (· + ·)
def execLiN (x imm : BitVec 5) (s : State) : Out := s.alu1 (compactForm (wordLiN x imm)) (gr x) 0 (· + sext imm)
def execAddN (x y : BitVec 5) (s : State) : Out := s.alu2 (compactForm (wordAddN x y)) (gr x) (gr x) (gr y) (· + ·)
def execAddiN (x imm : BitVec 5) (s : State) : Out := s.alu1 (compactForm (wordAddiN x imm)) (gr x) (gr x) (· + sext imm)
def execSubN (x y : BitVec 5) (s : State) : Out := s.alu2 (compactForm (wordSubN x y)) (gr x) (gr x) (gr y) (· - ·)
def execShliN (x imm : BitVec 5) (s : State) : Out :=
  s.alu1 (compactForm (wordShliN x imm)) (gr x) (gr x) (shl64 · (wd imm.toNat))
def execAndN (x y : BitVec 5) (s : State) : Out := s.alu2 (compactForm (wordAndN x y)) (gr x) (gr x) (gr y) (· &&& ·)
def execShriN (x imm : BitVec 5) (s : State) : Out :=
  s.alu1 (compactForm (wordShriN x imm)) (gr x) (gr x) (shr64 · (wd imm.toNat))
def execOrN (x y : BitVec 5) (s : State) : Out := s.alu2 (compactForm (wordOrN x y)) (gr x) (gr x) (gr y) (· ||| ·)
def execSraiN (x imm : BitVec 5) (s : State) : Out :=
  s.alu1 (compactForm (wordSraiN x imm)) (gr x) (gr x) (sra64 · (wd imm.toNat))
def execXorN (x y : BitVec 5) (s : State) : Out := s.alu2 (compactForm (wordXorN x y)) (gr x) (gr x) (gr y) (· ^^^ ·)
def execAndiN (x imm : BitVec 5) (s : State) : Out := s.alu1 (compactForm (wordAndiN x imm)) (gr x) (gr x) (· &&& sext imm)
def execNopN (s : State) : Out := s.complete s.me 2
def execAddspN (imm : BitVec 10) (s : State) : Out :=
  s.alu1 (compactForm (wordAddspN imm)) 3 3 (· + sext imm * 8)

end Sys2Proof.Machine
end

