-- ==== Sys2Proof/Machine/Control.lean ====
section
/-! DEFINITION. Branches, jumps, calls and loop (R212 to R216), and their compact forms (R192). -/

namespace Sys2Proof.Machine

open Sys2Proof

def execBrEq (a b : BitVec 5) (off : BitVec 11) (s : State) : Out :=
  s.branch2 {} (gr a) (gr b) (sext off) (fun x y => x == y)
def execBrNe (a b : BitVec 5) (off : BitVec 11) (s : State) : Out :=
  s.branch2 {} (gr a) (gr b) (sext off) (fun x y => x != y)
def execBrLt (a b : BitVec 5) (off : BitVec 11) (s : State) : Out := s.branch2 {} (gr a) (gr b) (sext off) ltS
def execBrGe (a b : BitVec 5) (off : BitVec 11) (s : State) : Out :=
  s.branch2 {} (gr a) (gr b) (sext off) (fun x y => !ltS x y)
def execBrLtu (a b : BitVec 5) (off : BitVec 11) (s : State) : Out := s.branch2 {} (gr a) (gr b) (sext off) ltU
def execBrGeu (a b : BitVec 5) (off : BitVec 11) (s : State) : Out :=
  s.branch2 {} (gr a) (gr b) (sext off) (fun x y => !ltU x y)
/-- The b field is 0, so the compare is with g0 (R213). -/
def execBrLtz (a : BitVec 5) (off : BitVec 11) (s : State) : Out := s.branch2 {} (gr a) 0 (sext off) ltS
def execBrGez (a : BitVec 5) (off : BitVec 11) (s : State) : Out :=
  s.branch2 {} (gr a) 0 (sext off) (fun x y => !ltS x y)

def execJmp (off : BitVec 20) (s : State) : Out := s.jumpRel {} 0 (sext off)
def execCall (d : BitVec 5) (off : BitVec 20) (s : State) : Out := s.jumpRel {} (gr d) (sext off)
def execJr (a : BitVec 5) (imm : BitVec 11) (s : State) : Out := s.jumpReg {} 0 (gr a) (sext imm)
def execCallr (d a : BitVec 5) (imm : BitVec 11) (s : State) : Out := s.jumpReg {} (gr d) (gr a) (sext imm)
/-- The target is g1 as it stands. -/
def execRet (s : State) : Out := s.jumpReg {} 0 1 0

/-- The decision uses a − 1, also when `a` is g0, whose write is discarded (R215). -/
def execLoop (a : BitVec 5) (off : BitVec 11) (s : State) : Out :=
  s.reading [gr a] fun c =>
    let x := c.getG (gr a)
    if x.p then s.trapPoison c.latch
    else
      let c' := c.setG (gr a) ⟨x.v - 1, false⟩
      if x.v - 1 = 0 then s.complete c' 4 else s.transfer {} c' (halfwordsOn c.pc (sext off))

def execBeqzN (x : BitVec 5) (off : BitVec 6) (s : State) : Out :=
  s.branch2 (compactForm (wordBeqzN x off)) (gr x) 0 (sext off) (fun a b => a == b)
def execBnezN (x : BitVec 5) (off : BitVec 6) (s : State) : Out :=
  s.branch2 (compactForm (wordBnezN x off)) (gr x) 0 (sext off) (fun a b => a != b)
def execJN (off : BitVec 11) (s : State) : Out := s.jumpRel (compactForm (wordJN off)) 0 (sext off)
def execJrN (x : BitVec 5) (s : State) : Out := s.jumpReg (compactForm (wordJrN x)) 0 (gr x) 0
def execCallrN (x : BitVec 5) (s : State) : Out := s.jumpReg (compactForm (wordCallrN x)) 1 (gr x) 0
def execRetN (s : State) : Out := s.jumpReg (compactForm wordRetN) 0 1 0

end Sys2Proof.Machine
end

