-- ==== Sys2Proof/Machine/Gang.lean ====
section
/-! DEFINITION. Barrier trees (R168 to R170), ending and leaving a gang (R253), the gang instructions (R250 to R253), borrowed
slots (R173, R254, R255) and stage queues (R171, R256, R257). -/

namespace Sys2Proof.Machine

open Sys2Proof

/-! ### Barrier objects (R168, R169) -/

def State.barAt (s : State) (t o : Nat) : Barrier := Map.get (fun _ => {}) (s.tileAt t).bars o
def State.setBarAt (s : State) (t o : Nat) (b : Barrier) : State :=
  s.setTileAt t { s.tileAt t with bars := Map.set (fun _ => {}) (s.tileAt t).bars o b }

/-- ARRIVED equals MEMBERS, and CARRIVED equals CHILDREN. -/
def Barrier.complete (b : Barrier) : Bool := b.v && b.arrived == b.members && b.carrived == b.children

/-- The child objects of an object: those that name it as their parent, and have not lost their root (R331). -/
def State.kidsOf (s : State) (t o : Nat) : List (Nat × Nat) :=
  s.tiles.flatMap (fun x =>
    (x.2.bars.filter (fun y => y.2.v && !y.2.root && y.2.rootless.isNone && y.2.ptile.toNat == t && y.2.pobj.toNat == o)).map
      (fun y => (x.1, y.1)))

/-- Root of the tree that holds an object; trees have at most three levels (R167). A rootless object has none but itself. -/
def State.rootOf (s : State) : Nat → Nat → Nat → Nat × Nat
  | 0, t, o => (t, o)
  | fuel + 1, t, o =>
    let b := s.barAt t o
    if b.root || b.rootless.isSome then (t, o) else s.rootOf fuel b.ptile.toNat b.pobj.toNat

/-- The objects of a tree, parents before their children. -/
def State.treeFrom (s : State) : Nat → Nat → Nat → List (Nat × Nat)
  | 0, t, o => [(t, o)]
  | fuel + 1, t, o => (t, o) :: (s.kidsOf t o).flatMap (fun k => s.treeFrom fuel k.1 k.2)

/-- The objects of the gang that an object belongs to; those of a gang that has lost its root carry one mark. -/
def State.treeOf (s : State) (t o : Nat) : List (Nat × Nat) :=
  match (s.barAt t o).rootless with
  | some n =>
    s.tiles.flatMap (fun x => (x.2.bars.filter (fun y => y.2.v && y.2.rootless == some n)).map (fun y => (x.1, y.1)))
  | none =>
    let r := s.rootOf 8 t o
    s.treeFrom 4 r.1 r.2

/-- Status of a release (R250). -/
def barStatus (episode : BitVec 16) (lost : Bool) : Word := wd (episode.toNat * 2 + b2n lost)

/-- The check of R169: a complete object reports to its parent, and a complete root releases the tree. The barrier unit of a tile at
G does nothing until its tile returns (R11, R23). -/
def State.checkBar (s : State) : Nat → Nat → Nat → State
  | 0, _, _ => s
  | fuel + 1, t, o =>
    let b := s.barAt t o
    if b.complete = false ∨ b.reported = true ∨ b.rootless.isSome = true ∨ (s.tileAt t).point = .g then s
    else if b.root then
      let b' := { b with episode := b.episode + 1, reported := true }
      let st := barStatus b'.episode b.lost
      let s' := s.setBarAt t o b'
      { s' with releases := s'.releases ++ (s'.treeFrom 4 t o).map (fun x => (x.1, x.2, st)) }
    else
      let p := (b.ptile.toNat, b.pobj.toNat)
      let s' := s.setBarAt t o { b with reported := true }
      let pb := s'.barAt p.1 p.2
      (s'.setBarAt p.1 p.2 { pb with carrived := pb.carrived + 1 }).checkBar fuel p.1 p.2

/-- The barrier unit of a tile that has returned from G makes up for the checks that it has missed. -/
def State.wakeBars (s : State) (t : Nat) : State := (List.range 16).foldl (fun (s : State) o => s.checkBar 8 t o) s

/-- A member's context, which a rotation may have saved before the barrier object (R175). -/
def State.updMember (s : State) (id : Nat) (f : Ctx → Ctx) : State :=
  match s.handedOver id with
  | some r =>
    { s with saved := s.saved.map (fun (x : Saved) => if x.ctx = id ∧ x.tenant = r.outgoing then { x with c := f x.c } else x) }
  | none => s.setCtxAt id (f (s.ctxAt id))

/-- Its tenant. -/
def State.memberTenant (s : State) (id : Nat) : Nat :=
  match s.handedOver id with
  | some r => r.outgoing
  | none => (s.ctxAt id).tenant.toNat

/-- A waiting member returns with the status. -/
def Ctx.released (c : Ctx) (status : Word) : Ctx :=
  let c := { c with arrived := false, lastStatus := status }
  match c.st with
  | .blocked (.barrier d) => { ((c.setG d ⟨status, false⟩).advance 4) with st := .ready }
  | _ => c

/-- One object receives the release (R169): its waiting members return with the status. -/
def State.releaseMember (s : State) (t : Nat) (b : Barrier) (status : Word) (slot : Nat) : State :=
  if b.members.getLsbD slot && b.arrived.getLsbD slot then s.updMember (ctxId t slot) (fun c => c.released status) else s

def State.releaseBar (s : State) (t o : Nat) (status : Word) : State :=
  let b := s.barAt t o
  let s' := s.setBarAt t o
    { b with
      arrived := 0
      carrived := 0
      reported := false
      lost := false
      episode := BitVec.ofNat 16 (status.toNat / 2) }
  (List.range 512).foldl (fun s slot => s.releaseMember t b status slot) s'

/-! ### Losing and leaving members (R170, R253) -/

/-- Live members of a tree, as contexts in ascending order of the objects and slots. -/
def State.liveMembers (s : State) (t o : Nat) : List Nat :=
  (s.treeOf t o).flatMap (fun x =>
    ((List.range 512).filter (fun sl => (s.barAt x.1 x.2).members.getLsbD sl)).map (fun sl => ctxId x.1 sl))

/-- Who receives GANG_LOST: the leader, or else the lowest live member. -/
def State.gangLeader (s : State) (t o : Nat) : Option Nat :=
  let b := s.barAt t o
  let lead := ctxId b.ltile.toNat b.lslot.toNat
  let live := s.liveMembers t o
  if live.contains lead then some lead else (live.foldl (fun m x => match m with | none => some x | some y => some (min y x)) none)

/-- A GANG_LOST message to context `id` (R170, R331): the lost tile and slot, and the episode. The root sends it as a bank does. -/
def State.sendLost (s : State) (id table : Nat) (type : BitVec 8) (lostTile lostSlot src episode : Nat) : State :=
  let m : Msg :=
    { id := s.freshId, dst := tileOf id, table := table, type := type, m0 := wd (lostTile * 512 + lostSlot), m1 := wd episode
      coord := BitVec.allOnes 64, src := src, tenant := s.memberTenant id, user := true, origin := .gang }
  { s.bumpId with msgs := s.msgs ++ [m] }

/-- The message of a gang that lost a member while its tree was as in `old`; the check of R169 has run since. A gang without a root has
none to send it. -/
def State.gangLost (s old : State) (t o lostTile lostSlot : Nat) : State :=
  let b := old.barAt t o
  let r := old.rootOf 8 t o
  match (if b.rootless.isSome then none else old.gangLeader t o) with
  | none => s
  | some id =>
    s.sendLost id (s.partOf (ctxId b.ltile.toNat b.lslot.toNat)) b.lostType lostTile lostSlot r.1 (s.barAt r.1 r.2).episode.toNat

/-- CHILDREN falls by 1, and a report already counted is withdrawn (R170). -/
def Barrier.loseChild (b : Barrier) (reported : Bool) : Barrier :=
  { b with children := b.children - 1, carrived := if reported then b.carrived - 1 else b.carrived }

/-- An object with no member and no child is removed from its parent, and a tree without objects is freed (R253). -/
def State.pruneBar (s : State) : Nat → Nat → Nat → State
  | 0, _, _ => s
  | fuel + 1, t, o =>
    let b := s.barAt t o
    if b.members = 0 ∧ (b.children = 0 ∨ b.rootless.isSome = true) then
      let s' := s.setBarAt t o {}
      if b.root || b.rootless.isSome then s'
      else
        let p := (b.ptile.toNat, b.pobj.toNat)
        let pb := s'.barAt p.1 p.2
        ((s'.setBarAt p.1 p.2 (pb.loseChild b.reported)).pruneBar fuel p.1 p.2).checkBar 8 p.1 p.2
    else s.checkBar 8 t o

/-- LOST is set in an object and in the root, whose status every member receives. -/
def State.markLost (s : State) (t o : Nat) : State :=
  let r := s.rootOf 8 t o
  let s' := s.setBarAt t o { s.barAt t o with lost := true }
  s'.setBarAt r.1 r.2 { s'.barAt r.1 r.2 with lost := true }

/-- A member's bits are cleared and the check runs again. -/
def State.dropMember (s : State) (id o : Nat) (lost : Bool) : State :=
  let t := tileOf id
  let b := s.barAt t o
  let s' := s.setBarAt t o
    { b with members := setBitIf b.members (slotOf id) false, arrived := setBitIf b.arrived (slotOf id) false }
  if lost then
    let old := s'.markLost t o
    (old.pruneBar 8 t o).gangLost old t o t (slotOf id)
  else s'.pruneBar 8 t o

/-- The cause of a member's failure, for the launch's status. -/
def Ctx.failCause (c : Ctx) : Nat :=
  match c.st with
  | .blocked (.escalated cause _ _ _) => cause
  | _ => if c.cause = 0 then cSYSCALL else c.cause.toNat

/-- The launcher's list of running members (R366); `cause` is that of a failure. -/
def State.memberGone (s : State) (id : Nat) (cause : Option Nat) : State :=
  let c := s.ctxAt id
  { s with
    launches := s.launches.map (fun (l : Launch) =>
      if l.tenant ≠ c.tenant.toNat then l
      else
        match l.live.find? (fun (m : Nat × Nat) => m.2 == id) with
        | none => l
        | some m =>
          let lower := match l.failed with
            | none => true
            | some (g, _) => decide (m.1 < g)
          { l with
            live := l.live.erase m
            failed := if lower then (match cause with | some n => some (m.1, n) | none => l.failed) else l.failed }) }

/-- The context stops being a member of its gang: by gleave or tdone, or lost (R170, R240, R253). -/
def State.leaveGang (s : State) (id : Nat) (lost : Bool) : State :=
  let c := s.ctxAt id
  let s' :=
    match c.obj with
    | some o => s.dropMember id o lost
    | none => s
  s'.memberGone id (if lost then some c.failCause else none)

/-! ### Ending the work of a slot -/

/-- What an idle slot keeps: its registers, which the next start sets, its tenant, binding and issue time (R157, R253, R408). -/
def Ctx.idle (c : Ctx) : Ctx :=
  { st := .idle, g := c.g, e := c.e, adoptsp := c.adoptsp, tenant := c.tenant, abind := c.abind
    lastIssue := c.lastIssue, lastTurn := c.lastTurn, pc := c.pc }

/-- A borrowed slot becomes IDLE with its own stack pointers (R173). -/
def Ctx.giveBack (c : Ctx) : Ctx :=
  match c.aside with
  | some (g3, sp) => { (({ c with g := [], e := [] }).setG 3 g3).idle with adoptsp := sp }
  | none => c.idle

def State.returnSlots (s : State) (tile : Nat) (slots : List Nat) : State :=
  slots.foldl (fun s sl => s.setCtxAt (ctxId tile sl) (s.ctxAt (ctxId tile sl)).giveBack) s

/-- The slot becomes IDLE, and its borrowed slots are returned. Answers still on their way find no one. -/
def State.idleSlot (s : State) (id : Nat) : State :=
  let c := s.ctxAt id
  (s.returnSlots (tileOf id) c.borrowed).setCtxAt id c.idle

/-- Every earlier reference of the context has been performed or has failed (R409). -/
def State.quiet (s : State) (id : Nat) : Bool := (s.pendingOf id).isEmpty

/-! ### The gang instructions (R250 to R253) -/

/-- A gang instruction outside a gang, or at d > 0, traps ILLEGAL_OPERAND with 0 (R250). -/
def State.inGang (s : State) (k : Nat → Out) : Out :=
  match s.me.obj with
  | some o => if s.me.gang = true ∧ s.me.depth = 0 then k o else s.trap cILLEGAL_OPERAND 0
  | none => s.trap cILLEGAL_OPERAND 0

/-- A rootless object traps GANG_LOST with the root's tile (R331). -/
def State.rooted (s : State) (o : Nat) (k : Out) : Out :=
  match (s.barAt (tileOf s.cur) o).rootless with
  | some root => s.trap cGANG_LOST (wd (root % 1024))
  | none => k

/-- The arrival, a release at dom, on its way to the context's own object (R251). -/
def State.arrival (s : State) (o : Nat) : State × Req :=
  let c := s.me
  let r : Req :=
    { id := s.freshId, src := tileOf s.cur, slot := slotOf s.cur, op := .arrive (tileOf s.cur) o
      dpa := mkDpa true s.package.toNat (tileOf s.cur) 0 0, ptr := 0, tenant := c.tenant.toNat, part := s.partOf s.cur
      rel := true }
  ({ s.bumpId with net := s.net ++ [r] }, r)

def execGarrive (s : State) : Out :=
  s.orderPoint fun s => s.inGang fun o => s.rooted o <|
    if s.me.arrived then s.stall
    else ((s.arrival o).1).complete { s.me with arrived := true } 4

/-- With no arrival outstanding, gwait returns the last status (R251). -/
def execGwait (d : BitVec 5) (s : State) : Out :=
  s.inGang fun o => s.rooted o <|
    if s.me.arrived then .next (s.setMe (s.me.block (.barrier (gr d))))
    else s.complete (s.me.setG (gr d) ⟨s.me.lastStatus, false⟩) 4

/-- garrive, then gwait, in one instruction. One that has arrived before a rotation goes on as gwait (R334). -/
def execGbar (d : BitVec 5) (s : State) : Out :=
  if s.me.barWait then execGwait d s
  else s.orderPoint fun s => s.inGang fun o => s.rooted o <|
    if s.me.arrived then s.stall
    else .next (((s.arrival o).1).setMe { s.me with arrived := true, st := .blocked (.barrier (gr d)) })

/-- Bits [64w + 63 : 64w] of the missing members of one tile (R252). -/
def execGquery (d a : BitVec 5) (s : State) : Out :=
  s.reading [gr a] fun c =>
    if (c.getG (gr a)).p then s.trapPoison c.latch
    else
      s.inGang fun o =>
        let q := (c.getG (gr a)).v
        if fld q 63 13 ≠ 0 then s.trap cILLEGAL_OPERAND q
        else
          let v : Word :=
            match (s.treeOf (tileOf s.cur) o).find? (fun x => x.1 == fld q 9 0) with
            | some x =>
              let b := s.barAt x.1 x.2
              wd ((b.members &&& ~~~b.arrived).toNat / 2 ^ (64 * fld q 12 10))
            | none => 0
          s.complete (c.setG (gr d) ⟨v, false⟩) 4

/-- gleave waits for the context's references (R409), leaves the gang and makes the slot IDLE (R253). -/
def execGleave (s : State) : Out :=
  s.orderPoint fun s => s.inGang fun _ =>
    if s.quiet s.cur then .next (((s.leaveGang s.cur false).idleSlot s.cur).unstall) else s.stall

/-! ### Borrowed slots (R173, R254, R255) -/

/-- The lowest IDLE slot of the caller's partition; at most two are held. -/
def execSborrow (d : BitVec 5) (s : State) : Out :=
  let c := s.me
  let tile := tileOf s.cur
  let part := s.partOf s.cur
  let free := (List.range 512).find? (fun sl =>
    (s.tileAt tile).partOf sl == part && decide ((s.ctxAt (ctxId tile sl)).st = .idle) && sl != slotOf s.cur)
  match (if 2 ≤ c.borrowed.length then none else free) with
  | none => s.complete (c.setG (gr d) ⟨BitVec.allOnes 64, false⟩) 4
  | some sl =>
    let b := s.ctxAt (ctxId tile sl)
    let s' := s.setCtxAt (ctxId tile sl)
      { b with st := .borrowed, aside := some (b.getG 3, b.adoptsp), g := [], e := [], pend := [] }
    s'.complete ({ c with borrowed := c.borrowed ++ [sl] }.setG (gr d) ⟨wd sl, false⟩) 4

/-- The slot in g[a], which the context must hold (R254, R255). -/
def State.heldSlot (s : State) (a : Nat) (keys : List Nat) (k : Nat → Out) : Out :=
  s.reading (a :: keys) fun c =>
    let x := c.getG a
    if x.p then s.trapPoison c.latch
    else if x.v.toNat < 512 ∧ c.borrowed.contains x.v.toNat = true then k x.v.toNat
    else s.trap cSLOT_FAULT x.v

def execSreturn (a : BitVec 5) (s : State) : Out :=
  s.heldSlot (gr a) [] fun sl =>
    ((s.returnSlots (tileOf s.cur) [sl]).unstall).complete { s.me with borrowed := s.me.borrowed.erase sl } 4

/-- Moves of `n` g registers: `src` and `dst` are the first registers, of the local context and the slot or the other way. -/
def copyRegs (from_ to_ : Ctx) (src dst : Nat) : Nat → Ctx
  | 0 => to_
  | n + 1 => (copyRegs from_ to_ src dst n).setG ((dst + n) % 32) (from_.getG ((src + n) % 32))

def regKeys (first n : Nat) : List Nat := (List.range n).map (fun j => (first + j) % 32)

def State.movesTo (s : State) (a first remote n : Nat) : Out :=
  s.heldSlot a (regKeys first n) fun sl =>
    let id := ctxId (tileOf s.cur) sl
    (s.setCtxAt id (copyRegs s.me (s.ctxAt id) first remote n)).complete s.me 4

def State.movesFrom (s : State) (a first remote n : Nat) : Out :=
  s.heldSlot a [] fun sl => s.complete (copyRegs (s.ctxAt (ctxId (tileOf s.cur) sl)) s.me remote first n) 4

def execXmovTo (a b : BitVec 5) (imm : BitVec 6) (s : State) : Out :=
  s.checked (limXmovTo imm) (wordXmovTo a b imm) (s.movesTo (gr a) (gr b) imm.toNat 1)
def execXmovFrom (d a : BitVec 5) (imm : BitVec 6) (s : State) : Out :=
  s.checked (limXmovFrom imm) (wordXmovFrom d a imm) (s.movesFrom (gr a) (gr d) imm.toNat 1)
/-- d is the first remote register. -/
def execXmovmTo (d a b : BitVec 5) (imm : BitVec 6) (s : State) : Out :=
  s.checked (limXmovmTo imm) (wordXmovmTo d a b imm) (s.movesTo (gr a) (gr b) (gr d) imm.toNat)
/-- b is the first remote register. -/
def execXmovmFrom (d a b : BitVec 5) (imm : BitVec 6) (s : State) : Out :=
  s.checked (limXmovmFrom imm) (wordXmovmFrom d a b imm) (s.movesFrom (gr a) (gr d) (gr b) imm.toNat)

/-- Both halves of an e register. -/
def copyE (from_ to_ : Ctx) (src dst : Nat) : Ctx :=
  (to_.setE (2 * dst) (from_.getE (2 * src))).setE (2 * dst + 1) (from_.getE (2 * src + 1))

def execXmovxTo (a b : BitVec 5) (imm : BitVec 6) (s : State) : Out :=
  s.checked (limXmovxTo b imm) (wordXmovxTo a b imm) <|
    s.heldSlot (gr a) (eKeys (gr b)) fun sl =>
      let id := ctxId (tileOf s.cur) sl
      (s.setCtxAt id (copyE s.me (s.ctxAt id) (gr b) imm.toNat)).complete s.me 4
def execXmovxFrom (d a : BitVec 5) (imm : BitVec 6) (s : State) : Out :=
  s.checked (limXmovxFrom d imm) (wordXmovxFrom d a imm) <|
    s.heldSlot (gr a) [] fun sl =>
      s.complete (copyE (s.ctxAt (ctxId (tileOf s.cur) sl)) s.me imm.toNat (gr d)) 4

/-! ### Stage queues (R256, R257) -/

def QSet.fifo (q : QSet) (n : Nat) : List GVal :=
  if n = 0 then q.f0 else if n = 1 then q.f1 else if n = 2 then q.f2 else q.f3

def QSet.setFifo (q : QSet) (n : Nat) (l : List GVal) : QSet :=
  if n = 0 then { q with f0 := l } else if n = 1 then { q with f1 := l } else if n = 2 then { q with f2 := l }
  else { q with f3 := l }

def Tile.qsetAt (t : Tile) (k : Nat) : QSet := Map.get (fun _ => {}) t.qsets k

/-- The queue set that a queue name reaches, or STAGE_FAULT with q (R256). -/
def State.onQueue (s : State) (q : Nat) (k : Nat → Out) : Out :=
  let c := s.me
  if c.pipe = false then s.trap cSTAGE_FAULT (wd q)
  else if q < 2 then
    (if c.stage.toNat + 1 < c.stages then match c.qdown with | some x => k x | none => s.trap cSTAGE_FAULT (wd q)
      else s.trap cSTAGE_FAULT (wd q))
  else
    (if c.stage ≠ 0 then match c.qup with | some x => k x | none => s.trap cSTAGE_FAULT (wd q)
      else s.trap cSTAGE_FAULT (wd q))

/-- FIFO that a name writes, and the one it reads (R256): q0 F0 and F2, q1 F1 and F3, q2 F2 and F0, q3 F3 and F1. -/
def putFifo (q : Nat) : Nat := q
def getFifo (q : Nat) : Nat := (q + 2) % 4

def State.setQueue (s : State) (x n : Nat) (l : List GVal) : State :=
  s.setMyTile { s.myTile with qsets := Map.set (fun _ => {}) s.myTile.qsets x ((s.myTile.qsetAt x).setFifo n l) }

def execQput (a : BitVec 5) (imm : BitVec 6) (s : State) : Out :=
  s.checked (limQput imm) (wordQput a imm) <|
    s.reading [gr a] fun c =>
      s.onQueue imm.toNat fun x =>
        let l := (s.myTile.qsetAt x).fifo (putFifo imm.toNat)
        if 16 ≤ l.length then s.stall
        else ((s.setQueue x (putFifo imm.toNat) (l ++ [c.getG (gr a)])).unstall).complete c 4

def execQget (d : BitVec 5) (imm : BitVec 6) (s : State) : Out :=
  s.checked (limQget imm) (wordQget d imm) <|
    s.onQueue imm.toNat fun x =>
      match (s.myTile.qsetAt x).fifo (getFifo imm.toNat) with
      | [] => s.stall
      | v :: l => ((s.setQueue x (getFifo imm.toNat) l).unstall).complete (s.me.setG (gr d) v) 4

def execQputNb (d a : BitVec 5) (imm : BitVec 6) (s : State) : Out :=
  s.checked (limQputNb imm) (wordQputNb d a imm) <|
    s.reading [gr a] fun c =>
      s.onQueue imm.toNat fun x =>
        let l := (s.myTile.qsetAt x).fifo (putFifo imm.toNat)
        if 16 ≤ l.length then s.complete (c.setG (gr d) {}) 4
        else ((s.setQueue x (putFifo imm.toNat) (l ++ [c.getG (gr a)])).unstall).complete (c.setG (gr d) ⟨1, false⟩) 4

/-- The word and the status are written as one group; the second register is g((d + 1) mod 32). -/
def execQgetNb (d : BitVec 5) (imm : BitVec 6) (s : State) : Out :=
  s.checked (limQgetNb imm) (wordQgetNb d imm) <|
    s.onQueue imm.toNat fun x =>
      match (s.myTile.qsetAt x).fifo (getFifo imm.toNat) with
      | [] => s.complete ((s.me.setG (gr d) {}).setG ((gr d + 1) % 32) {}) 4
      | v :: l =>
        ((s.setQueue x (getFifo imm.toNat) l).unstall).complete
          ((s.me.setG (gr d) v).setG ((gr d + 1) % 32) ⟨1, false⟩) 4

def execQlen (d : BitVec 5) (imm : BitVec 6) (s : State) : Out :=
  s.checked (limQlen imm) (wordQlen d imm) <|
    s.onQueue imm.toNat fun x =>
      let q := s.myTile.qsetAt x
      let v := (q.fifo (getFifo imm.toNat)).length + (16 - (q.fifo (putFifo imm.toNat)).length) * 2 ^ 8
      s.complete (s.me.setG (gr d) ⟨wd v, false⟩) 4

end Sys2Proof.Machine
end

