-- ==== Sys2Proof/Machine/Tasks.lean ====
section
/-! DEFINITION. Task frames and their state words (R153 to R156), context starts (R408), deques (R158, R239), ending a frame
(R240), returning to a helper (R164), and the task instructions (R238 to R243). -/

namespace Sys2Proof.Machine

open Sys2Proof

/-! ### State words (R154) -/

def swState (w : Word) : Nat := fld w 62 60
def swTile (w : Word) : Nat := fld w 55 46
def swSlot (w : Word) : Nat := fld w 45 37

/-- A state word: RUNNING in a slot at a depth, RST kept. -/
def swRunning (old : Word) (tile slot depth : Nat) : Word :=
  wd (2 ^ 63 + 2 ^ 60 + fld old 59 59 * 2 ^ 59 + depth * 2 ^ 56 + tile * 2 ^ 46 + slot * 2 ^ 37)

/-- UNSTARTED, RST kept (R238). -/
def swUnstarted (old : Word) : Word := wd (2 ^ 63 + fld old 59 59 * 2 ^ 59)

/-- STATE replaced, the other fields kept. -/
def swWith (old : Word) (state : Nat) : Word := wd (old.toNat - fld old 62 60 * 2 ^ 60 + state * 2 ^ 60)

/-- RUNNING in this slot? -/
def swRunsIn (w : Word) (tile slot : Nat) : Bool :=
  bit w 63 && swState w == 1 && swTile w == tile && swSlot w == slot

/-- A device write of a word that leaves its P: an event of its home, clean (R154). -/
def State.deviceWrite (s : State) (d : Nat) (v : Word) : State := (s.putValue d 8 ⟨v, false⟩).wroteEvent d

/-! ### Context starts (R156, R408) -/

/-- A start sets every control register as R408 gives; g3, c.adoptsp, the tenant and the binding stay. -/
def Ctx.start (c : Ctx) (entry : Word) : Ctx :=
  { st := .ready, pc := entry, epc := entry, g := Map.set (fun _ => {}) [] 3 (c.getG 3), adoptsp := c.adoptsp
    tenant := c.tenant, abind := c.abind, lastIssue := c.lastIssue, lastTurn := c.lastTurn }

/-- Pointers that the launcher gives a slot when the tenant's slots are first started in a partition (R157). -/
def stackTop (tile slot : Nat) : Word := wd (0x1FFFF * 2 ^ 46 + (504 * tile + slot + 1) * 0x10000)
def adoptBase (tile slot : Nat) : Word := wd (0x1FFFF * 2 ^ 46 + (504 * tile + slot) * 0x10000 + 0x1000)

def Ctx.firstStart (c : Ctx) (tile slot tenant : Nat) : Ctx :=
  if c.tenant.toNat = tenant then c
  else
    { c with g := Map.set (fun _ => {}) c.g 3 ⟨stackTop tile slot, false⟩, adoptsp := adoptBase tile slot
             tenant := BitVec.ofNat 16 tenant }

/-- g2 and g4–g7 of a frame start, from the frame pointer and w4–w7 (R156). -/
def Ctx.frameArgs (c : Ctx) (f : Word) (args : List GVal) : Ctx :=
  (((((c.setG 2 ⟨f, false⟩).setG 4 (args.getD 0 {})).setG 5 (args.getD 1 {})).setG 6 (args.getD 2 {})).setG 7
    (args.getD 3 {}))

/-! ### Deques (R158, R159, R239) -/

def Tile.dequeAt (t : Tile) (p : Nat) : Deque := Map.get (fun _ => {}) t.deque p
def State.setDeque (s : State) (tile p : Nat) (d : Deque) : State :=
  s.setTileAt tile { s.tileAt tile with deque := Map.set (fun _ => {}) (s.tileAt tile).deque p d }

def Deque.count (d : Deque) : Nat := (d.tail - d.head).toNat

/-- The entry at TAIL is reserved (R238). A steal for this deque is abandoned (R160). -/
def Deque.reserve (d : Deque) (id : Nat) (f : Word) : Deque :=
  { d with tail := d.tail + 1, entries := d.entries ++ [⟨id, f, .reserved⟩], attempts := 0, failed := 0, wait := none }

/-- The pointer of place `n` of the ring in memory (R158). -/
def Deque.place (d : Deque) (n : Word) : Word := padd d.base (wd (8 * (n.toNat % 4096)))

/-- The place of entry `id`. -/
def Deque.placeOf (d : Deque) (id : Nat) : Word := d.place (d.head + wd (d.entries.findIdx (fun e => e.id == id)))

def Deque.mark (d : Deque) (id : Nat) (st : DState) : Deque :=
  { d with entries := d.entries.map (fun e => if e.id = id then { e with st := st } else e) }

/-- Void entries at the owner end are skipped. -/
def Deque.dropVoidTail (d : Deque) : Nat → Deque
  | 0 => d
  | n + 1 =>
    match d.entries.getLast? with
    | some e => if e.st = .void then { d with tail := d.tail - 1, entries := d.entries.dropLast }.dropVoidTail n else d
    | none => d

def Deque.dropVoidHead (d : Deque) : Nat → Deque
  | 0 => d
  | n + 1 =>
    match d.entries with
    | e :: es => if e.st = .void then { d with head := d.head + 1, entries := es }.dropVoidHead n else d
    | [] => d

/-- The entry before TAIL is taken, unless it is not visible yet (R159, R239). -/
def Deque.pop (d : Deque) : Deque × Option Word :=
  let d := d.dropVoidTail d.entries.length
  match d.entries.getLast? with
  | some e =>
    if e.st = .visible then ({ d with tail := d.tail - 1, entries := d.entries.dropLast }, some e.frame) else (d, none)
  | none => (d, none)

/-- The entry at HEAD is given up to a thief (R160, R239). -/
def Deque.give (d : Deque) : Deque × Option Word :=
  let d := d.dropVoidHead d.entries.length
  match d.entries with
  | e :: es => if e.st = .visible then ({ d with head := d.head + 1, entries := es }, some e.frame) else (d, none)
  | [] => (d, none)

/-! ### Checks of a frame (R238) -/

/-- Pointers of the words of a frame. -/
def frameWords (f : Word) (n : Nat) : List Word := wordsFrom f n

/-- The checks of a list of words, each failure leading to `fail` with its pointer. -/
def State.portList (s : State) (need : Need) (use : PortUse) (fail : State → Nat → Word → Out) (done : List Target)
    (k : State → List Target → Out) : List Word → Out
  | [] => k s done.reverse
  | p :: ps =>
    s.portWith p p 8 need use (fun s cause => fail s cause p) (fun s t => s.portList need use fail (t :: done) k ps)

/-- Alignment and index of a frame pointer (R238, R79), then the checks of its first `n` words. -/
def State.frameOk (s : State) (f : Word) (n : Nat) (need : Need) (use : PortUse) (fail : State → Nat → Word → Out)
    (k : State → List Target → Out) : Out :=
  if fld f 5 0 ≠ 0 then fail s cALIGN f
  else if 0x20000 ≤ fld f 63 46 then fail s cILLEGAL_OPERAND f
  else s.portList need use fail [] k (frameWords f n)

def needRWS : Need := { r := true, w := true, s := true }

/-! ### spawn (R238) -/

/-- The release part, on its way to w1 of the frame. -/
def spawnRelease (id tile slot part tenant : Nat) (w1 : Target) (f : Word) (dest destPart entry : Nat) : Req :=
  { id := id, src := tile, slot := slot, op := .spawn dest destPart entry, dpa := w1.dpa, ptr := f
    tenant := tenant, part := part, rel := true, win := false, key := w1.key, gen := w1.gen }

/-- The request for a reservation, to another tile or after a refusal; `val` holds the frame and `cmp` its w1. -/
def State.spawnAsk (s : State) (f : Word) (w1 : Target) (dest : Nat) (tval : Word) : Req :=
  let c := s.me
  { id := s.freshId, src := tileOf s.cur, slot := slotOf s.cur, op := .spawn dest (s.partOf s.cur) 0
    dpa := mkDpa true s.package.toNat dest 0 0, ptr := tval, val := ⟨f, false⟩, cmp := ⟨wd w1.dpa, false⟩
    tenant := c.tenant.toNat, part := s.partOf s.cur, blocking := true, limit := c.retry.toNat, tries := c.again, pc := c.pc
    key := w1.key, gen := w1.gen }

/-- A reservation in the own tile; a full deque refuses it (R159). -/
def execSpawn (a : BitVec 5) (s : State) : Out :=
  s.orderPoint fun s => s.reading [gr a] fun c =>
    if (c.getG (gr a)).p then s.trapPoison c.latch
    else
      let f := (c.getG (gr a)).v
      s.frameOk f 8 needRWS .trap (fun s cause p => s.trap cause p) fun s ts =>
        let tile := tileOf s.cur
        let part := s.partOf s.cur
        let w1 := ts.getD 1 { dpa := 0 }
        let d := (s.tileAt tile).dequeAt part
        if 4096 ≤ d.count then
          let r := s.spawnAsk f w1 tile f
          .next ((s.bumpId.answer r .refused).setMe { s.me with st := .blocked (.ref r.id), wait := some r })
        else
          let entry := s.freshId
          let r := spawnRelease (entry + 1) tile (slotOf s.cur) part s.me.tenant.toNat w1 f tile part entry
          (({ s with fresh := s.fresh + 2, net := s.net ++ [r] }).setDeque tile part (d.reserve entry f)).complete s.me 4

/-- spawn.t blocks until the destination's deque unit has answered (R238). The request leaves after the tile number is checked. -/
def execSpawnT (a b : BitVec 5) (s : State) : Out :=
  s.orderPoint fun s => s.reading [gr a, gr b] fun c =>
    if (c.getG (gr a)).p || (c.getG (gr b)).p then s.trapPoison c.latch
    else
      let f := (c.getG (gr a)).v
      s.frameOk f 8 needRWS .trap (fun s cause p => s.trap cause p) fun s ts =>
        let t := (s.me.getG (gr b)).v
        if fld t 63 10 ≠ 0 then s.trap cILLEGAL_OPERAND t
        else s.issueBlocking (s.spawnAsk f (ts.getD 1 { dpa := 0 }) t.toNat f)

/-! ### Ending a frame (R240) and returning to a helper (R164) -/

/-- What the record of an ended frame or context says (R376): codes 0x0001 to 0x0018. -/
def State.endRecord (s : State) (id cause : Nat) (frame tval detail : Word) (action : Nat) : RecordSpec :=
  let c := s.ctxAt id
  { code := cause, sev := 3, engine := 0, tenant := c.tenant.toNat, adopted := decide (c.depth ≠ 0), part := s.partOf id
    ctx := some id, frame := frame, ptr := tval, dpa := if c.depth = 0 then 0 else c.frames.getD 1 0, action := action
    detail := detail }

/-- DETAIL: the cause, the code offset of c.epc, and one of the bits 26 to 28. -/
def endDetail (cause : Nat) (epc : Word) (bitNo : Nat) : Word := wd (cause + fld epc 17 0 * 2 ^ 8 + 2 ^ bitNo)

/-- The cause that texit reports: c.cause.CAUSE, or SYSCALL for a context that has taken no trap. -/
def Ctx.exitCause (c : Ctx) : Nat := if c.cause = 0 then cSYSCALL else c.cause.toNat

/-- The state word and then w0, at their shared home. `none` when the cas fails. `d` is the address of w1. -/
def State.closeFrame (s : State) (d tile slot state : Nat) (result : GVal) : Option State :=
  let w := s.gval d
  if s.quarantined d || w.p || !swRunsIn w.v tile slot then none
  else some ((s.deviceWrite d (swWith w.v state)).putFull (d - 8) 8 result)

/-- The saved registers come back from the level at c.adoptsp − 512 (R164): `ws` are its words 0 to 49. -/
def Ctx.unadopt (c : Ctx) (ws : List GVal) : Ctx :=
  let c1 : Ctx := { c with g := [], e := [], pend := [] }
  let c2 := (List.range 31).foldl (fun (c : Ctx) j => c.setG (j + 1) (ws.getD j {})) c1
  let c3 := (List.range 16).foldl (fun (c : Ctx) j => c.setE j (ws.getD (32 + j) {})) c2
  let frames := c.frames.drop 1
  { c3 with
    st := .ready, pc := (ws.getD 31 {}).v, latch := (ws.getD 49 {}).v, adoptsp := c.adoptsp - 512, depth := c.depth - 1
    frames := if frames.length ≤ 1 then [] else frames }

/-- The frame or context ends at depth 0: borrowed slots returned, slot IDLE. -/
def State.endContext (s : State) (id : Nat) : State := (s.idleSlot id).unstall

/-- texit's record, or the record of a state cas that failed (code 0x0111). -/
def State.postEnd (s : State) (id : Nat) (failed closed : Bool) (f : Word) : State :=
  let c := s.ctxAt id
  if closed then
    if failed then s.post (s.endRecord id c.exitCause f c.tval (endDetail c.exitCause c.epc 27) 8) else s
  else
    s.post { code := 0x0111, sev := 2, engine := 0, tenant := c.tenant.toNat, adopted := decide (c.depth ≠ 0)
             part := s.partOf id, ctx := some id, frame := f, action := 7
             detail := wd (if failed then c.exitCause + 2 ^ 8 else 0) }

/-- A g2 that fails the checks ends the context without any memory event, with a record of that cause (R240). -/
def State.endWith (s : State) (id cause : Nat) (p detail : Word) : State :=
  let c := s.ctxAt id
  let s' := s.post (s.endRecord id cause (c.getG 2).v p detail 8)
  let s' := if c.gang then s'.leaveGang id true else s'
  s'.endContext id

def State.endUnchecked (s : State) (id : Nat) (failed : Bool) (cause : Nat) (p : Word) : State :=
  let c := s.ctxAt id
  s.endWith id cause p (if failed then endDetail cause c.epc 27 else wd (cause + fld c.epc 17 0 * 2 ^ 8))

/-- Marks of the context that have not been performed (R154): they travel to the home that the ending cas goes to. -/
def State.marksDone (s : State) (id : Nat) : Bool := !s.marks.any (fun m => m.ctx == id)

/-- tdone and texit (R240), once every earlier reference has been performed or has failed (R409). At d > 0 the reloads of R164 follow
as a step of Trapeze's own. -/
def State.endFrame (s : State) (failed : Bool) (result : GVal) : Out :=
  s.orderPoint fun s =>
    let c := s.me
    if s.quiet s.cur = false ∨ s.marksDone s.cur = false then s.stall
    else if (c.getG 2).p then s.trapPoison c.latch
    else
      let f := (c.getG 2).v
      if f ≠ 0 then
        s.frameOk f 8 needRWS (.endFrame failed) (fun s cause p => .next (s.endUnchecked s.cur failed cause p)) fun s ts =>
          let d := (ts.getD 1 { dpa := 8 }).dpa
          let rank := some (tileOf s.cur * 1024 + slotOf s.cur)
          if s.gated d rank then s.stall
          else
            let s := s.openUnit d s.me.tenant.toNat (s.partOf s.cur) f false rank
            let s := match s.closeFrame d (tileOf s.cur) (slotOf s.cur) (if failed then 4 else 3) (if failed then ⟨f, true⟩ else result) with
              | some s' => s'.postEnd s.cur failed true f
              | none => s.postEnd s.cur failed false f
            if s.me.depth = 0 then .next ((if s.me.gang then s.leaveGang s.cur failed else s).endContext s.cur)
            else .next (s.setMe (s.me.block (.returning false none))).unstall
      else
        let s := if failed then s.postEnd s.cur true true 0 else s
        .next ((if c.gang then s.leaveGang s.cur failed else s).endContext s.cur)

def execTdone (a : BitVec 5) (s : State) : Out := s.reading [gr a, 2] fun c => s.endFrame false (c.getG (gr a))
def execTexit (s : State) : Out := s.reading [2] fun _ => s.endFrame true {}

/-! ### tyield, help, dqlen (R241 to R243) -/

/-- Cycles of the island clock before a reference cycle: 1.8 GHz at L1 and 1.2 GHz at L2, of 2.4 GHz (R21, R22). Which reference cycles
are the island's is not stated: at L1 the last of four is none, at L2 every other one (DESIGN CHOICE, log 44). -/
def Point.cycles (p : Point) (n : Nat) : Nat :=
  match p with
  | .n => n
  | .l1 => n - n / 4
  | .l2 => (n + 1) / 2
  | .g => 0
  | .off => 0

/-- Does a cycle of the island begin? -/
def Point.ticks (p : Point) (now : Nat) : Bool := decide (p.cycles now < p.cycles (now + 1))

/-- Cycles of the tile's island before a reference cycle, through every point that it has been at. -/
def Tile.cyclesAt (t : Tile) (now : Nat) : Nat := t.islandBase + (t.point.cycles now - t.point.cycles t.islandSince)

/-- The tile's island is at another point from a reference cycle on. -/
def Tile.toPoint (t : Tile) (p : Point) (now : Nat) : Tile :=
  { t with point := p, islandBase := t.cyclesAt now, islandSince := now }

/-- Eligible under R148, the spacing rule of its tile, in cycles of the island. -/
def Ctx.spaced (c : Ctx) (t : Tile) (now : Nat) : Bool :=
  match c.lastIssue with
  | none => true
  | some _ => decide (c.lastTurn + 8 ≤ t.cyclesAt now)

/-- The other slots of the partition that are eligible now issue first. -/
def execTyield (s : State) : Out :=
  let tile := tileOf s.cur
  let others := (List.range 512).filter (fun sl =>
    sl != slotOf s.cur && (s.tileAt tile).partOf sl == s.partOf s.cur
      && decide ((s.ctxAt (ctxId tile sl)).st = .ready) && (s.ctxAt (ctxId tile sl)).spaced s.myTile s.cycle.toNat)
  s.complete { s.me with yield_ := others } 4

/-- help is checked as R242 gives and then waits for the procedure, which reads the state word. -/
def execHelp (a : BitVec 5) (s : State) : Out :=
  s.orderPoint fun s => s.reading [gr a] fun c =>
    if (c.getG (gr a)).p then s.trapPoison c.latch
    else
      let f := (c.getG (gr a)).v
      s.frameOk f 2 needRS .trap (fun s cause p => s.trap cause p) fun s ts =>
        let r := { s.reqFor {} .probe (ts.getD 0 { dpa := 0 }) f with blocking := true }
        .next (s.bumpId.setMe (s.me.block (.helping r f none)))

def execDqlen (d : BitVec 5) (s : State) : Out :=
  s.complete (s.me.setG (gr d) ⟨wd (s.myTile.dequeAt (s.partOf s.cur)).count, false⟩) 4

end Sys2Proof.Machine
end

