-- ==== Sys2Proof/Machine/Messages.lean ====
section
/-! DEFINITION. The message instructions as the context issues them (R244, R246 to R249). -/

namespace Sys2Proof.Machine

open Sys2Proof

/-- The checks of a target word (R244): reserved bits, HT and PART of a user sender, then type 0xFF (R49). -/
def State.targetWord (s : State) (t : Word) (multi : Bool) (k : Out) : Out :=
  let user := !houseSlot s.cur
  if fld t 63 32 ≠ 0 ∨ (user = true ∧ (bit t 31 = true ∨ fld t 11 8 ≠ 0))
      ∨ (multi = true ∧ (bit t 30 = true ∨ fld t 18 12 ≠ 0)) then s.trap cILLEGAL_OPERAND t
  else if user = true ∧ fld t 7 0 = 0xFF then s.trap cPRIVILEGE t
  else k

/-- Vector table that a message of the issuing context selects (R245). -/
def State.tableOf (s : State) (t : Word) : Nat :=
  if houseSlot s.cur then (if bit t 31 then 16 else fld t 11 8) else s.partOf s.cur

/-- A message; one of a house slot is from firmware, and g6 of its handler is all ones (R4, R247). -/
def State.msgTo (s : State) (id tile : Nat) (t m0 m1 : Word) (origin : Origin) : Msg :=
  { id := id, dst := tile, table := s.tableOf t, type := BitVec.ofNat 8 (fld t 7 0), m0 := m0, m1 := m1
    coord := if houseSlot s.cur then wd (2 ^ 64 - 1) else s.coordOf (tileOf s.cur) (slotOf s.cur) 0
    src := tileOf s.cur, tenant := s.me.tenant.toNat, user := !houseSlot s.cur
    origin := origin, target := t, limit := s.me.retry.toNat
    away := bit t 30 && fld t 29 22 != s.package.toNat }

/-- A send is a release at dom (R99): it leaves once every earlier covered access has been performed. -/
def State.released (s : State) (k : Out) : Out := if s.fenceWaits s.cur .dom false then s.stall else k

def execSend (d a b c : BitVec 5) (s : State) : Out :=
  s.orderPoint fun s => s.reading [gr a, gr b, gr c] fun x =>
    if poisonOf [x.getG (gr a), x.getG (gr b), x.getG (gr c)] then s.trapPoison x.latch
    else
      let t := (x.getG (gr a)).v
      s.targetWord t false <| s.released <|
        let id := s.freshId
        let m := s.msgTo id (fld t 21 12) t (x.getG (gr b)).v (x.getG (gr c)).v (.ctx s.cur (gr d))
        .next ({ s.bumpId with msgs := s.msgs ++ [m] }.setMe (x.block (.answer id)))

/-- Tiles that the 128 bits of an e register select in a group (R248). -/
def mcastTiles (lo hi : Word) (group : Nat) : List Nat :=
  ((List.range 128).filter (fun i => if i < 64 then bit lo i else bit hi (i - 64))).map (fun i => group * 128 + i)

/-- `d` names an e register (R183). A vector of zeros completes at once. -/
def execSendMc (d a b c : BitVec 5) (s : State) : Out :=
  s.checked (limSendMc d) (wordSendMc d a b c) <|
    s.orderPoint fun s => s.reading ([gr a, gr b, gr c] ++ eKeys (gr d)) fun x =>
      let lo := x.getE (2 * gr d)
      let hi := x.getE (2 * gr d + 1)
      if poisonOf [x.getG (gr a), x.getG (gr b), x.getG (gr c), lo, hi] then s.trapPoison x.latch
      else
        let t := (x.getG (gr a)).v
        s.targetWord t true <|
          match mcastTiles lo.v hi.v (fld t 21 19) with
          | [] => s.complete x 4
          | tiles => s.released <|
            let ms := tiles.zipIdx.map (fun (tile, j) =>
              s.msgTo (s.freshId + j) tile t (x.getG (gr b)).v (x.getG (gr c)).v (.mcast s.cur))
            .next ({ s with msgs := s.msgs ++ ms, fresh := s.fresh + tiles.length }.setMe
              (x.block (.mcast (gr d) (tiles.map (fun n => (n, 0))))))

/-- A mailbox delivery: a 16-byte aligned pointer, consumed like the word (R237, R249); otherwise as st.d.we. -/
def State.mailbox (s : State) (d a b : Nat) (quiet : Bool) : Out :=
  s.orderPoint fun s => s.reading [a, b] fun c =>
    if (c.getG a).p || (c.getG b).p then s.trapPoison c.latch
    else
      let ptr := (c.getG a).v
      if fld ptr 3 0 ≠ 0 then s.trap cALIGN ptr
      else
        s.port ptr ptr 8 needWS fun s t =>
          s.issueBlocking { s.reqFor {} (.mailbox quiet) t ptr with val := s.me.getG b, dest := [d], rel := true }

def execSendMb (d a b : BitVec 5) (s : State) : Out := s.mailbox (gr d) (gr a) (gr b) false
def execSendMbF (d a b : BitVec 5) (s : State) : Out := s.mailbox (gr d) (gr a) (gr b) true

/-- The end of a handler (R247), once its references have been performed or have failed (R409). -/
def execMsgret (s : State) : Out :=
  s.orderPoint fun s =>
    if s.me.handler = false ∨ s.me.depth ≠ 0 then s.trap cILLEGAL_OPERAND 0
    else if s.quiet s.cur then .next (s.endContext s.cur)
    else s.stall

/-! ### Answers (R246, R248, R77) -/

/-- A destination that has taken the message loses its bit of the e register (R248). -/
def Ctx.mcastTaken (c : Ctx) (tile : Nat) : Ctx :=
  match c.st with
  | .blocked (.mcast d left) =>
    let i := tile % 128
    let key := 2 * d + i / 64
    let v := c.getE key
    { c.setE key { v with v := v.v &&& ~~~(wd (2 ^ (i % 64))) } with
      st := .blocked (.mcast d (left.filter (fun x => x.1 != tile))) }
  | _ => c

def Ctx.mcastMark (c : Ctx) (tile code : Nat) : Ctx :=
  match c.st with
  | .blocked (.mcast d left) => { c with st := .blocked (.mcast d (left.map (fun x => if x.1 = tile then (tile, code) else x))) }
  | _ => c

/-- Cause of an answer that ends send.mc in a trap. -/
def mcastCause (code : Nat) : Nat := if code = 4 then cRIGHTS else if code = 3 then cILLEGAL_OPERAND else cMSG_REJECT

/-- send.mc ends once no destination is unanswered or refused. -/
def State.mcastSettle (s : State) (id : Nat) (target : Word) : State :=
  match (s.ctxAt id).st with
  | .blocked (.mcast _ left) =>
    if left.any (fun x => x.2 == 0 || x.2 == 1) then s
    else
      match [4, 3, 5].find? (fun code => left.any (fun x => x.2 == code)) with
      | some code =>
        let tile := (left.filter (fun x => x.2 == code)).foldl (fun (m : Nat) x => min m x.1) 1024
        s.trapAt id (mcastCause code) (wd (target.toNat - fld target 21 12 * 2 ^ 12 + tile * 2 ^ 12))
      | none => s.setCtxAt id { (s.ctxAt id).advance 4 with st := .ready }
  | _ => s

/-- A refused message is retried up to its limit (R69): true when it goes on. -/
def Msg.again (m : Msg) : Bool := decide (m.tries < m.limit)

/-- The lost flag of a watch record is set, while there is something that can carry it (R77). -/
def State.loseMsg (s : State) (rec : Nat) : State :=
  let ours (m : Msg) : Bool := match m.origin with
    | .watch _ n => n == rec
    | _ => false
  if !s.lostRecs.contains rec && (s.watches.any (fun w => w.num == rec) || s.msgs.any ours || s.refusedMsgs.any ours) then
    { s with lostRecs := rec :: s.lostRecs }
  else s

/-- A message that ends undelivered is dropped, and one record says so (R77, R170, R306). -/
def State.dropMsg (s : State) (m : Msg) : State :=
  let rec_ (engine tile : Nat) : RecordSpec :=
    { code := 0x000B, sev := 0, engine := engine, tenant := m.tenant, part := m.table, tile := tile, action := 27
      detail := wd m.type.toNat }
  match m.origin with
  | .watch d n =>
    (s.loseMsg n).post
      { rec_ 3 (dpaTile d) with ptr := wd (m.m0.toNat / 8 * 8), dpa := wd d }
  | .gang => s.post (rec_ 0 m.dst)
  | .copy tile => s.post { rec_ 6 tile with ptr := m.m1 }
  | _ => s

/-- The context that sent the message. -/
def Msg.context (m : Msg) : Option Nat :=
  match m.origin with
  | .ctx id _ => some id
  | .mcast id => some id
  | _ => none

/-- The answer reaches the sender. -/
def State.answerSender (s : State) (m : Msg) (a : MsgAnswer) : State :=
  let later : State := { s with refusedMsgs := s.refusedMsgs ++ [{ m with tries := m.tries + 1 }] }
  match m.origin with
  | .ctx id d =>
    let c := s.ctxAt id
    if c.st ≠ .blocked (.answer m.id) then s
    else
      match a with
      | .taken => s.setCtxAt id { (c.setG d {}).advance 4 with st := .ready }
      | .dead => s.trapAt id cDEAD_TARGET m.target
      | .noHandler => s.trapAt id cILLEGAL_OPERAND m.target
      | .rights => s.trapAt id cRIGHTS m.target
      | .refused => if m.again then later else s.trapAt id cMSG_REJECT m.target
  | .mcast id =>
    let c := s.ctxAt id
    match a with
    | .taken => (s.setCtxAt id (c.mcastTaken m.dst)).mcastSettle id m.target
    | .dead => (s.setCtxAt id (c.mcastMark m.dst 2)).mcastSettle id m.target
    | .noHandler => (s.setCtxAt id (c.mcastMark m.dst 3)).mcastSettle id m.target
    | .rights => (s.setCtxAt id (c.mcastMark m.dst 4)).mcastSettle id m.target
    | .refused =>
      if m.again then later.setCtxAt id (c.mcastMark m.dst 1)
      else (s.setCtxAt id (c.mcastMark m.dst 5)).mcastSettle id m.target
  | .watch _ n =>
    match a with
    | .taken => { s with lostRecs := s.lostRecs.filter (fun x => x != n) }
    | .refused => if m.again then later else s.dropMsg m
    | _ => s.dropMsg m
  | _ =>
    match a with
    | .taken => s
    | .refused => if m.again then later else s.dropMsg m
    | _ => s.dropMsg m

/-- An answer to a context whose tile is at G waits until the tile returns (R23). -/
def State.tellSender (s : State) (m : Msg) (a : MsgAnswer) : State :=
  match m.context with
  | some id =>
    if (s.tileAt (tileOf id)).point = .g then { s with heldAnswers := s.heldAnswers ++ [(m, a)] } else s.answerSender m a
  | none => s.answerSender m a

/-- The tile has left G: its contexts get the answers that have waited. -/
def State.releaseAnswers (s : State) (tile : Nat) : State :=
  let ours (x : Msg × MsgAnswer) : Bool := x.1.context.map tileOf == some tile
  (s.heldAnswers.filter ours).foldl (fun (s : State) x => s.answerSender x.1 x.2)
    { s with heldAnswers := s.heldAnswers.filter (fun x => !ours x) }

/-! ### Functions and their interrupts (R361, R367 to R369) -/

def bindValid (w : Word) : Bool := bit w 63
def bindPart (w : Word) : Nat := fld w 19 16
def bindTenant (w : Word) : Nat := fld w 15 0

/-- The function bound to a tenant, by the bindings in effect (R361). -/
def State.fnOf (s : State) (tenant : Nat) : Option Nat :=
  (s.bound.find? (fun x => bindValid x.2 && bindTenant x.2 == tenant)).map (fun x => x.1)

def State.fnAt (s : State) (fn : Nat) : Fn := Map.get (fun _ => {}) s.fns fn
def State.setFn (s : State) (fn : Nat) (f : Fn) : State := { s with fns := Map.set (fun _ => {}) s.fns fn f }

/-- Is it a function that is there: a PF, the management controller's host tenant, or a VF while VF Enable is set (R355)? -/
def State.present (s : State) (fn : Nat) : Bool :=
  decide (fn ≤ 128) && (fn % 64 == 0 || Map.get (fun _ => false) s.vfEnable (fn / 64))

/-- Vectors of a function (R367). -/
def vectors (fn : Nat) : Nat := if fn % 64 = 0 then 256 else 32

/-- An MSI-X table entry: address in [63:0], data in [95:64], the mask bit at 96. A vector is masked until the host unmasks it
(log 2). -/
def msixReset : Nat → BitVec 128 := fun _ => BitVec.ofNat 128 (2 ^ 96)
def Fn.entry (f : Fn) (vec : Nat) : BitVec 128 := Map.get msixReset f.msix vec
def Fn.masked (f : Fn) (vec : Nat) : Bool := (f.entry vec).getLsbD 96

/-- A vector's message leaves, or its PBA bit is set; its pending count returns to 0. -/
def State.sendVector (s : State) (fn vec : Nat) : State :=
  let f := s.fnAt fn
  let f := { f with pending := Map.erase f.pending vec, since := Map.erase f.since vec }
  if f.masked vec then s.setFn fn { f with pba := Map.set (fun _ => false) f.pba vec true }
  else { s with msixSent := s.msixSent ++ [f.entry vec] }.setFn fn f

/-- One event of a vector (R369). -/
def State.countEvent (s : State) (fn vec : Nat) : State :=
  if vec < vectors fn then
    let f := s.fnAt fn
    let n := Map.get (fun _ => 0) f.pending vec + 1
    let s := s.setFn fn
      { f with
        pending := Map.set (fun _ => 0) f.pending vec n
        since := if n = 1 then Map.insert (Map.erase f.since vec) vec s.cycle.toNat else f.since }
    if fld f.icoal 31 16 ≤ n then s.sendVector fn vec else s
  else s

/-- Firmware has been told of a fill in an interrupt window (R368): it counts one event for the word's vector and empties the
word. The window is one that the word's host tenant shares, and the word's place in it is the vector. -/
def State.interruptWord (s : State) (m : Msg) : State :=
  match m.origin with
  | .watch d _ =>
    if m.type = 0xFE ∧ m.table = 16 ∧ m.m0.toNat % 8 = 2 then
      match s.windowOf d with
      | none => s
      | some w =>
        match w.sharers.find? (fun x => 0xF000 ≤ x.1), s.regionAddr w.region (wordOf d) with
        | some x, some ra => (s.countEvent (x.1 - 0xF000) ((ra - w.base) / 8)).setEmpty d
        | _, _ => s
    else s
  | _ => s

/-! ### At the destination (R245 to R247) -/

def Tile.vectAt (t : Tile) (table type : Nat) : Word := Map.get (fun _ => 0) t.vect (table * 256 + type)

/-- Firmware writes the hosting partition's number into CLASS as it loads a table of partition `p` (R245, R403). -/
def imageVect (p : Nat) (image : List (Nat × Word)) : Map Word :=
  image.foldl (fun (m : Map Word) y =>
    Map.set (fun _ => 0) m (p * 256 + y.1) (wd (fld y.2 63 63 * 2 ^ 63 + p * 2 ^ 58 + fld y.2 57 0))) []

/-- The entry that judges a message. While a rotation has not reached the tile, one of the incoming tenant is judged by the table
that comes in with it (R245). -/
def State.vectorFor (s : State) (m : Msg) : Word :=
  let t := s.tileAt m.dst
  let key := m.table * 256 + m.type.toNat
  match s.rotations.find? (fun r => r.part == m.table && r.incoming == m.tenant && r.tiles.contains m.dst) with
  | none => t.vectAt m.table m.type.toNat
  | some r =>
    match s.savedTiles.find? (fun x => x.tenant == r.incoming && x.tile == m.dst) with
    | some x => Map.get (fun _ => 0) x.vect key
    | none =>
      Map.get (fun _ => 0) (imageVect r.part (((s.images.find? (fun x => x.1 == r.incoming)).map (fun x => x.2)).getD [])) key

/-- V, CLASS and PRIO of an entry; CLASS is the table's own number. -/
def vectOk (table : Nat) (w : Word) : Bool := bit w 63 && fld w 62 58 == table
def vectPrio (w : Word) : Nat := fld w 57 56

/-- Lowest IDLE slot of a partition in a tile. -/
def State.idleOf (s : State) (tile part : Nat) : Option Nat :=
  (List.range 512).find? (fun sl => (s.tileAt tile).partOf sl == part && decide ((s.ctxAt (ctxId tile sl)).st = .idle))

/-- The handler's registers (R247, R408). -/
def Ctx.handle (c : Ctx) (entry : Word) (m : Msg) : Ctx :=
  let c := c.start (codeBase + wd (fld entry 17 0))
  let c := (((c.setG 4 ⟨m.m0, false⟩).setG 5 ⟨m.m1, false⟩).setG 6 ⟨m.coord, false⟩).setG 7 ⟨wd m.type.toNat, false⟩
  { c with handler := true, msgvec := entry }

/-- Room in the inbox of 64: 8 entries are kept for house, and one partition holds at most 32. -/
def Tile.inboxRoom (t : Tile) (table : Nat) : Bool :=
  decide (t.inbox.length < 64) &&
  if table = 16 then true
  else decide ((t.inbox.filter (fun m => m.table != 16)).length < 56)
    && decide ((t.inbox.filter (fun m => m.table == table)).length < 32)

/-- A watch message after a lost one carries EVENT 7 and the current value (R77); the value bits, where it is poisoned: the
table gives m1 = 0 for EVENT 6 only (DESIGN CHOICE, log 39). -/
def State.lostEvent (s : State) (m : Msg) : Msg :=
  match m.origin with
  | .watch d n =>
    if s.lostRecs.contains n then
      { m with m0 := wd (m.m0.toNat / 8 * 8 + 7), m1 := s.word d }
    else m
  | _ => m

/-- The destination decides (R246). A message queues behind those of its class that wait for a slot. The start of a handler
carries out the effect of an `ifence` (R104). -/
def State.takeMsg (s : State) (m : Msg) : State × MsgAnswer :=
  let t := s.tileAt m.dst
  let e := s.vectorFor m
  if t.running = false then (s, .dead)
  else if vectOk m.table e = false then (s, .noHandler)
  else if m.user && t.tenantOf m.table != m.tenant then (s, .rights)
  else
    match (if t.point = .g ∨ s.turning m.table = true ∨ t.inbox.any (fun x => x.table == m.table) = true then none
      else s.idleOf m.dst m.table) with
    | some sl =>
      let c := { s.ctxAt (ctxId m.dst sl) with tenant := BitVec.ofNat 16 (t.tenantOf m.table) }
      ((s.interruptWord m).setCtxAt (ctxId m.dst sl)
        { c.handle e (s.lostEvent m) with fenced := s.codeOld.length }, .taken)
    | none =>
      if t.inboxRoom m.table then (s.setTileAt m.dst { t with inbox := t.inbox ++ [s.lostEvent m] }, .taken)
      else (s, .refused)

end Sys2Proof.Machine
end

