-- ==== Sys2Proof/Machine/System.lean ====
section
/-! DEFINITION. The system instructions and the control registers (R311 to R316, R319 to R321). -/

namespace Sys2Proof.Machine

open Sys2Proof

/-! ### Control registers (R187, R312) -/

/-- c.status of the issuing context (R312). -/
def Ctx.status (c : Ctx) (house : Bool) : Word :=
  wd (b2n house * 2 ^ 15 + b2n c.inTrap * 2 ^ 14 + b2n c.gang * 2 ^ 13 + b2n c.handler * 2 ^ 12 + b2n c.pipe * 2 ^ 11)

/-- c.adopt (R162). -/
def Ctx.adoptReg (c : Ctx) : Word := wd (b2n c.adoptOff * 2 ^ 8 + c.depth.toNat * 2 ^ 4 + c.limit.toNat)

/-- The value of a control register of the issuing context. -/
def State.creg (s : State) (n : Nat) : Word :=
  let c := s.me
  let part := if houseSlot s.cur then 15 else s.partOf s.cur % 16
  if n = 0 then c.status (houseSlot s.cur)
  else if n = 1 then wd (b2n c.adopted * 2 ^ 8 + c.cause.toNat)
  else if n = 2 then c.epc
  else if n = 3 then c.tval
  else if n = 4 then c.trapvec
  else if n = 5 then wd c.timeout.toNat
  else if n = 6 then wd c.retry.toNat
  else if n = 7 then c.adoptReg
  else if n = 8 then c.adoptsp &&& ~~~(511 : Word)
  else if n = 9 then wd c.round.toNat
  else if n = 10 then wd (part * 2 ^ 16 + c.tenant.toNat)
  else if n = 11 then s.coordOf (tileOf s.cur) (slotOf s.cur) c.stage.toNat
  else if n = 12 then s.cycle
  else if n = 13 then wd c.abind.toNat
  else if n = 14 then c.msgvec
  else if n = 15 then c.scratch0
  else c.scratch1

/-- A write changes only RW fields (R313); LIMIT values of 5–7 store 4 (R162). -/
def Ctx.setCreg (c : Ctx) (n : Nat) (v : Word) : Ctx :=
  if n = 1 then { c with cause := BitVec.ofNat 8 (fld v 7 0) }
  else if n = 2 then { c with epc := v }
  else if n = 3 then { c with tval := v }
  else if n = 4 then { c with trapvec := v }
  else if n = 5 then { c with timeout := BitVec.ofNat 32 (fld v 31 0) }
  else if n = 6 then { c with retry := BitVec.ofNat 8 (fld v 7 0) }
  else if n = 7 then
    { c with adoptOff := bit v 8, limit := if 4 < fld v 2 0 then 4 else BitVec.ofNat 3 (fld v 2 0) }
  else if n = 8 then { c with adoptsp := wd (fld v 63 9 * 2 ^ 9) }
  else if n = 9 then { c with round := BitVec.ofNat 2 (fld v 1 0) }
  else if n = 15 then { c with scratch0 := v }
  else if n = 16 then { c with scratch1 := v }
  else c

/-- Registers without a field that a program can write (R314). -/
def cregReadOnly (n : Nat) : Bool := n == 0 || n == 10 || n == 11 || n == 12 || n == 13 || n == 14

/-- The checks of R314 on a write of `v`, then the write, with the old value in `d` (g0 for none). -/
def State.writeCreg (s : State) (d n : Nat) (v : Word) : Out :=
  if cregReadOnly n then s.trap cILLEGAL_OPERAND (wd n)
  else if n = 8 ∧ s.me.depth ≠ 0 then s.trap cILLEGAL_OPERAND v
  else s.complete ((s.me.setCreg n v).setG d ⟨s.creg n, false⟩) 4

/-- A write whose value comes from g[a], which is consumed. -/
def State.writeCregOf (s : State) (d n a : Nat) (f : Word → Word → Word) : Out :=
  s.reading [a] fun c =>
    if (c.getG a).p then s.trap cPOISON_CONSUMED 0 else s.writeCreg d n (f (s.creg n) (c.getG a).v)

def execCget (d : BitVec 5) (imm : BitVec 6) (s : State) : Out :=
  s.checked (limCget imm) (wordCget d imm) (s.complete (s.me.setG (gr d) ⟨s.creg imm.toNat, false⟩) 4)
def execCset (a : BitVec 5) (imm : BitVec 6) (s : State) : Out :=
  s.checked (limCset imm) (wordCset a imm) (s.writeCregOf 0 imm.toNat (gr a) (fun _ x => x))
def execCseti (b : BitVec 5) (imm : BitVec 6) (s : State) : Out :=
  s.checked (limCseti imm) (wordCseti b imm) (s.writeCreg 0 imm.toNat (wd b.toNat))
def execCclr (d a : BitVec 5) (imm : BitVec 6) (s : State) : Out :=
  s.checked (limCclr imm) (wordCclr d a imm) (s.writeCregOf (gr d) imm.toNat (gr a) (fun old x => old &&& ~~~x))
def execCbis (d a : BitVec 5) (imm : BitVec 6) (s : State) : Out :=
  s.checked (limCbis imm) (wordCbis d a imm) (s.writeCregOf (gr d) imm.toNat (gr a) (fun old x => old ||| x))

/-! ### Traps, services, napping (R316, R319 to R321) -/

/-- brk and trap complete before they trap: c.epc names the next instruction (R316). -/
def State.trapAfter (s : State) (cause : Nat) (tval : Word) : Out :=
  .next (s.setMe (s.me.enter cause (s.me.pc + 4) tval))

/-- trap is an ordering point (R409). From 0x400 on it calls a service (R320), which acts as fence.full.dom before and after. -/
def execTrap (imm : BitVec 11) (s : State) : Out :=
  s.orderPoint fun s =>
    if imm.toNat ≤ 0x3FF then s.trapAfter cSYSCALL (wd imm.toNat)
    else if 0x402 ≤ imm.toNat then s.trap cILLEGAL_OPERAND (wd imm.toNat)
    else if s.fenceWaits s.cur .all false then s.stall
    else .next (s.setMe (s.me.block (.service imm.toNat)))

def execBrk (imm : BitVec 11) (s : State) : Out := s.trapAfter cBREAK (wd imm.toNat)
def execTback (s : State) : Out := s.trapReturn

/-- BLOCKED for g[a][31:0] reference cycles; 0 completes at once (R321). -/
def execNap (a : BitVec 5) (s : State) : Out :=
  s.reading [gr a] fun c =>
    let x := c.getG (gr a)
    if x.p then s.trap cPOISON_CONSUMED 0
    else if fld x.v 31 0 = 0 then s.complete c 4
    else .next (s.setMe (c.block (.nap (s.cycle.toNat + fld x.v 31 0))))

end Sys2Proof.Machine
end

