-- ==== Sys2Proof/Machine/Row.lean ====
section
/-! DEFINITION. The vector row unit: the bound accumulator and its checks (R260 to R264), the lane operations (R265 to R268),
compares, reductions, moves and conversions (R269 to R271), and row loads and stores (R272, R273). -/

namespace Sys2Proof.Machine

open Sys2Proof

/-! ### Accumulator elements (R261) -/

def accIndex (a row i : Nat) : Nat := (a * 64 + row) * 64 + i
def Tile.lane (t : Tile) (a row i : Nat) : Elem × Bool := Map.get (fun _ => (0, false)) t.acc (accIndex a row i)
def Tile.typeOf (t : Tile) (a : Nat) : AType := Map.get (fun _ => .fp32) t.atype a

/-- The first `n` elements of a row replaced by `f`. -/
def setLanes (acc : Map (Elem × Bool)) (base : Nat) (f : Nat → Elem × Bool) : Nat → Map (Elem × Bool)
  | 0 => acc
  | n + 1 => Map.set (fun _ => (0, false)) (setLanes acc base f n) (base + n) (f n)

def Tile.setRow (t : Tile) (a row : Nat) (f : Nat → Elem × Bool) : Tile :=
  { t with acc := setLanes t.acc (accIndex a row 0) f 64 }

/-- Element type as a format code. -/
def AType.fmt : AType → Nat
  | .fp32 => fFP32
  | .i32 => fI32
  | .bf16 => fBF16

/-! ### The checks of R260 and the interlock of R263 -/

/-- Commands of the matrix queue that use the accumulator (R263). -/
def Tile.queuedAcc (t : Tile) (a : Nat) : Bool := t.mq.any (fun m => m.dst == a || (decide (m.form = .acopy) && m.src == a))

/-- Is a vld still to write one of the rows (R273)? -/
def Tile.loadingRow (t : Tile) (a : Nat) (rows : List Nat) : Bool := t.rows.any (fun x => x.acc == a && rows.contains x.row)

/-- Does a command of the matrix queue use the accumulator, or has a vld not written a row of it? -/
def Tile.busyAcc (t : Tile) (a : Nat) : Bool := t.queuedAcc a || t.rows.any (fun x => x.acc == a)

/-- Does the issuing context's partition own LOWN entry 46 (R80, R276)? House is partition 16 here, with no exception (R81). -/
def State.ownsMatrix (s : State) : Bool := s.myTile.lownAt 46 == s.partOf s.cur && decide (s.partOf s.cur ≤ 16)

/-- The bound accumulator, checked in the order of R260, with the interlock between the ownership and the type. `rows` are the rows that
the instruction reads or writes. -/
def State.onRow (s : State) (rows : List Nat) (ty : Option AType) (k : Nat → Out) : Out :=
  let c := s.me
  let a := c.abind.toNat % 16
  if c.abind.toNat < 16 then s.trap cILLEGAL_OPERAND 0
  else if s.ownsMatrix = false then s.trap cRIGHTS (wd a)
  else if s.myTile.queuedAcc a || s.myTile.loadingRow a rows then s.stall
  else
    match ty with
    | some x => if s.myTile.typeOf a = x then k a else s.trap cFORMAT_MISMATCH (wd a)
    | none => k a

/-- A row result takes effect, and the context goes on. -/
def State.putRow (s : State) (a row : Nat) (f : Nat → Elem × Bool) : Out :=
  (s.setMyTile (s.myTile.setRow a row f)).complete s.me 4

def el (n : Nat) : Elem := BitVec.ofNat 32 n

/-- vd[i] ← f va[i] vb[i] (with c.round), poisoned when an operand is (R274). -/
def State.row2 (s : State) (ty : AType) (d a b : Nat) (f : Nat → Nat → Nat → Nat) : Out :=
  s.onRow [d, a, b] (some ty) fun acc =>
    let t := s.myTile
    s.putRow acc d fun i =>
      let x := t.lane acc a i
      let y := t.lane acc b i
      (el (f s.me.round.toNat x.1.toNat y.1.toNat), x.2 || y.2)

def State.row1 (s : State) (ty : Option AType) (d a : Nat) (f : Nat → Nat → Nat) : Out :=
  s.onRow [d, a] ty fun acc =>
    let t := s.myTile
    s.putRow acc d fun i =>
      let x := t.lane acc a i
      (el (f s.me.round.toNat x.1.toNat), x.2)

/-- vd[i] ← f va[i] vb[i] vd[i]. -/
def State.row3 (s : State) (ty : AType) (d a b : Nat) (f : Nat → Nat → Nat → Nat → Nat) : Out :=
  s.onRow [d, a, b] (some ty) fun acc =>
    let t := s.myTile
    s.putRow acc d fun i =>
      let x := t.lane acc a i
      let y := t.lane acc b i
      let z := t.lane acc d i
      (el (f s.me.round.toNat x.1.toNat y.1.toNat z.1.toNat), x.2 || y.2 || z.2)

/-- The second operand is g[b] (R265). -/
def State.rowG (s : State) (d a b : Nat) (f : Nat → Nat → Nat → Nat) : Out :=
  s.reading [b] fun c => s.onRow [d, a] (some .fp32) fun acc =>
    let t := s.myTile
    let y := c.getG b
    s.putRow acc d fun i =>
      let x := t.lane acc a i
      (el (f c.round.toNat x.1.toNat (low32 y.v)), x.2 || y.p)

/-! ### fp32 (R265) -/

def execVaddFp32 (d a b : BitVec 6) (s : State) : Out := s.row2 .fp32 (gr d) (gr a) (gr b) (addF 23)
def execVsubFp32 (d a b : BitVec 6) (s : State) : Out := s.row2 .fp32 (gr d) (gr a) (gr b) (subF 23)
def execVmulFp32 (d a b : BitVec 6) (s : State) : Out := s.row2 .fp32 (gr d) (gr a) (gr b) (mulF 23)
def execVdivFp32 (d a b : BitVec 6) (s : State) : Out := s.row2 .fp32 (gr d) (gr a) (gr b) (divF 23)
def execVfmaFp32 (d a b : BitVec 6) (s : State) : Out := s.row3 .fp32 (gr d) (gr a) (gr b) (fmaF 23)
def execVminFp32 (d a b : BitVec 6) (s : State) : Out := s.row2 .fp32 (gr d) (gr a) (gr b) (fun _ => minF 23)
def execVmaxFp32 (d a b : BitVec 6) (s : State) : Out := s.row2 .fp32 (gr d) (gr a) (gr b) (fun _ => maxF 23)
def execVabsFp32 (d a : BitVec 6) (s : State) : Out := s.row1 (some .fp32) (gr d) (gr a) (fun _ x => x % 2 ^ 31)
def execVnegFp32 (d a : BitVec 6) (s : State) : Out := s.row1 (some .fp32) (gr d) (gr a) (fun _ => negF 23)
def execVreluFp32 (d a : BitVec 6) (s : State) : Out := s.row1 (some .fp32) (gr d) (gr a) (fun _ => reluF 23)
def execVaddbFp32 (d a b : BitVec 6) (s : State) : Out :=
  s.checked (limVaddbFp32 b) (wordVaddbFp32 d a b) (s.rowG (gr d) (gr a) (gr b) (addF 23))
def execVmulbFp32 (d a b : BitVec 6) (s : State) : Out :=
  s.checked (limVmulbFp32 b) (wordVmulbFp32 d a b) (s.rowG (gr d) (gr a) (gr b) (mulF 23))

/-! ### bf16 (R266): lanes 2i and 2i + 1 of element i -/

def pair (lo hi : Nat) : Nat := lo + hi * 2 ^ 16
def lo16 (x : Nat) : Nat := x % 2 ^ 16
def hi16 (x : Nat) : Nat := x / 2 ^ 16 % 2 ^ 16

def lanes2 (f : Nat → Nat → Nat → Nat) (m x y : Nat) : Nat := pair (f m (lo16 x) (lo16 y)) (f m (hi16 x) (hi16 y))

def execVaddBf16 (d a b : BitVec 6) (s : State) : Out := s.row2 .bf16 (gr d) (gr a) (gr b) (lanes2 (addF 7))
def execVsubBf16 (d a b : BitVec 6) (s : State) : Out := s.row2 .bf16 (gr d) (gr a) (gr b) (lanes2 (subF 7))
def execVmulBf16 (d a b : BitVec 6) (s : State) : Out := s.row2 .bf16 (gr d) (gr a) (gr b) (lanes2 (mulF 7))
def execVfmaBf16 (d a b : BitVec 6) (s : State) : Out :=
  s.row3 .bf16 (gr d) (gr a) (gr b) (fun m x y z =>
    pair (fmaF 7 m (lo16 x) (lo16 y) (lo16 z)) (fmaF 7 m (hi16 x) (hi16 y) (hi16 z)))
def execVminBf16 (d a b : BitVec 6) (s : State) : Out := s.row2 .bf16 (gr d) (gr a) (gr b) (lanes2 (fun _ => minF 7))
def execVmaxBf16 (d a b : BitVec 6) (s : State) : Out := s.row2 .bf16 (gr d) (gr a) (gr b) (lanes2 (fun _ => maxF 7))
def execVreluBf16 (d a : BitVec 6) (s : State) : Out :=
  s.row1 (some .bf16) (gr d) (gr a) (fun _ x => pair (reluF 7 (lo16 x)) (reluF 7 (hi16 x)))

/-! ### i32 (R267) -/

def wrap32 (v : Int) : Nat := intBits 32 v

def execVaddI32 (d a b : BitVec 6) (s : State) : Out :=
  s.row2 .i32 (gr d) (gr a) (gr b) (fun _ x y => (x + y) % 2 ^ 32)
def execVsubI32 (d a b : BitVec 6) (s : State) : Out :=
  s.row2 .i32 (gr d) (gr a) (gr b) (fun _ x y => wrap32 ((x : Int) - y))
def execVmulI32 (d a b : BitVec 6) (s : State) : Out :=
  s.row2 .i32 (gr d) (gr a) (gr b) (fun _ x y => x * y % 2 ^ 32)
def execVminI32 (d a b : BitVec 6) (s : State) : Out :=
  s.row2 .i32 (gr d) (gr a) (gr b) (fun _ x y => if signed 32 x ≤ signed 32 y then x else y)
def execVmaxI32 (d a b : BitVec 6) (s : State) : Out :=
  s.row2 .i32 (gr d) (gr a) (gr b) (fun _ x y => if signed 32 x ≤ signed 32 y then y else x)
def execVandI32 (d a b : BitVec 6) (s : State) : Out := s.row2 .i32 (gr d) (gr a) (gr b) (fun _ x y => x &&& y)
def execVorI32 (d a b : BitVec 6) (s : State) : Out := s.row2 .i32 (gr d) (gr a) (gr b) (fun _ x y => x ||| y)
def execVxorI32 (d a b : BitVec 6) (s : State) : Out := s.row2 .i32 (gr d) (gr a) (gr b) (fun _ x y => x ^^^ y)
def execVshlI32 (d a b : BitVec 6) (s : State) : Out :=
  s.row2 .i32 (gr d) (gr a) (gr b) (fun _ x y => x * 2 ^ (y % 32) % 2 ^ 32)
def execVsraI32 (d a b : BitVec 6) (s : State) : Out :=
  s.row2 .i32 (gr d) (gr a) (gr b) (fun _ x y => wrap32 (signed 32 x / 2 ^ (y % 32)))
def execVreluI32 (d a : BitVec 6) (s : State) : Out :=
  s.row1 (some .i32) (gr d) (gr a) (fun _ x => if 0 < signed 32 x then x else 0)

/-! ### Functions (R268) -/

def execVexpFp32 (d a : BitVec 6) (s : State) : Out := s.row1 (some .fp32) (gr d) (gr a) (fun _ => expF)
def execVlogFp32 (d a : BitVec 6) (s : State) : Out := s.row1 (some .fp32) (gr d) (gr a) (fun _ => logF)
def execVrcpFp32 (d a : BitVec 6) (s : State) : Out := s.row1 (some .fp32) (gr d) (gr a) rcpF
def execVrsqrtFp32 (d a : BitVec 6) (s : State) : Out := s.row1 (some .fp32) (gr d) (gr a) (fun _ => rsqrtF)
def execVsqrtFp32 (d a : BitVec 6) (s : State) : Out := s.row1 (some .fp32) (gr d) (gr a) (sqrtF 23)
def execVtanhFp32 (d a : BitVec 6) (s : State) : Out := s.row1 (some .fp32) (gr d) (gr a) (fun _ => tanhF)
def execVsigmFp32 (d a : BitVec 6) (s : State) : Out := s.row1 (some .fp32) (gr d) (gr a) (fun _ => sigmF)

/-! ### Compare and select (R269, R274) -/

/-- The lowest poisoned element of a row. -/
def Tile.poisonedLane (t : Tile) (a row : Nat) : Option Nat := (List.range 64).find? (fun i => (t.lane a row i).2)

/-- A compare consumes its operands. -/
def State.rowCmp (s : State) (ty : AType) (d a b : Nat) (f : Nat → Nat → Bool) : Out :=
  s.onRow [d, a, b] (some ty) fun acc =>
    let t := s.myTile
    match t.poisonedLane acc a with
    | some i => s.trap cPOISON_CONSUMED (wd (acc * 2 ^ 16 + a * 2 ^ 8 + i))
    | none =>
      match t.poisonedLane acc b with
      | some i => s.trap cPOISON_CONSUMED (wd (acc * 2 ^ 16 + b * 2 ^ 8 + i))
      | none =>
        s.putRow acc d fun i =>
          (if f (t.lane acc a i).1.toNat (t.lane acc b i).1.toNat then BitVec.allOnes 32 else 0, false)

def execVcmpEqFp32 (d a b : BitVec 6) (s : State) : Out := s.rowCmp .fp32 (gr d) (gr a) (gr b) (eqF 23)
def execVcmpLtFp32 (d a b : BitVec 6) (s : State) : Out := s.rowCmp .fp32 (gr d) (gr a) (gr b) (ltF 23)
def execVcmpLeFp32 (d a b : BitVec 6) (s : State) : Out := s.rowCmp .fp32 (gr d) (gr a) (gr b) (leF 23)
def execVcmpEqI32 (d a b : BitVec 6) (s : State) : Out := s.rowCmp .i32 (gr d) (gr a) (gr b) (fun x y => x == y)
def execVcmpLtI32 (d a b : BitVec 6) (s : State) : Out :=
  s.rowCmp .i32 (gr d) (gr a) (gr b) (fun x y => decide (signed 32 x < signed 32 y))

def execVsel (d a b : BitVec 6) (s : State) : Out :=
  s.onRow [gr d, gr a, gr b] none fun acc =>
    let t := s.myTile
    s.putRow acc (gr d) fun i =>
      let x := t.lane acc (gr a) i
      let y := t.lane acc (gr b) i
      let z := t.lane acc (gr d) i
      (if z.1 ≠ 0 then x.1 else y.1, x.2 || y.2 || z.2)

/-! ### Reductions and moves (R270) -/

/-- One level of the tree: neighbours combined. -/
def combinePairs (f : Nat → Nat → Nat) : List Nat → List Nat
  | x :: y :: rest => f x y :: combinePairs f rest
  | l => l

def treeSum (f : Nat → Nat → Nat) : Nat → List Nat → List Nat
  | 0, l => l
  | n + 1, l => treeSum f n (combinePairs f l)

/-- Row elements in ascending order. -/
def Tile.rowList (t : Tile) (a row : Nat) : List Nat := (List.range 64).map (fun i => (t.lane a row i).1.toNat)

/-- The result in every element, poisoned if any element is. -/
def State.rowReduce (s : State) (ty : AType) (d a : Nat) (f : Nat → List Nat → Nat) : Out :=
  s.onRow [d, a] (some ty) fun acc =>
    let t := s.myTile
    let v := el (f s.me.round.toNat (t.rowList acc a))
    s.putRow acc d fun _ => (v, (t.poisonedLane acc a).isSome)

def execVsumFp32 (d a : BitVec 6) (s : State) : Out :=
  s.rowReduce .fp32 (gr d) (gr a) (fun m l => (treeSum (addF 23 m) 6 l).headD 0)
/-- The exact sum, saturated once. -/
def execVsumI32 (d a : BitVec 6) (s : State) : Out :=
  s.rowReduce .i32 (gr d) (gr a) (fun _ l =>
    wrap32 (clampInt (-2 ^ 31) (2 ^ 31 - 1) (l.foldl (fun acc x => acc + signed 32 x) 0)))
def execVmaxrFp32 (d a : BitVec 6) (s : State) : Out :=
  s.rowReduce .fp32 (gr d) (gr a) (fun _ l => (treeSum (maxF 23) 6 l).headD 0)

def execVbcast (d a : BitVec 6) (s : State) : Out :=
  s.checked (limVbcast a) (wordVbcast d a) <|
    s.reading [gr a] fun c => s.onRow [gr d] none fun acc =>
      s.putRow acc (gr d) fun _ => (el (low32 (c.getG (gr a)).v), (c.getG (gr a)).p)

/-- The element index in g[b] is consumed (R270). -/
def State.rowIndex (s : State) (b : Nat) (k : Nat → Out) : Out :=
  let x := s.me.getG b
  if x.p then s.trap cPOISON_CONSUMED 0
  else if 63 < x.v.toNat then s.trap cILLEGAL_OPERAND x.v
  else k x.v.toNat

def execVget (d a b : BitVec 6) (s : State) : Out :=
  s.checked (limVget d b) (wordVget d a b) <|
    s.reading [gr b] fun c => s.onRow [gr a] none fun acc => s.rowIndex (gr b) fun i =>
      let x := s.myTile.lane acc (gr a) i
      s.complete (c.setG (gr d) ⟨wd x.1.toNat, x.2⟩) 4

def execVset (d a b : BitVec 6) (s : State) : Out :=
  s.checked (limVset a b) (wordVset d a b) <|
    s.reading [gr a, gr b] fun c => s.onRow [gr d] none fun acc => s.rowIndex (gr b) fun i =>
      let t := s.myTile
      let x := c.getG (gr a)
      s.putRow acc (gr d) fun j => if j = i then (el (low32 x.v), x.p) else t.lane acc (gr d) j

/-! ### Conversions (R271) -/

/-- fp32 to bf16, nearest even. -/
def toBf16 (x : Nat) : Nat := encodeElem fBF16 0 (decodeElem fFP32 0 x)

def execVcvtBf16Fp32 (d a b : BitVec 6) (s : State) : Out :=
  s.onRow [gr d, gr a, gr b] none fun acc =>
    let t := s.myTile
    s.putRow acc (gr d) fun i =>
      let x := t.lane acc (gr a) i
      let y := t.lane acc (gr b) i
      (el (pair (toBf16 x.1.toNat) (toBf16 y.1.toNat)), x.2 || y.2)

def execVcvtFp32Bf16 (d a b : BitVec 6) (s : State) : Out :=
  s.checked (limVcvtFp32Bf16 b) (wordVcvtFp32Bf16 d a b) <|
    s.row1 none (gr d) (gr a) (fun _ x => bf16ToFp32 (if b = 0 then lo16 x else hi16 x))
def execVcvtI32Fp32 (d a : BitVec 6) (s : State) : Out := s.row1 none (gr d) (gr a) (fun _ x => wrap32 (cvtI32 x))
def execVcvtFp32I32 (d a : BitVec 6) (s : State) : Out := s.row1 none (gr d) (gr a) (fun _ => cvtFp32)
def execVmov (d a : BitVec 6) (s : State) : Out := s.row1 none (gr d) (gr a) (fun _ x => x)

/-! ### Format registers and elements in memory (R83, R85) -/

/-- Reset value of a format register: raw (R83). -/
def fmtReset : Nat → Word := fun _ => wd (7 * 2 ^ 16)
/-- LFMT of a bank 2–31; SFMT at 32. -/
def Tile.fmtAt (t : Tile) (k : Nat) : Word := Map.get fmtReset t.fmt k

def lfmtFmt (w : Word) : Nat := fld w 18 16
def lfmtScale (w : Word) : Int := signed 8 (fld w 31 24)
def lfmtLayout (w : Word) : Nat := fld w 23 22
def lfmtPitch (w : Word) : Nat := fld w 11 0

/-- Bits of an element, and the bit at which element `j` of a run starts (R85). -/
def elemBits (fmt : Nat) : Nat := if fmt = fLG6 then 6 else 8 * elemBytes fmt
def elemStart (fmt j : Nat) : Nat := if fmt = fLG6 then 192 * (j / 32) + 6 * (j % 32) else 8 * elemBytes fmt * j
/-- Bytes of a run of `n` elements; `n` is a multiple of 32 in lg6. -/
def runBytes (fmt n : Nat) : Nat := if fmt = fLG6 then (n + 31) / 32 * 24 else elemBytes fmt * n

/-- `n` bits that start `b` bits after the byte at `a`. -/
def readBits (m : List Host.Cell) (a b n : Nat) : Nat :=
  readBytes m (a + b / 8) ((b % 8 + n + 7) / 8) / 2 ^ (b % 8) % 2 ^ n

/-- Is a word that holds one of the bits poisoned? -/
def State.bitsPoison (s : State) (a b n : Nat) : Bool :=
  (s.tagAt (a + b / 8)).poison || (s.tagAt (a + (b + n - 1) / 8)).poison

/-- Words that a run of bytes touches. -/
def wordsOf (p len : Nat) : List Nat := (List.range ((p % 8 + len + 7) / 8)).map (fun j => wordOf p + 8 * j)

/-- Where a loft offset of a data bank or slice lies: its format register, and its place in and the length of the bank. -/
def bankOf (off : Nat) : Nat × Nat × Nat :=
  if off < 0x400000 then (off / 0x20000, off % 0x20000, 0x20000) else (32, (off - 0x400000) % 0x10000, 0x10000)

/-- The checks of R272, and the DPA and format register of the run. -/
def State.rowLoft (s : State) (a b n : Nat) (k : Nat → Word → Word → Out) : Out :=
  let c := s.me
  let tile := tileOf s.cur
  if (c.getG a).p || (c.getG b).p then s.trap cPOISON_CONSUMED 0
  else
    let p := padd (c.getG a).v (c.getG b).v
    let off := ptrOff p
    let (bank, inBank, size) := bankOf off
    let f := s.myTile.fmtAt bank
    let fmt := lfmtFmt f
    if (ptrIdx p ≠ 0x3FFFE ∧ ptrIdx p ≠ 0x3F000 + tile) ∨ off < 0x40000 ∨ 0x800000 ≤ off then s.trap cILLEGAL_OPERAND p
    else if fmt = fRAW then s.trap cFORMAT_MISMATCH p
    else if (if fmt = fLG6 then inBank % 24 else off % elemBytes fmt) ≠ 0 then s.trap cALIGN p
    else if size < inBank + runBytes fmt n then s.trap cLOFT_BOUNDS p
    else if s.loftOwned tile (lownEntry off) (s.partOf s.cur) = false then s.trap cRIGHTS p
    else k (s.loftDpa tile off) f p

/-- Lanes of a row: 64, or 128 in a bf16 tile. -/
def AType.lanes (t : AType) : Nat := if t = .bf16 then 128 else 64

/-- The words of a run that starts at `p`, each with its pointer; `ptr` points to `p`. -/
def runWords (p len : Nat) (ptr : Word) : List (Word × Target) :=
  (wordsOf p len).map (fun w => (padd (wd (ptr.toNat / 8 * 8)) (wd (w - wordOf p)), { dpa := w }))

/-- vld: a plain load of each word (R273). The row is written once they have come. -/
def execVld (d a b : BitVec 6) (s : State) : Out :=
  s.checked (limVld a b) (wordVld d a b) <|
    s.reading [gr a, gr b] fun _ => s.onRow [gr d] none fun acc =>
      let ty := s.myTile.typeOf acc
      s.rowLoft (gr a) (gr b) ty.lanes fun p f ptr =>
        let ws := runWords p (runBytes (lfmtFmt f) ty.lanes) ptr
        if 4096 < s.outstanding (tileOf s.cur) + ws.length then s.stall
        else
          let x : RowLoad :=
            { id := s.freshId, ctx := s.cur, acc := acc, row := gr d, type := ty, fmt := f, dpa := p, ptr := ptr, need := ws.length }
          let s := s.bumpId.setMyTile { s.myTile with rows := s.myTile.rows ++ [x] }
          s.issueAll (s.reqsFor (.rowLoad x.id) (fun _ r => r) 0 ws) 4

/-- Element `j` of a row that is loaded: its lane, and its poison. -/
def RowLoad.elem (x : RowLoad) (j : Nat) : Nat × Bool :=
  let m := x.words.foldl (fun (m : List Host.Cell) w => writeBytes m w.1 8 w.2.v.toNat) []
  let fmt := lfmtFmt x.fmt
  let b := elemStart fmt j
  let n := elemBits fmt
  let bad (d : Nat) : Bool := x.words.any (fun w => w.1 == wordOf d && w.2.p)
  (encodeElem x.type.fmt 0 (decodeElem fmt (lfmtScale x.fmt) (readBits m x.dpa b n)),
    bad (x.dpa + b / 8) || bad (x.dpa + (b + n - 1) / 8))

/-- Lane `i` of the row. -/
def RowLoad.lane (x : RowLoad) (i : Nat) : Elem × Bool :=
  if x.type = .bf16 then
    let u := x.elem (2 * i)
    let v := x.elem (2 * i + 1)
    (el (pair u.1 v.1), u.2 || v.2)
  else (el (x.elem i).1, (x.elem i).2)

/-- Have all its words come? -/
def RowLoad.whole (x : RowLoad) : Bool := decide (x.need ≤ x.words.length)

/-- A word of a vld comes; the last one writes the row. A poisoned word sets the latch (R327). -/
def State.takeRow (s : State) (r : Req) (id : Nat) (v : GVal) : State :=
  let t := s.tileAt r.src
  match t.rows.find? (fun x => x.id == id) with
  | none => s
  | some x =>
    let y := { x with words := x.words ++ [(r.dpa, v)] }
    let s := if r.slot < 512 then s.setCtxAt x.ctx ((s.ctxAt x.ctx).latchIf v.p r.ptr) else s
    if y.whole then
      s.setTileAt r.src { t.setRow x.acc x.row y.lane with rows := t.rows.erase x }
    else s.setTileAt r.src { t with rows := t.rows.map (fun z => if z = x then y else z) }

/-- The elements of a row as a run of bytes in the bank's format, and whether an element with poison touches bytes `lo` to `hi`. -/
def Tile.runOf (t : Tile) (acc row : Nat) (f : Word) : Nat × (Nat → Nat → Bool) :=
  let ty := t.typeOf acc
  let fmt := lfmtFmt f
  let value (j : Nat) : Nat × Bool :=
    let x := if ty = .bf16 then t.lane acc row (j / 2) else t.lane acc row j
    let v := if ty = .bf16 then (if j % 2 = 0 then lo16 x.1.toNat else hi16 x.1.toNat) else x.1.toNat
    (encodeElem fmt (lfmtScale f) (decodeElem ty.fmt 0 v), x.2)
  ((List.range ty.lanes).foldl (fun n j => n + (value j).1 * 2 ^ elemStart fmt j) 0,
    fun lo hi => (List.range ty.lanes).any (fun j =>
      (value j).2 && decide (elemStart fmt j / 8 < hi) && decide (lo ≤ (elemStart fmt j + elemBits fmt - 1) / 8)))

/-- The write of one word of a run: the element bytes that fall in it, and no other (R273). -/
def runWrite (p len big : Nat) (bad : Nat → Nat → Bool) (r : Req) : Req :=
  let lo := max p r.dpa
  let hi := min (p + len) (r.dpa + 8)
  { r with
    op := .rowStore (hi - lo), dpa := lo
    val := ⟨wd (big / 2 ^ (8 * (lo - p)) % 2 ^ (8 * (hi - lo))), bad (lo - p) (hi - p)⟩ }

/-- vst: the row is read when it issues, and each word is written by one event at the loft bank. -/
def execVst (d a b : BitVec 6) (s : State) : Out :=
  s.checked (limVst a b) (wordVst d a b) <|
    s.reading [gr a, gr b] fun _ => s.onRow [gr d] none fun acc =>
      s.rowLoft (gr a) (gr b) (s.myTile.typeOf acc).lanes fun p f ptr =>
        let len := runBytes (lfmtFmt f) (s.myTile.typeOf acc).lanes
        let (big, bad) := s.myTile.runOf acc (gr d) f
        s.issueAll (s.reqsFor (.rowStore 8) (fun _ r => runWrite p len big bad r) 0 (runWords p len ptr)) 4

end Sys2Proof.Machine
end

