-- ==== Sys2Proof/Machine/Matrix.lean ====
section
/-! DEFINITION. The matrix unit: accumulators and their versions (R276, R277), the e registers (R278), descriptors and the
checks at issue (R279, R280, R284), what a command computes (R136 to R142, R283, R289), await (R286) and the drains at issue
(R287). The array's own steps are in EvEngine. -/

namespace Sys2Proof.Machine

open Sys2Proof

/-! ### Accumulators and versions -/

def Tile.version (t : Tile) (a : Nat) : BitVec 16 := Map.get (fun _ => 0) t.ver a

/-- Every element of a tile replaced. -/
def Tile.setAcc (t : Tile) (a : Nat) (f : Nat → Nat → Elem × Bool) : Tile :=
  (List.range 64).foldl (fun (t : Tile) row => t.setRow a row (f row)) t

/-- δ of R280 and R286. -/
def delta (v counter : BitVec 16) : Nat := (v - counter).toNat

/-- R286: has the counter reached v? -/
def reached (v counter : BitVec 16) : Bool := delta v counter = 0 || decide (32768 < delta v counter)

/-- RIGHTS of R276; `n` is what c.tval takes. -/
def State.onMatrix (s : State) (n : Nat) (k : Out) : Out := if s.ownsMatrix then k else s.trap cRIGHTS (wd n)

/-- The interlock of R263 and R277. -/
def State.interlocked (s : State) (a : Nat) (k : Out) : Out := if s.myTile.busyAcc a then s.stall else k

def execAbind (d : BitVec 5) (s : State) : Out :=
  s.checked (limAbind d) (wordAbind d) <| s.onMatrix (gr d) <|
    s.complete { s.me with abind := BitVec.ofNat 5 (16 + gr d) } 4
def execAunbind (s : State) : Out := s.onMatrix 0 (s.complete { s.me with abind := 0 } 4)

def State.setType (s : State) (a : Nat) (t : AType) : Out :=
  s.onMatrix a <| s.interlocked a <|
    (s.setMyTile { s.myTile with atype := Map.set (fun _ => .fp32) s.myTile.atype a t }).complete s.me 4
def execAtypeFp32 (d : BitVec 5) (s : State) : Out :=
  s.checked (limAtypeFp32 d) (wordAtypeFp32 d) (s.setType (gr d) .fp32)
def execAtypeI32 (d : BitVec 5) (s : State) : Out :=
  s.checked (limAtypeI32 d) (wordAtypeI32 d) (s.setType (gr d) .i32)
def execAtypeBf16 (d : BitVec 5) (s : State) : Out :=
  s.checked (limAtypeBf16 d) (wordAtypeBf16 d) (s.setType (gr d) .bf16)

def execAzero (d : BitVec 5) (s : State) : Out :=
  s.checked (limAzero d) (wordAzero d) <| s.onMatrix (gr d) <| s.interlocked (gr d) <|
    (s.setMyTile (s.myTile.setAcc (gr d) (fun _ _ => (0, false)))).complete s.me 4

/-- The field d, a g register here, is what c.tval takes (R276). -/
def execAqlen (d : BitVec 5) (s : State) : Out :=
  s.onMatrix (gr d) (s.complete (s.me.setG (gr d) ⟨wd s.myTile.mq.length, false⟩) 4)
def execAver (d a : BitVec 5) (s : State) : Out :=
  s.checked (limAver a) (wordAver d a) <|
    s.onMatrix (gr d) (s.complete (s.me.setG (gr d) ⟨wd (s.myTile.version (gr a)).toNat, false⟩) 4)

/-! ### Extension registers (R278) -/

def execXset (d a b : BitVec 5) (s : State) : Out :=
  s.checked (limXset d) (wordXset d a b) <|
    s.reading [gr a, gr b] fun c =>
      s.complete ((c.setE (2 * gr d) (c.getG (gr a))).setE (2 * gr d + 1) (c.getG (gr b))) 4

def State.xget (s : State) (d key : Nat) : Out :=
  s.reading [32 + key] fun c => s.complete (c.setG d (c.getE key)) 4
def execXgetLo (d a : BitVec 5) (s : State) : Out :=
  s.checked (limXgetLo a) (wordXgetLo d a) (s.xget (gr d) (2 * gr a))
def execXgetHi (d a : BitVec 5) (s : State) : Out :=
  s.checked (limXgetHi a) (wordXgetHi d a) (s.xget (gr d) (2 * gr a + 1))

/-- Both words of the 16 aligned bytes are checked before either is performed. -/
def State.extWords (s : State) (a : Nat) (disp : Word) (keys : List Nat) (need : Need)
    (k : State → List (Word × Target) → Out) : Out :=
  s.reading (a :: keys) fun c =>
    let p := padd (c.getG a).v disp
    if (c.getG a).p then s.trapPoison c.latch
    else if fld p 3 0 ≠ 0 then s.trap cALIGN p
    else s.portAll need [] k [p, padd p 8]

def execXld (d a : BitVec 5) (imm : BitVec 6) (s : State) : Out :=
  s.checked (limXld d) (wordXld d a imm) <|
    s.extWords (gr a) (sext imm * 16) [] needR fun s ws =>
      s.issueAll (s.reqsFor (.load 8 false) (fun j r => { r with dest := [32 + 2 * gr d + j] }) 0 ws) 4

def execXst (d a : BitVec 5) (imm : BitVec 6) (s : State) : Out :=
  s.checked (limXst d) (wordXst d a imm) <|
    s.extWords (gr a) (sext imm * 16) (eKeys (gr d)) needW fun s ws =>
      if ws.zipIdx.any (fun (pt, j) => (s.me.getE (2 * gr d + j)).p && s.hostShared pt.2) then s.trapPoison s.me.latch
      else s.issueAll (s.reqsFor (.store 8) (fun j r => { r with val := s.me.getE (2 * gr d + j) }) 0 ws) 4

def execXclr (d : BitVec 5) (s : State) : Out :=
  s.checked (limXclr d) (wordXclr d) (s.complete ((s.me.setE (2 * gr d) {}).setE (2 * gr d + 1) {}) 4)

/-! ### Descriptors (R279) -/

def descMeta (hi : Word) : Nat := fld hi 16 0
def descExpver (lo : Word) : BitVec 16 := BitVec.ofNat 16 (fld lo 63 48)
def descK (lo : Word) : Nat := 32 * (fld lo 47 41 + 1)
def descAbank (lo : Word) : Nat := fld lo 40 36
def descArow (lo : Word) : Nat := fld lo 35 22
def descBoff (lo : Word) : Nat := fld lo 15 0

/-- Kept elements of a group of 24 positions; 24 for the dense forms. -/
def MForm.kept : MForm → Nat
  | .sp6 => 6
  | .sp12 => 12
  | _ => 24

/-- LAYOUT that the A bank needs (R90). -/
def MForm.layout : MForm → Nat
  | .sp6 => 1
  | .sp12 => 2
  | _ => 0

/-- Which arithmetic a pair of formats takes (R284). -/
inductive Path where
  | log | int | ieee
  deriving DecidableEq, Repr

def pairPath (fa fb : Nat) : Option Path :=
  let log (f : Nat) : Bool := f == fLG8 || f == fLG6
  let int (f : Nat) : Bool := f == fI8 || f == fN8
  if log fa && log fb then some .log
  else if int fa && int fb then some .int
  else if (fa = fBF16 ∧ fb = fBF16) ∨ (fa = fFP32 ∧ (fb = fFP32 ∨ fb = fBF16)) ∨ (fa = fBF16 ∧ fb = fFP32) then some .ieee
  else none

def Path.accType : Path → AType
  | .int => .i32
  | _ => .fp32

/-- Bytes that `n` stored elements take up, the last one's last byte included. -/
def storedBytes (fmt n : Nat) : Nat :=
  if fmt = fLG6 then n / 32 * 24 + (6 * (n % 32) + 7) / 8 else elemBytes fmt * n

/-- Pointer of a byte of the tile's own loft. -/
def ownLoft (off : Nat) : Word := wd (0x3FFFE * 2 ^ 46 + off % 2 ^ 46)

/-- The first byte that lies outside, among the rows of A, the mask area and the B run (step 7 of R280). -/
def boundsOf (abank arow pitch rowLen meta_ masks boff bLen : Nat) : Option Word :=
  let row (i : Nat) : Nat := (arow + i) * pitch
  match (List.range 64).find? (fun i => decide (0x20000 < row i + rowLen)) with
  | some i => some (ownLoft (abank * 0x20000 + max (row i) 0x20000))
  | none =>
    if masks ≠ 0 ∧ 0x20000 < meta_ + masks then some (ownLoft (abank * 0x20000 + max meta_ 0x20000))
    else if 0x10000 < boff + bLen then some (ownLoft (0x400000 + max boff 0x10000))
    else none

/-- Steps 3 to 8 of R280, in the tile `t`, for a partition: the cause and c.tval of the first failure. -/
def Tile.descFault (t : Tile) (part acc : Nat) (form : MForm) (lo hi : Word) : Option (Nat × Word) :=
  let sparse := decide (form.kept < 24)
  let k := descK lo
  let bank := descAbank lo
  let la := t.fmtAt bank
  let lb := t.fmtAt 32
  let fa := lfmtFmt la
  let fb := lfmtFmt lb
  let pitch := lfmtPitch la * 8
  let rowLen := storedBytes fa (k * form.kept / 24)
  if fld hi 63 17 ≠ 0 then some (cILLEGAL_OPERAND, hi)
  else if fld lo 21 16 ≠ 0 ∨ bank < 2 ∨ (sparse = true ∧ (k % 96 ≠ 0 ∨ 4032 < k)) then some (cILLEGAL_OPERAND, lo)
  else if sparse = false ∧ descMeta hi ≠ 0 then some (cILLEGAL_OPERAND, hi)
  else if t.lownAt (bank + 14) ≠ part then some (cRIGHTS, wd bank)
  else
    match (if lfmtLayout lb ≠ 0 ∨ lfmtLayout la ≠ form.layout ∨ pitch < rowLen then none else pairPath fa fb) with
    | none => some (cFORMAT_MISMATCH, wd bank)
    | some path =>
      if t.typeOf acc ≠ path.accType then some (cFORMAT_MISMATCH, wd (32 + acc))
      else if descBoff lo % (if fb = fLG6 then 24 else elemBytes fb) ≠ 0 then some (cALIGN, wd (descBoff lo))
      else if descMeta hi % 4 ≠ 0 then some (cALIGN, wd (descMeta hi))
      else
        match boundsOf bank (descArow lo) pitch rowLen (descMeta hi) (if sparse then 256 * (k / 24) else 0) (descBoff lo)
            (storedBytes fb k) with
        | some p => some (cLOFT_BOUNDS, p)
        | none =>
          if 32768 < delta (descExpver lo) (t.version acc) then some (cVERSION_RANGE, wd (descExpver lo).toNat) else none

/-! ### Issue (R280, R287, R289) -/

/-- The engines that a matrix command uses: the array, and for a drain the copy engine too (R280, R332). -/
def State.engines (s : State) (copy matrix : Bool) (k : Out) : Out :=
  if copy && s.myTile.copyDown then s.trap cENGINE_FAULT 0
  else if matrix && s.myTile.matrixDown then s.trap cENGINE_FAULT 1
  else k

/-- The command takes an entry of the 32-entry queue, or the context is BLOCKED. -/
def State.queueMatrix (s : State) (m : MCmd) : Out :=
  if 32 ≤ s.myTile.mq.length then s.stall
  else (({ s.bumpId with } : State).setMyTile { s.myTile with mq := s.myTile.mq ++ [m] }).complete s.me 4

/-- A command of the issuing context. -/
def State.matrixCmd (s : State) (form : MForm) (dst : Nat) : MCmd :=
  { id := s.freshId, form := form, dst := dst, part := s.partOf s.cur, tenant := s.me.tenant.toNat, ctx := s.cur }

def State.mma (s : State) (form : MForm) (d a : Nat) : Out :=
  s.reading (eKeys a) fun c => s.onMatrix d <|
    let lo := c.getE (2 * a)
    let hi := c.getE (2 * a + 1)
    if lo.p || hi.p then s.trap cPOISON_CONSUMED 0
    else s.engines false true <|
      match s.myTile.descFault (s.partOf s.cur) d form lo.v hi.v with
      | some (cause, tval) => s.trap cause tval
      | none => s.queueMatrix { s.matrixCmd form d with lo := lo.v, hi := hi.v, expver := descExpver lo.v }

def execMma (d a : BitVec 5) (s : State) : Out := s.checked (limMma d a) (wordMma d a) (s.mma .mma (gr d) (gr a))
def execMmaSp6 (d a : BitVec 5) (s : State) : Out :=
  s.checked (limMmaSp6 d a) (wordMmaSp6 d a) (s.mma .sp6 (gr d) (gr a))
def execMmaSp12 (d a : BitVec 5) (s : State) : Out :=
  s.checked (limMmaSp12 d a) (wordMmaSp12 d a) (s.mma .sp12 (gr d) (gr a))
def execMmaZ (d a : BitVec 5) (s : State) : Out := s.checked (limMmaZ d a) (wordMmaZ d a) (s.mma .z (gr d) (gr a))

/-- BLOCKED until the version is reached, or until T × 1024 reference cycles have passed. -/
def execAwait (d a : BitVec 5) (s : State) : Out :=
  s.checked (limAwait d) (wordAwait d a) <|
    s.reading [gr a] fun c => s.onMatrix (gr d) <|
      let x := c.getG (gr a)
      let v := BitVec.ofNat 16 (fld x.v 15 0)
      if x.p then s.trap cPOISON_CONSUMED 0
      else if reached v (s.myTile.version (gr d)) then s.complete c 4
      else
        let t := c.timeout.toNat
        .next (s.setMe (c.block (.await (gr d) v.toNat (if t = 0 then none else some (s.cycle.toNat + 1024 * t)))))

/-- A completion pointer, g0 for none, checked as an 8-byte reference that needs W and S. -/
def State.donePtr (s : State) (b : Nat) (k : State → Option Word → Out) : Out :=
  if b = 0 then k s none
  else
    let p := (s.me.getG b).v
    s.port p p 8 needWS fun s _ => k s (some p)

def State.drainCmd (s : State) (form : MForm) (d a b : Nat) : Out :=
  s.reading (b :: eKeys a) fun c => s.onMatrix d <|
    let lo := c.getE (2 * a)
    let hi := c.getE (2 * a + 1)
    if lo.p || hi.p || (c.getG b).p then s.trap cPOISON_CONSUMED 0
    else s.engines true true <|
      if hi.v ≠ 0 then s.trap cILLEGAL_OPERAND hi.v
      else if fld lo.v 5 0 ≠ 0 then s.trap cALIGN lo.v
      else s.donePtr b fun s done =>
        if form = .drainAdd ∧ s.myTile.typeOf d = .i32 then s.trap cFORMAT_MISMATCH (wd (32 + d))
        else if s.myTile.busyAcc d then s.stall
        else s.queueMatrix { s.matrixCmd form d with lo := lo.v, done := done }

def execDrain (d a b : BitVec 5) (s : State) : Out :=
  s.checked (limDrain d a) (wordDrain d a b) (s.drainCmd .drain (gr d) (gr a) (gr b))
def execDrainAdd (d a b : BitVec 5) (s : State) : Out :=
  s.checked (limDrainAdd d a) (wordDrainAdd d a b) (s.drainCmd .drainAdd (gr d) (gr a) (gr b))

def execAcopy (d a b : BitVec 5) (s : State) : Out :=
  s.checked (limAcopy d a) (wordAcopy d a b) <|
    s.reading [gr b] fun c => s.onMatrix (gr d) <|
      let x := c.getG (gr b)
      let v := BitVec.ofNat 16 (fld x.v 15 0)
      if x.p then s.trap cPOISON_CONSUMED 0
      else s.engines false true <|
        if s.myTile.typeOf (gr d) ≠ s.myTile.typeOf (gr a) then s.trap cFORMAT_MISMATCH (wd (32 + gr d))
        else if 32768 < delta v (s.myTile.version (gr d)) then s.trap cVERSION_RANGE (wd v.toNat)
        else s.queueMatrix { s.matrixCmd .acopy (gr d) with src := gr a, expver := v }

/-! ### What a command computes (R136 to R142, R283) -/

/-- A term of a chunk. `none`: the position forms no term. -/
inductive Term where
  | none | nan
  | inf (neg : Bool)
  | num (neg : Bool) (m : Nat) (e : Int)
  deriving DecidableEq, Repr

/-- A bf16 or fp32 source element: a subnormal is replaced by a zero of the same sign (R138). -/
def sourceF (fmt x : Nat) : FVal :=
  let p := if fmt = fBF16 then 7 else 23
  if x / 2 ^ p % 256 = 0 then .fin (sgn p x) 0 0 else decodeF p x

def timesF (a b : FVal) : Term :=
  match a, b with
  | .fin n1 m1 e1, .fin n2 m2 e2 => .num (n1 != n2) (m1 * m2) (e1 + e2)
  | .inf n1, .inf n2 => .inf (n1 != n2)
  | .inf n1, .fin n2 m2 _ => if m2 = 0 then .nan else .inf (n1 != n2)
  | .fin n1 m1 _, .inf n2 => if m1 = 0 then .nan else .inf (n1 != n2)
  | _, _ => .nan

/-- Product of log codes by one look-up of the summed exponents (R136); of integers, exact (R139). -/
def timesCode (a b : Val) : Term :=
  match a, b with
  | .nan _, _ => .nan
  | _, .nan _ => .nan
  | .log n1 x1, .log n2 x2 =>
    match logValue (n1 != n2) (x1 + x2) with
    | .num n m e => .num n m e
    | _ => .none
  | .num n1 m1 e1, .num n2 m2 e2 => .num (n1 != n2) (m1 * m2) (e1 + e2)
  | _, _ => .none

/-- A log code of zero forms no term, so a product of two of them is no number either. -/
def mulTerm (path : Path) (fa fb x y : Nat) : Term :=
  match path with
  | .ieee => timesF (sourceF fa x) (sourceF fb y)
  | .int => timesCode (decodeElem fa 0 x) (decodeElem fb 0 y)
  | .log =>
    match timesCode (decodeElem fa 0 x) (decodeElem fb 0 y) with
    | .num n m e => if m = 0 then .none else .num n m e
    | t => t

/-- Exponent of a term, and its integer count of 2^low. -/
def Term.low : Term → Int
  | .num _ _ e => e
  | _ => 0
def Term.count (low : Int) : Term → Int
  | .num n m e => scaled n m e low
  | _ => 0

def Term.special : Term → Bool
  | .nan => true
  | .inf _ => true
  | _ => false

/-- The array NaN (R142). -/
def arrayNan (tile k : Nat) : Nat := 0x7FC00000 + tile * 2 ^ 12 + k % 2 ^ 12

/-- The finite case of R137 and R138: accumulator plus exact chunk sum, rounded once. -/
def addChunk (ieee : Bool) (acc : Nat) (terms : List Term) (scale : Int) : Nat :=
  match decodeF 23 acc with
  | .fin neg m e =>
    let low := terms.foldl (fun (l : Int) t => min l (t.low + scale)) e
    let sum := terms.foldl (fun (v : Int) t => v + t.count (low - scale)) 0
    let zeroNeg := ieee && neg && m == 0 && terms.all (fun t => match t with
      | .num n m _ => n && m == 0
      | _ => false)
    roundInt 23 0 (scaled neg m e low + sum) low zeroNeg
  | _ => acc

/-- One chunk into the accumulator. `kmin`: the lowest position so far whose term is special; `first`: the chunk's first. -/
def stepChunk (path : Path) (tile : Nat) (scale : Int) (acc : Nat) (terms : List Term) (kmin : Option Nat) (first : Nat) :
    Nat :=
  if terms = [] then acc
  else if path = .int then
    intBits 32 (clampInt (-2 ^ 31) (2 ^ 31 - 1) (terms.foldl (fun (v : Int) t => v + t.count 0) (signed 32 acc)))
  else if isNanF 23 acc then acc
  else
    let pos := terms.contains (.inf false)
    let neg := terms.contains (.inf true)
    if terms.contains .nan || (pos && neg) then arrayNan tile (kmin.getD first)
    else if pos || neg then
      (if acc = infF 23 (!neg) then arrayNan tile first else infF 23 neg)
    else addChunk (decide (path = .ieee)) acc terms scale

def Path.chunk : Path → Nat
  | .ieee => 16
  | _ => 32

/-- What the array may read of a word of its tile's loft: what it holds, and what it has held since the command that occupies the array
started (R89). -/
def State.dataVersions (s : State) (w : Nat) : List GVal :=
  s.gval w :: (match (s.tileAt (dpaTile w)).inArray with
    | none => []
    | some m => (s.dataOld.filter (fun x => x.cmd == m.id && x.dpa == w)).reverse.map (fun x => x.val))

/-- The version that the element at `place` is read from, where there are several: a free choice (log 11). -/
def State.dataRead (s : State) (w place : Nat) : GVal :=
  let vs := s.dataVersions w
  vs.getD (if vs.length = 1 then 0 else Sys2Proof.Config.oldOperand s.free place % vs.length) {}

/-- `n` bits of an operand, `b` bits after the byte at `a`, with the poison of the words that hold them. -/
def State.operandBits (s : State) (a b n : Nat) : Nat × Bool :=
  match s.dataOld with
  | [] => (readBits s.mem a b n, s.bitsPoison a b n)
  | _ =>
    let lo := wordOf (a + b / 8)
    let hi := wordOf (a + (b + n - 1) / 8)
    let x := s.dataRead lo (8 * a + b)
    let y := if hi = lo then x else s.dataRead hi (8 * a + b)
    ((x.v.toNat + y.v.toNat * 2 ^ 64) / 2 ^ (8 * (a + b / 8 - lo) + b % 8) % 2 ^ n, x.p || y.p)

/-- An element of a run, with the poison of the words that hold it. -/
def State.elemAt (s : State) (base fmt j : Nat) : Nat × Bool := s.operandBits base (elemStart fmt j) (elemBits fmt)

/-- Set bits of a mask below position `j`. -/
def rankBelow (mask j : Nat) : Nat := ((List.range j).filter (fun i => mask / 2 ^ i % 2 == 1)).length

/-- The positions of a chunk in a row that are kept, with the stored elements (R87, R91). `row` is an address; `masks` are the row's
masks from group `g0` on. -/
def State.rowTerms (s : State) (fa kept row g0 : Nat) (masks : List Nat) (positions : List Nat) : List (Nat × Nat × Bool) :=
  if kept = 24 then positions.map (fun j => (j, s.elemAt row fa j))
  else
    positions.filterMap (fun j =>
      let mask := masks.getD (j / 24 - g0) 0
      let r := rankBelow mask (j % 24)
      if mask / 2 ^ (j % 24) % 2 = 1 ∧ r < kept then some (j, s.elemAt row fa (j / 24 * kept + r)) else none)

/-- A mask that R91 calls bad. -/
def maskBad (kept mask : Nat) : Bool := rankBelow mask 24 != kept || decide (2 ^ 24 ≤ mask)

/-- Lines that a command reads are opened first (R75, R94). -/
def State.openFor (s : State) (tile : Nat) (m : MCmd) (p len off : Nat) : State :=
  (wordsOf p len).foldl (fun s w =>
    s.openLine { id := 0, src := tile, slot := 512, op := .load 8 false, dpa := w, ptr := ownLoft (off + (w - wordOf p))
                 tenant := m.tenant, part := m.part }) s

/-- Chunks of a command, with the bank formats of its tile (R283). -/
def MCmd.chunks (m : MCmd) (t : Tile) : Nat :=
  match pairPath (lfmtFmt (t.fmtAt (descAbank m.lo))) (lfmtFmt (t.fmtAt 32)) with
  | none => 0
  | some path => (descK m.lo + path.chunk - 1) / path.chunk

/-- A command of a tile's matrix queue replaced, by its number; removed where `f` answers none. -/
def State.updMatrix (s : State) (tile id : Nat) (f : MCmd → Option MCmd) : State :=
  s.setTileAt tile { s.tileAt tile with mq := (s.tileAt tile).mq.filterMap (fun m => if m.id = id then f m else some m) }

/-- The command after its chunk, in which it has met the terms `terms` and the masks `masks` of its rows: the masks of a group that
reaches into the next chunk are kept, and the lowest special position of an element is that of the first chunk with one. -/
def MCmd.afterChunk (m : MCmd) (cut : Bool) (masks : Nat → List Nat) (terms : Nat → Nat → List (Nat × Term × Bool)) : MCmd :=
  let met := (List.range 4096).filterMap (fun e =>
    if m.marks.any (fun x => x.1 == e) then none
    else ((terms (e / 64) (e % 64)).find? (fun t => t.2.1.special)).map (fun t => (e, t.1)))
  { m with
    chunk := m.chunk + 1, left := m.left - 1, marks := m.marks ++ met
    masks := if cut then (List.range 64).map (fun i => (masks i).getLast?.getD 0) else []
    badMask := m.badMask || decide (m.form.kept < 24) &&
      (List.range 64).any (fun i => (masks i).any (fun x => maskBad m.form.kept x)) }

/-- The next chunk of a running command (MmaRun of R283): each of its operands is read once, as it stands or as it has stood since the
command started (R89, log 11), each mask with the first position of its group, and every element of the destination is updated once. -/
def State.takeChunk (s : State) (tile : Nat) (m : MCmd) : State :=
  let t := s.tileAt tile
  let la := t.fmtAt (descAbank m.lo)
  let lb := t.fmtAt 32
  let fa := lfmtFmt la
  let fb := lfmtFmt lb
  let kept := m.form.kept
  let pitch := lfmtPitch la * 8
  match pairPath fa fb with
  | none => s.updMatrix tile m.id (fun _ => some { m with chunk := m.chunk + 1, left := m.left - 1 })
  | some path =>
    let first := m.chunk * path.chunk
    let last := min (descK m.lo) (first + path.chunk)
    let positions := (List.range (last - first)).map (fun j => first + j)
    let g0 := first / 24
    let groups := (last + 23) / 24 - g0
    let bankOff := descAbank m.lo * 0x20000
    let rowOff (i : Nat) : Nat := bankOff + (descArow m.lo + i) * pitch
    let metaOff (i : Nat) : Nat := bankOff + descMeta m.hi + 4 * (i * (descK m.lo / 24) + g0)
    let sliceOff (n : Nat) : Nat := 0x400000 + n * 0x10000 + descBoff m.lo
    let opened (s : State) (off fmt lo hi : Nat) : State :=
      let b := elemStart fmt lo / 8
      s.openFor tile m (s.loftDpa tile (off + b)) (storedBytes fmt hi - b) (off + b)
    let s := (List.range 64).foldl (fun (s : State) i =>
      let s := if kept = 24 then opened s (rowOff i) fa first last
        else (opened s (rowOff i) fa (g0 * kept) ((g0 + groups) * kept)).openFor tile m (s.loftDpa tile (metaOff i)) (4 * groups) (metaOff i)
      opened s (sliceOff i) fb first last) s
    let masks : Array (List Nat) := ((List.range 64).map (fun i => (List.range groups).map (fun g =>
      match (if g = 0 then m.masks[i]? else none) with
      | some x => x
      | none => (s.operandBits (s.loftDpa tile (metaOff i) + 4 * g) 0 32).1))).toArray
    let cols : Array (Array (Nat × Bool)) := ((List.range 64).map (fun n =>
      (positions.map (fun j => s.elemAt (s.loftDpa tile (sliceOff n)) fb j)).toArray)).toArray
    let table : Array (Array (List (Nat × Term × Bool))) := ((List.range 64).map (fun i =>
      let row := s.rowTerms fa kept (s.loftDpa tile (rowOff i)) g0 (masks.getD i []) positions
      ((List.range 64).map (fun n => row.filterMap (fun x =>
        let y := (cols.getD n #[]).getD (x.1 - first) (0, false)
        match mulTerm path fa fb x.2.1 y.1 with
        | .none => none
        | tm => some (x.1, tm, x.2.2 || y.2)))).toArray)).toArray
    let terms (i n : Nat) : List (Nat × Term × Bool) := (table.getD i #[]).getD n []
    let m' := m.afterChunk (decide (kept < 24) && decide (last % 24 ≠ 0)) (fun i => masks.getD i []) terms
    let scale := if path = .int then 0 else lfmtScale la + lfmtScale lb
    let acc := (List.range 64).foldl (fun (t : Tile) i =>
      t.setRow m.dst i (fun n =>
        let old := t.lane m.dst i n
        let kmin := (m'.marks.find? (fun x => x.1 == i * 64 + n)).map (fun x => x.2)
        (el (stepChunk path tile scale old.1.toNat ((terms i n).map (fun x => x.2.1)) kmin first),
          old.2 || (terms i n).any (fun x => x.2.2)))) (s.tileAt tile)
    (s.bumpFree.setTileAt tile acc).updMatrix tile m.id (fun _ => some m')

/-- acopy reads its source as it stands (R289). -/
def State.runAcopy (s : State) (tile : Nat) (m : MCmd) : State :=
  let t := s.tileAt tile
  s.setTileAt tile (t.setAcc m.dst (fun row i => t.lane m.src row i))

/-- The counter of an accumulator is incremented (R281): commands of its old version that wait become stale (R282), and the
contexts whose version is reached go on (R286). -/
def State.bumpVersion (s : State) (tile a : Nat) : State :=
  let t := s.tileAt tile
  let old := t.version a
  let t := { t with
    ver := Map.set (fun _ => 0) t.ver a (old + 1)
    mq := t.mq.map (fun m =>
      if m.dst = a ∧ m.running = false ∧ m.ghost = false ∧ m.expver = old ∧ m.form ≠ .drain ∧ m.form ≠ .drainAdd then
        { m with stale := true } else m) }
  let s := s.setTileAt tile t
  let wakes (c : Ctx) : Bool :=
    match c.st with
    | .blocked (.await x v _) => x == a && reached (BitVec.ofNat 16 v) (old + 1)
    | _ => false
  let s := { s with
    ctxs := s.ctxs.map (fun (k, c) => if tileOf k = tile ∧ wakes c = true then (k, { c.advance 4 with st := .ready }) else (k, c)) }
  s.unstall

end Sys2Proof.Machine
end

