-- ==== Sys2Proof/Machine/Copy.lean ====
section
/-! DEFINITION. The copy engine: tensor shape records and their walks (R293 to R297), the copy instructions at issue (R292,
R298, R299), what one element does (R86, R288, R300 to R302), the end of a command (R303 to R306), cancel and query (R307,
R308). The engine's own steps are in EvEngine. -/

namespace Sys2Proof.Machine

open Sys2Proof

/-! ### Records (R293, R297) -/

/-- Word `j` of a record. -/
def recWord (r : List Word) (j : Nat) : Word := r.getD j 0
def recBase (r : List Word) : Word := recWord r 0
def recFmt (r : List Word) : Nat := fld (recWord r 1) 63 61
def recEsz (r : List Word) : Nat := fld (recWord r 1) 60 59
def recDims (r : List Word) : Nat := fld (recWord r 1) 58 56
def recWin (r : List Word) : Bool := bit (recWord r 1) 55
def recKh (r : List Word) : Nat := fld (recWord r 1) 54 51
def recKw (r : List Word) : Nat := fld (recWord r 1) 50 47
def recStr (r : List Word) : Nat := fld (recWord r 1) 46 44
def recPad (r : List Word) : Nat := fld (recWord r 1) 43 40
def recKlen (r : List Word) : Nat := fld (recWord r 1) 39 24
def recClip0 (r : List Word) : Nat := fld (recWord r 2) 63 48
def recClip1 (r : List Word) : Nat := fld (recWord r 2) 47 32
def recStride (r : List Word) (j : Nat) : Int := signed 32 (fld (recWord r (3 + j)) 63 32)
/-- Extent of a dimension; a dimension that the record has not got counts as 1. -/
def recSize (r : List Word) (j : Nat) : Nat := if j < recDims r then fld (recWord r (3 + j)) 15 0 else 1

/-- OW and OH of R295. -/
def recOw (r : List Word) : Nat := (recSize r 0 + 2 * recPad r - recKw r) / recStr r + 1
def recOh (r : List Word) : Nat := (recSize r 1 + 2 * recPad r - recKh r) / recStr r + 1

def recCount (r : List Word) : Nat :=
  if recWin r then recOh r * recOw r * recKlen r
  else recSize r 0 * recSize r 1 * recSize r 2 * recSize r 3 * recSize r 4

/-- Is BASE in a loft? -/
def recLoft (r : List Word) : Bool := loftIdx (ptrIdx (recBase r))

/-- R297 but for the .mc destination. -/
def recInvalid (r : List Word) (dst : Bool) : Bool :=
  let n := recDims r
  fld (recWord r 1) 23 0 != 0 || fld (recWord r 2) 31 0 != 0 || n == 0 || decide (5 < n)
    || (List.range 5).any (fun j =>
        if j < n then fld (recWord r (3 + j)) 31 16 != 0 || recSize r j == 0 else recWord r (3 + j) != 0)
    || (if recWin r then
          dst || n != 3 || recKh r == 0 || recKw r == 0 || recStr r == 0 || recClip0 r != 0 || recClip1 r != 0
            || decide (recKlen r < recSize r 2 * recKh r * recKw r)
            || decide (recSize r 0 + 2 * recPad r < recKw r) || decide (recSize r 1 + 2 * recPad r < recKh r)
        else fld (recWord r 1) 54 24 != 0)
    || (!recLoft r && (recFmt r == fLG6 || (recEsz r != 0 && recFmt r != fRAW)))

/-- Format register of the bank that holds a byte of a loft (R83). -/
def State.loftFmt (s : State) (tile off : Nat) : Word := (s.tileAt tile).fmtAt (bankOf off).1

/-- Format, scale and element size of the side at BASE (R294); size 0 stands for lg6. -/
def State.sideFmt (s : State) (tile : Nat) (r : List Word) : Nat × Int × Nat :=
  if recLoft r then
    let w := s.loftFmt (loftTile tile (ptrIdx (recBase r))) (ptrOff (recBase r))
    let f := lfmtFmt w
    (f, lfmtScale w, if f = fLG6 then 0 else elemBytes f)
  else (recFmt r, 0, if recFmt r = fRAW then 2 ^ recEsz r else elemBytes (recFmt r))

/-- In an lg6 bank, the offset of BASE in its bank is a multiple of 24 (R294). -/
def State.sideAligned (s : State) (tile : Nat) (r : List Word) : Bool :=
  (s.sideFmt tile r).2.2 != 0 || (bankOf (ptrOff (recBase r))).2.1 % 24 == 0

/-! ### Walks (R294 to R296) -/

/-- The element index Σ c_j × STRIDE_j of walk position `j`; none for a clipped or padding position. -/
def recIndex (r : List Word) (j : Nat) : Option Int :=
  if recWin r then
    let k := j % recKlen r
    let q := j / recKlen r
    let kk := recKh r * recKw r
    if recSize r 2 * kk ≤ k then none
    else
      let rr := k % kk
      let y : Int := (q / recOw r * recStr r + rr / recKw r : Nat) - (recPad r : Nat)
      let x : Int := (q % recOw r * recStr r + rr % recKw r : Nat) - (recPad r : Nat)
      if y < 0 ∨ (recSize r 1 : Nat) ≤ y ∨ x < 0 ∨ (recSize r 0 : Nat) ≤ x then none
      else some (x * recStride r 0 + y * recStride r 1 + (k / kk : Nat) * recStride r 2)
  else
    let c0 := j % recSize r 0
    let j1 := j / recSize r 0
    let c1 := j1 % recSize r 1
    let j2 := j1 / recSize r 1
    let c2 := j2 % recSize r 2
    let j3 := j2 / recSize r 2
    let c3 := j3 % recSize r 3
    let c4 := j3 / recSize r 3
    if (recClip0 r ≠ 0 ∧ recClip0 r ≤ c0) ∨ (recClip1 r ≠ 0 ∧ recClip1 r ≤ c1) then none
    else some ((c0 : Nat) * recStride r 0 + (c1 : Nat) * recStride r 1 + (c2 : Nat) * recStride r 2
      + (c3 : Nat) * recStride r 3 + (c4 : Nat) * recStride r 4)

/-- Where a drain puts element (i, n): dimension 0 is n, dimension 1 is i (R296). -/
def drainIndex (r : List Word) (i n : Nat) : Option Int :=
  if recSize r 0 ≤ n ∨ recSize r 1 ≤ i ∨ (recClip0 r ≠ 0 ∧ recClip0 r ≤ n) ∨ (recClip1 r ≠ 0 ∧ recClip1 r ≤ i) then none
  else some ((n : Nat) * recStride r 0 + (i : Nat) * recStride r 1)

/-- OFF plus a signed number of bytes modulo 2^46. -/
def paddInt (p : Word) (n : Int) : Word := padd p (BitVec.ofInt 64 n)

/-- Pointer, starting bit and bits of an element. -/
def elemPlace (base : Word) (size : Nat) (e : Int) : Word × Nat × Nat :=
  if size = 0 then
    let b := 192 * (e / 32) + 6 * (e % 32)
    (paddInt base (b / 8), (b % 8).toNat, 6)
  else (paddInt base (size * e), 0, 8 * size)

/-- Code of zero of a format (R130). -/
def zeroCode (fmt : Nat) : Nat := if fmt = fLG8 then 0x40 else if fmt = fLG6 then 0x10 else 0

/-! ### Issue (R298, R299) -/

/-- Entries that count against the queue. -/
def CCmd.holds (c : CCmd) : Bool :=
  match c.st with
  | .filled => false
  | _ => true

def State.copyRoom (s : State) : Bool :=
  let q := s.myTile.cq.filter (fun c => c.holds && c.form != .drain && c.form != .drainAdd)
  decide (q.length < 32) && decide ((q.filter (fun c => c.part == s.partOf s.cur)).length < 24)

def State.copyCmd (s : State) (form : CForm) (lo hi : GVal) (done : Option Word) : CCmd :=
  { id := s.freshId, form := form, lo := lo, hi := hi, done := done, ctx := s.cur, part := s.partOf s.cur
    tenant := s.me.tenant.toNat, user := !houseSlot s.cur }

/-- The command takes an entry, or the context is BLOCKED (R299). -/
def State.queueCopy (s : State) (c : CCmd) : Out :=
  if s.copyRoom then (s.bumpId.setMyTile { s.myTile with cq := s.myTile.cq ++ [c] }).complete s.me 4 else s.stall

/-- Steps 1 to 4 for a record form. `extra`: other consumed registers; `mask`: an .mc form. -/
def State.copyIssue (s : State) (a b : Nat) (extraG extraE : List Nat) (mask matrix : Bool) (srcRecord : Bool)
    (k : State → Option Word → Out) : Out :=
  let maskKeys := if mask && decide (a + 1 < 8) then eKeys (a + 1) else []
  s.reading (eKeys a ++ maskKeys ++ [b] ++ extraG ++ extraE) fun c =>
    let lo := c.getE (2 * a)
    let hi := c.getE (2 * a + 1)
    let consumed := (if srcRecord then [lo] else []) ++ [hi, c.getG b] ++ extraG.map c.getG
      ++ (maskKeys ++ extraE).map (fun key => c.getE (key - 32))
    if poisonOf consumed then s.trap cPOISON_CONSUMED 0
    else s.engines true matrix <|
      if mask = true ∧ a % 2 = 1 then s.trap cILLEGAL_OPERAND (wd a)
      else if mask = true ∧ fld (c.getE (2 * a + 3)).v 63 4 ≠ 0 then s.trap cILLEGAL_OPERAND (c.getE (2 * a + 3)).v
      else if srcRecord = true ∧ fld lo.v 5 0 ≠ 0 then s.trap cALIGN lo.v
      else if fld hi.v 5 0 ≠ 0 then s.trap cALIGN hi.v
      else s.donePtr b k

/-- A form with two records, or cpy.fill with its pattern. -/
def State.copyPlain (s : State) (form : CForm) (a b : Nat) : Out :=
  s.copyIssue a b [] [] (decide (form = .mc)) false (decide (form ≠ .fill)) fun s done =>
    let c := s.copyCmd form (s.me.getE (2 * a)) (s.me.getE (2 * a + 1)) done
    s.queueCopy (if form = .mc then { c with mask := (s.me.getE (2 * a + 2)).v, tower := fld (s.me.getE (2 * a + 3)).v 3 0 } else c)

/-- f selects the follow-on form (R292). -/
def followForm (f : Nat) : MForm := if f = 0 then .mma else if f = 1 then .sp6 else if f = 2 then .sp12 else .z

/-- An .mm form: R280 is checked for its follow-on, which takes a matrix queue entry (R298, R299). -/
def State.copyMm (s : State) (mask : Bool) (d a b : Nat) (imm : BitVec 6) : Out :=
  let acc := imm.toNat % 16
  let form := followForm (imm.toNat / 16)
  s.copyIssue a b [] (eKeys d) mask true true fun s done =>
    s.onMatrix acc <|
      let lo := (s.me.getE (2 * d)).v
      let hi := (s.me.getE (2 * d + 1)).v
      match s.myTile.descFault (s.partOf s.cur) acc form lo hi with
      | some (cause, tval) => s.trap cause tval
      | none =>
        let c := s.copyCmd (if mask then .mmMc else .mm) (s.me.getE (2 * a)) (s.me.getE (2 * a + 1)) done
        let maskW := (s.me.getE (2 * a + 2)).v
        let tower := fld (s.me.getE (2 * a + 3)).v 3 0
        let own := !mask || (tileOf s.cur / 64 == tower && maskW.getLsbD (tileOf s.cur % 64))
        let m := { s.matrixCmd form acc with
          id := s.freshId + 1, lo := lo, hi := hi, expver := descExpver lo, waits := true, ghost := !own }
        let c := { c with
          mask := if mask then maskW else 0
          tower := if mask then tower else 0
          follow := some (s.freshId + 1), facc := acc, fdesc := (lo, hi), fform := form }
        if s.copyRoom && decide (s.myTile.mq.length < 32) then
          ({ s with fresh := s.fresh + 2 }.setMyTile
            { s.myTile with cq := s.myTile.cq ++ [c], mq := s.myTile.mq ++ [m] }).complete s.me 4
        else s.stall

def execCpy (a b : BitVec 5) (s : State) : Out := s.checked (limCpy a) (wordCpy a b) (s.copyPlain .cpy (gr a) (gr b))
def execCpyMm (d a b : BitVec 5) (imm : BitVec 6) (s : State) : Out :=
  s.checked (limCpyMm d a) (wordCpyMm d a b imm) (s.copyMm false (gr d) (gr a) (gr b) imm)
def execCpyMc (a b : BitVec 5) (s : State) : Out :=
  s.checked (limCpyMc a) (wordCpyMc a b) (s.copyPlain .mc (gr a) (gr b))
def execCpyMmMc (d a b : BitVec 5) (imm : BitVec 6) (s : State) : Out :=
  s.checked (limCpyMmMc d a) (wordCpyMmMc d a b imm) (s.copyMm true (gr d) (gr a) (gr b) imm)
def execCpyAdd (a b : BitVec 5) (s : State) : Out :=
  s.checked (limCpyAdd a) (wordCpyAdd a b) (s.copyPlain .add (gr a) (gr b))
def execCpyFill (a b : BitVec 5) (s : State) : Out :=
  s.checked (limCpyFill a) (wordCpyFill a b) (s.copyPlain .fill (gr a) (gr b))
def execCpyKeep (a b : BitVec 5) (s : State) : Out :=
  s.checked (limCpyKeep a) (wordCpyKeep a b) (s.copyPlain .keep (gr a) (gr b))

/-- The target word is checked as send checks it (R244). -/
def execCpySend (d a b : BitVec 5) (s : State) : Out :=
  s.checked (limCpySend a) (wordCpySend d a b) <|
    s.copyIssue (gr a) (gr b) [gr d] [] false false true fun s done =>
      let t := (s.me.getG (gr d)).v
      s.targetWord t false <|
        s.queueCopy { s.copyCmd .send (s.me.getE (2 * gr a)) (s.me.getE (2 * gr a + 1)) done with target := t }

/-! ### The end of a command (R303 to R306) -/

/-- Status word of R304. -/
def copyStatus (e cause index : Nat) : Word := wd (e * 2 ^ 62 + cause % 256 * 2 ^ 48 + index % 2 ^ 48)
def allOnes48 : Nat := 2 ^ 48 - 1

/-- What stops an element or a fill. -/
inductive Stop where
  | cause (n : Nat) (ptr : Word)
  | page (f : PortFault) (queued : Bool)
  | wait                       -- the word lies in a tile at G (R23)
  deriving DecidableEq, Repr

/-- The checks of one reference of a unit (R32). A malformed table is recorded by the caller's `.malformed`. -/
def State.reach (s : State) (tile part tenant : Nat) (ptr : Word) (width : Nat) (need : Need) : Except Stop Target :=
  let f : PortFault := { part := part, idx := ptrIdx ptr, page := ptrOff ptr / 4096, write := false, ptr := ptr }
  match s.unitXlate tile part tenant ptr width need with
  | .to t => .ok t
  | .trap c => .error (.cause c ptr)
  | .malformed _ => .error (.cause cBUFFER_INVALID ptr)
  | .request w => .error (.page { f with write := w } true)
  | .migrate => .error (.page f false)

/-- A page that a unit needs is requested (R54). -/
def State.wantPage (s : State) (tile : Nat) (f : PortFault) (queued : Bool) : State :=
  if queued then s.setTileAt tile ((s.tileAt tile).addFault f) else s

/-- The page that a unit of the tile waits for. -/
def PortFault.held (f : PortFault) (tile : Nat) : Option Hold := some { tile := tile, part := f.part, idx := f.idx, page := f.page }
def Hold.waiting (h : Option Hold) : Bool := h.any (fun x => decide (x.st = .waits))
def Hold.lost (h : Option Hold) : Bool := h.any (fun x => decide (x.st = .failed))
/-- Has the request for the page of the pointer failed? -/
def Hold.lostAt (h : Option Hold) (p : Word) : Bool :=
  h.any (fun x => decide (x.st = .failed) && x.idx == ptrIdx p && x.page == ptrOff p / 4096)

/-- A word of a table is read: its line is opened under the key of the tenant that the port serves (R30, R122). -/
def State.openTable (s : State) (tile part ra : Nat) : State :=
  let k := btabRegion (s.btabOf part)
  if s.regionOk k then
    s.openLine
      { id := 0, src := tile, slot := 512, op := .load 8 false, dpa := s.homeOf k ra, ptr := 0, tenant := s.tenantIn tile part
        part := part }
  else s

/-- What a port has not cached is read for a unit, the entry and then the tables of its walk, and enters the caches (R32, R35, R47). A
function's own references pass no tile's caches (log 10). A translation that is there becomes the most recently used (R47). -/
def State.portRead (s : State) (tile part : Nat) (ptr : Word) : State :=
  match s.xlateFront tile part ptr 1 with
  | .error _ => s
  | .ok idx =>
    let off := ptrOff ptr
    let s :=
      if (s.tileAt tile).bcache.any (fun c => c.part == part && c.idx == idx) then s
      else
        let s := s.openTable tile part (btabBase (s.btabOf part) + 32 * idx)
        if 16 < part then s
        else
          let t := s.tileAt tile
          let b : BCached := { part := part, idx := idx, ent := s.entryAt part idx }
          (s.setTileAt tile { t with bcache := bcacheInsert t.bcache b s.free }).bumpFree
    let e := s.portEntry tile part idx
    let tk := btabRegion (s.btabOf part)
    if !e.paged || s.entryBad e || !s.tableOk tk e.base 0 || decide (e.size ≤ off) then s
    else
      match (s.tileAt tile).pcache.find? (fun c => c.covers part idx e.gen off) with
      | some c =>
        let t := s.tileAt tile
        s.setTileAt tile { t with pcache := touch t.pcache c }
      | none =>
      let s := (s.walkPath tk e off 4 e.base).foldl (fun (s : State) ra => s.openTable tile part ra) s
      let (lvl, pte) := s.walkEnd tk e off
      match s.pteStep tk e.region lvl pte with
      | .leaf addr nw =>
        if 16 < part then s
        else
          let t := s.tileAt tile
          let c : PCached :=
            { part := part, idx := idx, gen := e.gen, level := lvl, pn := pageNumber off lvl, addr := addr, nw := nw }
          s.setTileAt tile { t with pcache := pcacheInsert t.pcache c }
      | _ => s

/-- A malformed table entry met by a unit is recorded (R45). -/
def State.noteTable (s : State) (tile part tenant : Nat) (ptr : Word) : State :=
  match s.unitXlate tile part tenant ptr 1 {} with
  | .malformed pte => s.post (badTable tenant part none tile ptr pte)
  | _ => s

/-- The same for a failure of the checks. -/
def State.noteStop (s : State) (tile part tenant : Nat) (x : Stop) : State :=
  match x with
  | .cause n ptr => if n = cBUFFER_INVALID then s.noteTable tile part tenant ptr else s
  | _ => s

/-- A completion word set full by a unit, at its home; the cause where the home cannot take it. -/
def State.tryFill (s : State) (d : Nat) (tenant part : Nat) (ptr : Word) (v : Word) (rank : Option Nat := none) : Option Nat × State :=
  match s.homeStop d true with
  | some cause => (some cause, s)
  | none =>
    let s := s.openUnit d tenant part ptr true rank
    if s.quarantined d then (some cSEAL_INTEGRITY, s) else (none, s.putFull d 8 ⟨v, false⟩)

/-- The same, where it is left as it is. -/
def State.fillDone (s : State) (d : Nat) (tenant part : Nat) (ptr : Word) (v : Word) : State := (s.tryFill d tenant part ptr v).2

/-- A command of a tile's copy queue replaced, by its number; removed where `f` answers none. -/
def State.updCopy (s : State) (tile id : Nat) (f : CCmd → Option CCmd) : State :=
  s.setTileAt tile { s.tileAt tile with cq := (s.tileAt tile).cq.filterMap (fun c => if c.id = id then f c else some c) }

/-- A ghost entry is released; a follow-on that a fault or a cancel leaves behind acts as a stale command (R303). -/
def State.loseFollow (s : State) (tile : Nat) (c : CCmd) (cause : Nat) : State :=
  match c.follow with
  | none => s
  | some id =>
    s.updMatrix tile id (fun m =>
      if m.ghost then none
      else if m.waits then some { m with waits := false, stale := true, staleCode := cENGINE_FAULT, lost := cause }
      else some m)

/-- The command ends: its fate is fixed, and the fill of its completion word follows (R304). -/
def State.endCopy (s : State) (tile : Nat) (c : CCmd) (status ptr : Word) : State :=
  let s := s.updCopy tile c.id (fun c => some { c with st := .ending status ptr, page := none, rewalk := none })
  if fld status 63 62 = 0 then s else s.loseFollow tile c (fld status 55 48)

/-! ### Cancel and query (R307, R308) -/

/-- The commands that g[b] names; for b = 0 those of the issuing context. -/
def State.namedCopies (s : State) (b : Nat) (mine : CCmd → Bool) : List CCmd :=
  s.myTile.cq.filter (fun c =>
    (match c.st with
      | .queued => true
      | .running => true
      | .suspended => true
      | _ => false)
    && c.part == s.partOf s.cur
    && (if b = 0 then mine c else c.done == some (s.me.getG b).v))

/-- Each named command stops where it stands: between two elements nothing is being performed (log 12). -/
def State.cancelCopies (s : State) (named : List CCmd) : State :=
  named.foldl (fun s x => s.endCopy (tileOf s.cur) x (copyStatus 2 0 x.pos) 0) s

/-- The checks of R298 that bear on cancel and query: g[b], the engine, the completion pointer. -/
def State.copyNamed (s : State) (b : Nat) (k : State → Out) : Out :=
  s.reading [b] fun c =>
    if (c.getG b).p then s.trap cPOISON_CONSUMED 0
    else s.engines true false <| s.donePtr b fun s _ => k s

def execCpyCancel (d b : BitVec 5) (s : State) : Out :=
  s.copyNamed (gr b) fun s =>
    let named := s.namedCopies (gr b) (fun x => x.ctx == s.cur)
    (s.cancelCopies named).complete (s.me.setG (gr d) ⟨wd named.length, false⟩) 4

def copyCode : CState → Nat
  | .queued => 1
  | .running => 2
  | _ => 3

/-- With b = 0 only the queued and the running count; with a pointer, the oldest of its commands is described (R308). -/
def State.copyView (s : State) (b : Nat) : Word :=
  let named := s.namedCopies b (fun c => decide (c.st ≠ .suspended))
  if b = 0 then wd named.length
  else
    match named with
    | [] => 0
    | x :: _ => wd (copyCode x.st * 2 ^ 62 + x.pos % 2 ^ 48)

def execCpyQuery (d b : BitVec 5) (s : State) : Out :=
  s.copyNamed (gr b) fun s => s.complete (s.me.setG (gr d) ⟨s.copyView (gr b), false⟩) 4

/-! ### One element (R300 to R302, R288) -/

/-- Element and record of one side at an element: its DPA, bits, format and scale. -/
structure Place where
  ptr : Word
  dpa : Nat
  dpa2 : Nat             -- the second byte of an lg6 element
  win : Target
  bit0 : Nat
  bits : Nat
  fmt : Nat
  scale : Int
  deriving DecidableEq, Repr

/-- The place of element index `e` of a record, as tile `tile` reaches it: R32, then the format of its bank (R294). Tile `by_` issues the
command: its bank at BASE gives the element size of the whole walk, and so the offset in every tile (R302). An lg6 element whose bits lie
in two banks has the format of the bank of its first byte: the spec does not say which (DESIGN CHOICE, log 43). -/
def State.place (s : State) (by_ tile : Nat) (c : CCmd) (r : List Word) (e : Int) (need : Need) : Except Stop Place :=
  let (fmt, scale, size) := s.sideFmt by_ r
  let (p, b0, bits) := elemPlace (recBase r) size e
  match s.reach tile c.part c.tenant p (if size = 0 then 1 else size) need with
  | .error x => .error x
  | .ok t =>
    if recLoft r then
      let w := s.loftFmt (loftTile tile (ptrIdx p)) (ptrOff p)
      let f := lfmtFmt w
      let sz := if f = fLG6 then 0 else elemBytes f
      if sz ≠ size then .error (.cause cFORMAT_MISMATCH p)
      else if size = 0 ∧ 8 < b0 + bits then
        match s.reach tile c.part c.tenant (padd p 1) 1 need with
        | .error x => .error x
        | .ok t2 => .ok ⟨p, t.dpa, t2.dpa, t, b0, bits, f, lfmtScale w⟩
      else .ok ⟨p, t.dpa, t.dpa, t, b0, bits, f, lfmtScale w⟩
    else .ok ⟨p, t.dpa, t.dpa, t, b0, bits, fmt, scale⟩

/-- Stored bits of a place. -/
def State.placeBits (s : State) (x : Place) : Nat × Bool :=
  if x.dpa2 = x.dpa then
    (readBytes s.mem x.dpa ((x.bit0 + x.bits + 7) / 8) / 2 ^ x.bit0 % 2 ^ x.bits, (s.tagAt x.dpa).poison)
  else
    (((readByte s.mem x.dpa).toNat + 256 * (readByte s.mem x.dpa2).toNat) / 2 ^ x.bit0 % 2 ^ x.bits,
      (s.tagAt x.dpa).poison || (s.tagAt x.dpa2).poison)

/-- Bytes that an engine writes, and the word's poison with them (R328); the word is filled (R62). -/
def State.putEngine (s : State) (d width : Nat) (v : GVal) : State :=
  let s' := (s.poke d width v.v.toNat).setTag d (fun t => { t with poison := v.p })
  if (s.tagAt d).full then s'.wroteEvent d else (s'.fillEvent d).wake d

/-- The bits written; every word written is filled (R62). -/
def State.fillBits (s : State) (x : Place) (v : Nat) (p : Bool) : State :=
  if x.bits % 8 = 0 then s.putEngine x.dpa (x.bits / 8) ⟨wd v, p⟩
  else
    let old := (readByte s.mem x.dpa).toNat + 256 * (if x.dpa2 = x.dpa then 0 else (readByte s.mem x.dpa2).toNat)
    let new := old - old / 2 ^ x.bit0 % 2 ^ x.bits * 2 ^ x.bit0 + v % 2 ^ x.bits * 2 ^ x.bit0
    if x.dpa2 = x.dpa then s.putEngine x.dpa 1 ⟨wd (new % 256), p⟩
    else if x.dpa2 = x.dpa + 1 ∧ wordOf x.dpa2 = wordOf x.dpa then s.putEngine x.dpa 2 ⟨wd (new % 65536), p⟩
    else (s.putEngine x.dpa 1 ⟨wd (new % 256), p⟩).putEngine x.dpa2 1 ⟨wd (new / 256 % 256), p⟩

/-- Conversion between two formats; raw on either side copies the bytes (R86). -/
def convert (m : Moved) (fmt : Nat) (scale : Int) : Nat :=
  if m.fmt = fRAW ∨ fmt = fRAW then m.v else encodeElem fmt scale (decodeElem m.fmt m.scale m.v)

/-- The lowest selected tile comes first (R302). -/
def CCmd.targets (c : CCmd) (tile : Nat) : List Nat :=
  if c.form = .mc ∨ c.form = .mmMc then
    ((List.range 64).filter (fun i => c.mask.getLsbD i)).map (fun i => c.tower * 64 + i)
  else [tile]

/-- Rights at the destination (R288, R301). -/
def CForm.need : CForm → Need
  | .add => { w := true, a := true }
  | .drainAdd => { w := true, a := true }
  | .keep => { w := true, s := true }
  | _ => { w := true }

/-- What the port has not cached of the element's buffer is read (R32). -/
def State.portElem (s : State) (tile : Nat) (c : CCmd) (r : List Word) (e : Int) : State :=
  let (_, _, size) := s.sideFmt tile r
  let (p, b0, bits) := elemPlace (recBase r) size e
  let s := s.portRead tile c.part p
  if size = 0 ∧ 8 < b0 + bits then s.portRead tile c.part (padd p 1) else s

/-- The source element of walk position `pos` (R294, R295, R288). -/
def State.sourceElem (s : State) (tile : Nat) (c : CCmd) : Except Stop Moved × State :=
  match c.form with
  | .fill => (.ok ⟨c.lo.v.toNat, c.lo.p, fRAW, 0⟩, s)
  | .drain | .drainAdd =>
    let lanes := c.atype.lanes
    let i := c.pos / lanes
    let l := c.pos % lanes
    let x := c.rows.getD (i * 64 + (if lanes = 128 then l / 2 else l)) (0, false)
    let v := if lanes = 128 then (if l % 2 = 0 then lo16 x.1.toNat else hi16 x.1.toNat) else x.1.toNat
    (.ok ⟨v, x.2, c.atype.fmt, 0⟩, s)
  | _ =>
    let (fmt, scale, _) := s.sideFmt tile c.src
    match recIndex c.src c.pos with
    | none => (.ok ⟨zeroCode fmt, false, fmt, scale⟩, s)
    | some e =>
      let s := s.portElem tile c c.src e
      match s.place tile tile c c.src e needR with
      | .error x => (.error x, s)
      | .ok x =>
        match s.homeStop x.dpa false with
        | some cause => (.error (.cause cause x.ptr), s)
        | none =>
          let rank := some (unitRank tile)
          if s.gated x.dpa rank then (.error .wait, s)
          else
          let s := (s.openUnit x.dpa c.tenant c.part x.ptr false rank).openUnit x.dpa2 c.tenant c.part x.ptr false rank
          if s.quarantined x.dpa then
            (.ok ⟨(Sys2Proof.Config.freeWord s.free).toNat % 2 ^ x.bits, true, x.fmt, x.scale⟩, s.bumpFree)
          else
            let (v, p) := s.placeBits x
            (.ok ⟨v, p, x.fmt, x.scale⟩, s)

/-- Destination index of walk position `pos`. -/
def CCmd.destIndex (c : CCmd) : Option Int :=
  match c.form with
  | .drain | .drainAdd => drainIndex c.dst (c.pos / c.atype.lanes) (c.pos % c.atype.lanes)
  | _ => recIndex c.dst c.pos

/-- Does a poisoned element fail before its line is open (R301)? cpy.keep may leave its word as it is. -/
def CForm.failsEarly (f : CForm) (p : Bool) : Bool := p && decide (f ≠ .keep)

/-- What the home finds: a quarantined word that the write would change, or poison that would go to a host tenant (R301, R329). -/
def State.elemStop (s : State) (c : CCmd) (x : Place) (m : Moved) : Option Nat :=
  let keeps := decide (c.form = .keep) && s.fullAt x.dpa
  let poison :=
    match c.form with
    | .add => m.p || (s.placeBits x).2
    | .drainAdd => m.p || (s.placeBits x).2
    | _ => m.p
  if keeps then none
  else if s.quarantined x.dpa || s.quarantined x.dpa2 then some cSEAL_INTEGRITY
  else if poison && s.hostShared x.win then some cPOISON_CONSUMED
  else none

/-- One write at its home, as one event, its line being open (R300, R301). -/
def State.writeElem (s : State) (c : CCmd) (x : Place) (m : Moved) : State :=
  match c.form with
  | .add =>
    let old := s.placeBits x
    s.fillBits x (addF 23 0 old.1 (convert m fFP32 x.scale)) (old.2 || m.p)
  | .drainAdd =>
    let old := s.placeBits x
    s.fillBits x (addF 23 0 old.1 (if m.fmt = fBF16 then widenBf16 m.v else m.v)) (old.2 || m.p)
  | .keep =>
    if s.fullAt x.dpa then s
    else ((s.putValue x.dpa 8 ⟨wd m.v, m.p⟩).fillEvent x.dpa).wake x.dpa
  | .fill => s.fillBits x (m.v % 2 ^ x.bits) m.p
  | _ => s.fillBits x (convert m x.fmt x.scale % 2 ^ x.bits) m.p

/-- Does the command write to the lofts of the tiles that it selects (R302)? -/
def CCmd.isMc (c : CCmd) : Bool := decide (c.form = .mc) || decide (c.form = .mmMc)

/-- Would an element be copied raw between two sizes, in the bank of a selected tile (R86, R297)? -/
def State.sizesDiffer (s : State) (by_ : Nat) (c : CCmd) (x : Place) (m : Moved) : Bool :=
  c.isMc && (m.fmt == fRAW || x.fmt == fRAW) && decide (8 * (s.sideFmt by_ c.src).2.2 ≠ x.bits)

/-- The place of an element of tile `by_`'s command in tile `t`, its checks made but for those of an open line. -/
def State.destPlace (s : State) (by_ t : Nat) (c : CCmd) (e : Int) (m : Moved) : Except Stop Place :=
  match s.place by_ t c c.dst e c.form.need with
  | .error x => .error x
  | .ok x =>
    if s.sizesDiffer by_ c x m then .error (.cause cFORMAT_MISMATCH x.ptr)
    else
    match s.homeStop x.dpa (decide (c.form ≠ .keep)) with
    | some cause => .error (.cause cause x.ptr)
    | none => if c.form.failsEarly m.p && s.hostShared x.win then .error (.cause cPOISON_CONSUMED x.ptr) else .ok x

/-- Where an element goes: the places written now, the tiles skipped because they are not running, and those that take it later, being
at G (R302), or having an earlier element to take (R300). -/
structure Dests where
  now : List Place := []
  skipped : List Nat := []
  later : List Nat := []
  deriving DecidableEq, Repr

/-- Places of an element in the tiles it goes to. A home that has an earlier write of the command to perform takes this one after it. A
bank that has admitted a requester behind the engine in this cycle takes none (R65). -/
def State.destPlaces (s : State) (tile : Nat) (c : CCmd) (e : Int) (m : Moved) (d : Dests) : List Nat → Except Stop Dests
  | [] => .ok d
  | t :: ts =>
    if c.isMc && !(s.tileAt t).running then s.destPlaces tile c e m { d with skipped := d.skipped ++ [t] } ts
    else
      match s.destPlace tile (if c.isMc then t else tile) c e m with
      | .error x => .error x
      | .ok x =>
        let home := if c.isMc then t else dpaTile x.dpa
        if (c.isMc && s.homeWaits x.dpa) || c.late.any (fun l => l.tile == home) then
          s.destPlaces tile c e m { d with later := d.later ++ [home] } ts
        else if s.gated x.dpa (some (unitRank tile)) then .error .wait
        else s.destPlaces tile c e m { d with now := d.now ++ [x] } ts

/-- The banks of an element's places let the engine in, and their lines are opened. A fetch-and-add reads its word (R301). -/
def State.openPlaces (s : State) (tile : Nat) (c : CCmd) (xs : List Place) : State :=
  let w := decide (c.form ≠ .add) && decide (c.form ≠ .drainAdd)
  let rank := some (unitRank tile)
  xs.foldl (fun s x => (s.openUnit x.dpa c.tenant c.part x.ptr w rank).openUnit x.dpa2 c.tenant c.part x.ptr w rank) s

/-- The writes of one element, or the failure that a home finds. -/
def State.writePlaces (s : State) (tile : Nat) (c : CCmd) (m : Moved) (xs : List Place) : Except Stop Unit × State :=
  let s := s.openPlaces tile c xs
  match xs.find? (fun x => (s.elemStop c x m).isSome) with
  | some x => (.error (.cause ((s.elemStop c x m).getD cSEAL_INTEGRITY) x.ptr), s)
  | none => (.ok (), xs.foldl (fun s x => s.writeElem c x m) s)

/-- An element has been sent to all its places. -/
def CCmd.sent (c : CCmd) (m : Moved) (d : Dests) : CCmd :=
  { c with
    pos := c.pos + 1, rewalk := none
    skipped := c.skipped ++ d.skipped.filter (fun t => !c.skipped.contains t)
    late := c.late ++ d.later.map (fun t => ⟨t, c.pos, m⟩) }

/-- Every write of the element is left for later. -/
def Dests.ahead (d : Dests) : Dests :=
  { d with now := [], later := d.later ++ d.now.map (fun x => dpaTile x.dpa) }

/-- What an element leads to: performed, or stopped. `put`: its writes are performed now. -/
def State.copyElem (s : State) (tile : Nat) (c : CCmd) (put : Bool := true) : Except Stop Unit × State :=
  match s.sourceElem tile c with
  | (.error x, s) => (.error x, s)
  | (.ok m, s) =>
    match c.destIndex with
    | none => (.ok (), s.updCopy tile c.id (fun c => some (c.sent m {})))
    | some e =>
      let s := if c.isMc then s else s.portElem tile c c.dst e
      match s.destPlaces tile c e m {} (c.targets tile) with
      | .error x => (.error x, s)
      | .ok d =>
        let d := if put then d else d.ahead
        match s.writePlaces tile c m d.now with
        | (.error x, s) => (.error x, s)
        | (.ok _, s) => (.ok (), s.updCopy tile c.id (fun c => some (c.sent m d)))

/-! ### Writes that are performed later (R300, R302) -/

/-- Can the write be performed now? One of an .mc command waits for its tile to be clocked again, or no longer running. -/
def State.lateReady (s : State) (tile : Nat) (c : CCmd) (l : Late) : Bool :=
  let t := s.tileAt l.tile
  if c.isMc && !t.running then true
  else
    match recIndex c.dst l.pos with
    | none => true
    | some e =>
      match s.destPlace tile (if c.isMc then l.tile else tile) c e l.m with
      | .ok x => !s.gated x.dpa (some (unitRank tile))
      | .error (.cause _ _) => true
      | .error _ => false

/-- The first late write that can be performed; those to one home stay in walk order. `home` names the home. -/
def State.lateDue (s : State) (tile : Nat) (c : CCmd) (home : Option Nat := none) : Option Late :=
  (c.late.zipIdx.find? (fun (l, j) =>
    (home == none || home == some l.tile) && !(c.late.take j).any (fun x => x.tile == l.tile) && s.lateReady tile c l)).map (fun x => x.1)

/-- The lowest failing element is the one that the status names (R305). -/
def CCmd.failAt (c : CCmd) (cause pos : Nat) (ptr : Word) : CCmd :=
  match c.st with
  | .ending status _ =>
    if fld status 63 62 = 1 ∧ fld status 47 0 ≤ pos then c else { c with st := .ending (copyStatus 1 cause pos) ptr }
  | _ => { c with st := .ending (copyStatus 1 cause pos) ptr, page := none }

/-- The late write is performed; a tile of an .mc command that is not running any more is skipped. -/
def State.lateWrite (s : State) (tile : Nat) (c : CCmd) (l : Late) : State :=
  if !c.isMc || (s.tileAt l.tile).running then
    let c' := { c with late := c.late.erase l }
    let s := s.updCopy tile c.id (fun _ => some c')
    let failed (s : State) (cause : Nat) (ptr : Word) : State :=
      (s.updCopy tile c.id (fun c => some (c.failAt cause l.pos ptr))).loseFollow tile c' cause
    match recIndex c.dst l.pos with
    | none => s
    | some e =>
      match s.destPlace tile (if c.isMc then l.tile else tile) c e l.m with
      | .error (.cause n p) => failed s n p
      | .error _ => s
      | .ok x =>
        match s.writePlaces tile c l.m [x] with
        | (.error (.cause n p), s) => failed s n p
        | (_, s) => s
  else
    s.updCopy tile c.id (fun _ => some
      { c with
        late := c.late.filter (fun x => x.tile != l.tile)
        skipped := if c.skipped.contains l.tile then c.skipped else c.skipped ++ [l.tile] })

end Sys2Proof.Machine
end

