-- ==== Sys2Proof/Machine/House.lean ====
section
/-! DEFINITION. Device firmware's own instructions, major 0x38 (R322 to R324): the registers that hcget and hcset reach, starting
and ending slots, posting a record, quiescence, dropping wait-list entries, and the copy that carries tags. -/

namespace Sys2Proof.Machine

open Sys2Proof

/-! ### Register images -/

/-- Words w0, w1 and w2 of a wait-list entry (R71). -/
def Wait.kind (w : Wait) : Nat :=
  if w.void then 3
  else
    match w.req.op with
    | .wf => 0
    | .wfc => 1
    | _ => 2

def Wait.words (w : Wait) : Word × Word × Word :=
  let r := w.req
  (if w.kind = 2 then r.val.v else 0,
    wd (2 ^ 63 + w.kind * 2 ^ 61 + w.pkg.toNat * 2 ^ 53 + r.src * 2 ^ 43 + r.slot % 512 * 2 ^ 34 + r.part % 16 * 2 ^ 30
      + r.tenant * 2 ^ 14 + b2n w.shared * 2 ^ 13 + b2n w.deadline.isSome * 2 ^ 12),
    wd (dpaBank r.dpa * 2 ^ 57 + dpaOff r.dpa * 2 ^ 32 + w.deadline.getD 0 % 2 ^ 32))

/-- The deadline that 32 bits name, in units of 1024 cycles: of those that agree with them, the one that lies nearest to now, half the
range to either side (R71, log 19). -/
def nearDeadline (now v : Nat) : Nat :=
  let n := now / 1024
  let ahead := (v + 2 ^ 32 - n % 2 ^ 32) % 2 ^ 32
  if ahead < 2 ^ 31 then n + ahead else n + ahead - 2 ^ 32

/-- An entry with the fields of the three words; the reference's identity stays that of the entry it replaces. PART has four
bits: an entry of house reads 0 there and stays house's while that field is written as it reads (log 39). VALUE keeps its poison while
another word of the entry is written. -/
def waitFrom (old : Wait) (now : Nat) (keep : Bool) (tile : Nat) (pkg : Nat) (loft : Bool) (w0 w1 w2 : Word) : Wait :=
  let kind := fld w1 62 61
  { old with
    shared := bit w1 13
    deadline := if bit w1 12 then some (nearDeadline now (fld w2 31 0)) else none
    pkg := BitVec.ofNat 8 (fld w1 60 53)
    void := kind == 3
    req := { old.req with
      op := if kind = 1 then .wfc else if kind = 2 then .we else .wf
      src := fld w1 52 43, slot := fld w1 42 34, tenant := fld w1 29 14
      part := if fld w1 33 30 = old.req.part % 16 then old.req.part else fld w1 33 30
      val := if kind = 2 then ⟨w0, keep && old.req.val.p⟩ else {}
      dpa := mkDpa loft pkg tile (fld w2 63 57) (fld w2 56 32) } }

/-- The entry with a number in one of a tile's two lists. -/
def State.waitNum (s : State) (tile : Nat) (loft : Bool) (num : Nat) : Option Wait :=
  s.waits.find? (fun w => dpaLoft w.req.dpa == loft && dpaTile w.req.dpa == tile
    && dpaPkg w.req.dpa == s.package.toNat && w.num == num)

/-- Word w0–w17 of a barrier object (R168). -/
def Barrier.word (b : Barrier) (j : Nat) : Word :=
  if j < 8 then wd (b.members.toNat / 2 ^ (64 * j))
  else if j < 16 then wd (b.arrived.toNat / 2 ^ (64 * (j - 8)))
  else if j = 16 then
    wd (b2n b.v * 2 ^ 63 + b2n b.lost * 2 ^ 62 + b2n b.root * 2 ^ 61 + b.episode.toNat * 2 ^ 45 + b.ptile.toNat * 2 ^ 35
      + b.pobj.toNat * 2 ^ 31 + b.children.toNat * 2 ^ 24 + b.carrived.toNat * 2 ^ 17 + b.lostType.toNat * 2 ^ 9)
  else wd (b.ltile.toNat * 2 ^ 9 + b.lslot.toNat)

/-- 64 bits of a 512-bit field replaced. -/
def setPart (x : BitVec 512) (j : Nat) (v : Word) : BitVec 512 :=
  BitVec.ofNat 512 (x.toNat - x.toNat / 2 ^ (64 * j) % 2 ^ 64 * 2 ^ (64 * j) + v.toNat * 2 ^ (64 * j))

def Barrier.setWord (b : Barrier) (j : Nat) (v : Word) : Barrier :=
  if j < 8 then { b with members := setPart b.members j v }
  else if j < 16 then { b with arrived := setPart b.arrived (j - 8) v }
  else if j = 16 then
    { b with
      v := bit v 63, lost := bit v 62, root := bit v 61, episode := BitVec.ofNat 16 (fld v 60 45)
      ptile := BitVec.ofNat 10 (fld v 44 35), pobj := BitVec.ofNat 4 (fld v 34 31)
      children := BitVec.ofNat 7 (fld v 30 24), carrived := BitVec.ofNat 7 (fld v 23 17)
      lostType := BitVec.ofNat 8 (fld v 16 9) }
  else { b with ltile := BitVec.ofNat 10 (fld v 18 9), lslot := BitVec.ofNat 9 (fld v 8 0) }

/-- The entry that the ring in memory holds at a place; void where DQBASE reaches none, or the word cannot be used (R158), and where
the page that it needs has failed. -/
def State.ringEntry (s : State) (tile part : Nat) (p : Word) (lost : Bool) : Except Stop DEntry × State :=
  let tenant := (s.tileAt tile).tenantOf part
  let s := s.portRead tile part p
  match s.reach tile part tenant p 8 needR with
  | .ok t =>
    if s.gated t.dpa (some (unitRank tile)) then (.error .wait, s)
    else if (s.homeStop t.dpa false).isSome then (.ok ⟨0, 0, .void⟩, s)
    else
      let s := s.openUnit t.dpa tenant part p false (some (unitRank tile))
      let (v, s) := s.readAt t.dpa
      (.ok ⟨s.freshId, v.v, if v.p then .void else .visible⟩, s.bumpId)
  | .error (.cause n q) => (.ok ⟨0, 0, .void⟩, s.noteStop tile part tenant (.cause n q))
  | .error x => if lost then (.ok ⟨0, 0, .void⟩, s) else (.error x, s)

/-- The entries at a list of places of a deque; those that the unit holds already stand as they are. -/
def State.ringEntries (s : State) (tile part : Nat) (new : Deque) (known : Word → Option DEntry) (lost : Bool) (done : List DEntry) :
    List Word → Except Stop (List DEntry) × State
  | [] => (.ok done, s)
  | n :: ns =>
    match known n with
    | some e => s.ringEntries tile part new known lost (done ++ [e]) ns
    | none =>
      match s.ringEntry tile part (new.place n) lost with
      | (.error x, s) => (.error x, s)
      | (.ok e, s) => s.ringEntries tile part new known lost (done ++ [e]) ns

/-- A deque whose DQBASE, HEAD or TAIL house firmware has written: the unit keeps the entries that it holds, and takes the others from
the ring in memory (log 8). -/
def State.moveDeque (s : State) (tile part : Nat) (new : Deque) (lost : Bool) : Except Stop Unit × State :=
  let old := (s.tileAt tile).dequeAt part
  let known (n : Word) : Option DEntry := if new.base = old.base then old.entries[(n - old.head).toNat]? else none
  match s.ringEntries tile part new known lost [] ((List.range (min new.count 4096)).map (fun j => new.head + wd j)) with
  | (.error x, s) => (.error x, s)
  | (.ok es, s) => (.ok (), s.setDeque tile part { new with entries := es })

/-- The deque that a write of one of its three registers makes (R158). -/
def Deque.written (d : Deque) (j : Nat) (v : Word) : Deque :=
  if j = 0 then { d with base := v } else if j = 1 then { d with head := v } else { d with tail := v }

/-- Capacity register (R118): 21 MiB less for each bank retired in place. -/
def State.scap (s : State) : Word :=
  let lost := (s.spares.map (fun x => x.2.retired.length)).foldl (· + ·) 0
  wd (1429 * 2 ^ 48 + 768 * 2 ^ 16 + (672 * 1024 - 21 * lost) / 1024)

/-- Reset value of an LFMT or SFMT field, and the bits of each register that a write reaches. -/
def fmtMask : Word := 0xFFC70FFF
def btabMask : Word := 0xFFFFFFFFFFFFFFC0
def pcfgMask : Word := 0xFFFFFFF00000FFFF
def ircfgMask : Word := 0xFFFFFFFCFFFFFFFF
def vectMask : Word := 0xFF0000000003FFFF

def State.kslotAt (s : State) (k : Nat) : Word := Map.get (fun _ => 0) s.kslot k

/-! ### hcget and hcset (R323) -/

/-- Does the table list this BLOCK and INDEX? -/
def selectorOk (block idx : Nat) : Bool :=
  if block = 0 then decide (idx ≤ 16)
  else if block = 1 then decide (idx ≤ 46)
  else if block = 2 then decide (2 ≤ idx) && decide (idx ≤ 32)
  else if block = 3 then decide (idx ≤ 31)
  else if block = 4 then decide (idx < 1024)
  else if block = 5 then decide (idx ≤ 144)
  else if block = 6 then decide (idx ≤ 400)
  else if block = 7 then decide (idx < 17 * 256)
  else if block = 8 then decide (idx / 4 ≤ 16) && decide (idx % 4 ≤ 2)
  else if block = 9 then decide (idx / 32 < 16) && decide (idx % 32 ≤ 17)
  else if block = 10 then
    decide (idx % 4 ≤ 2) && (if idx < 8192 then true else decide ((idx - 8192) / 4 < 512))
  else if block = 11 then idx == 0
  else if block = 12 then decide (idx / 16 ≤ 32)
  else false

/-- The words of an entry that is not in use, as house firmware has written them. -/
def State.idleWords (s : State) (tile : Nat) (loft : Bool) (num : Nat) : Word × Word × Word :=
  let w (j : Nat) : Word := Map.get (fun _ => 0) s.idleWaits (waitKey tile loft num j)
  (w 0, w 1, w 2)

/-- The words of an entry, in use or not, and VALUE's poison flag. -/
def State.waitWords (s : State) (tile : Nat) (loft : Bool) (num : Nat) : Bool × Word × Word × Word :=
  match s.waitNum tile loft num with
  | some w => (decide (w.kind = 2) && w.req.val.p, w.words)
  | none => (false, s.idleWords tile loft num)

/-- The entry that INDEX names in BLOCK 10. -/
def waitList (idx : Nat) : Bool := decide (8192 ≤ idx)
def waitEntry (idx : Nat) : Nat := if waitList idx then (idx - 8192) / 4 else idx / 4

/-- The value of a register. -/
def State.houseGet (s : State) (block tile idx : Nat) : Word :=
  let t := s.tileAt tile
  if block = 0 then t.pcfgAt idx
  else if block = 1 then wd (t.lownAt idx)
  else if block = 2 then t.fmtAt idx
  else if block = 3 then Map.get (fun _ => 0) s.ircfg idx
  else if block = 4 then wd (s.hashRow (idx / 32) (idx % 32))
  else if block = 5 then Map.get (fun _ => 0) s.btab idx
  else if block = 6 then s.kslotAt idx
  else if block = 7 then Map.get (fun _ => 0) t.vect idx
  else if block = 8 then
    let d := t.dequeAt (idx / 4)
    if idx % 4 = 0 then d.base else if idx % 4 = 1 then d.head else d.tail
  else if block = 9 then (s.barAt tile (idx / 32)).word (idx % 32)
  else if block = 10 then
    let ws := (s.waitWords tile (waitList idx) (waitEntry idx)).2
    if idx % 4 = 0 then ws.1 else if idx % 4 = 1 then ws.2.1 else ws.2.2
  else if block = 11 then s.scap
  else s.rootAt (rootKey tile (idx / 16) (idx % 16))

/-- VALUE of a wait-list entry reads with its poison flag (R71). -/
def State.housePoison (s : State) (block tile idx : Nat) : Bool :=
  decide (block = 10) && decide (idx % 4 = 0) && (s.waitWords tile (waitList idx) (waitEntry idx)).1

/-! ### Key slots (R119, R120, R125) -/

def State.setKslot (s : State) (k : Nat) (v : Word) : State := { s with kslot := Map.set (fun _ => 0) s.kslot k v }

/-- STATE of a key slot replaced. -/
def keyState (w : Word) (st : Nat) : Word := wd (fld w 61 0 + st * 2 ^ 62)

/-- Whose key a slot holds: TYPE 0 a tenant's, 3 house's, 1 and 2 that of the slot. -/
def slotOwner (k : Nat) (w : Word) : Nat :=
  if fld w 61 60 = 0 then fld w 59 44 else if fld w 61 60 = 3 then 0 else windowKey k

/-- A re-key that waits for its slot starts: REKEYING, EPOCH flips, and a new key is generated (R125). -/
def State.startRekey (s : State) (slot : Nat) : State :=
  let w := s.kslotAt slot
  if fld w 63 62 = 1 then
    match s.rekeys.find? (fun r => r.slot == slot && !r.finished) with
    | none => s
    | some r =>
      { (s.setKslot slot (keyState (w ^^^ wd (2 ^ 27)) 2)).nextKey (windowKey slot) with
        rekeys := s.rekeys.map (fun x => if x = r then { x with started := true } else x) }
  else s

/-- References, waits, messages and page requests of the tenant are dropped without wake. -/
def State.dropRefs (s : State) (tenant : Nat) : State :=
  { s with
    heldAnswers := s.heldAnswers.filter (fun x => !(x.1.user && x.1.tenant == tenant))
    net := s.net.filter (fun r => r.tenant != tenant), refused := s.refused.filter (fun r => r.tenant != tenant)
    replies := s.replies.filter (fun x => x.req.tenant != tenant), waits := s.waits.filter (fun w => w.req.tenant != tenant)
    msgs := s.msgs.filter (fun (m : Msg) => !(m.user && m.tenant == tenant))
    refusedMsgs := s.refusedMsgs.filter (fun (m : Msg) => !(m.user && m.tenant == tenant))
    pageReqs := s.pageReqs.filter (fun q => q.tenant != tenant) }.pruneRows

/-- A key slot starts to drain (R120): for a tenant's key, its references are dropped and its engine commands cancelled. -/
def State.drainKey (s : State) (k : Nat) : State :=
  let w := s.kslotAt k
  let s := s.setKslot k (keyState w 3)
  if fld w 61 60 = 0 then
    let tenant := fld w 59 44
    { s.dropRefs tenant with
      tiles := s.tiles.map (fun x => (x.1, { x.2 with
        mq := x.2.mq.filter (fun m => m.tenant != tenant), cq := x.2.cq.filter (fun c => c.tenant != tenant) })) }
  else s

/-- The state with the table word of a tenant in place: one that is switched out keeps its own (R29, R175). -/
def State.asTenant (s : State) (part tenant : Nat) : State :=
  match s.tables.find? (fun x => x.1 == tenant) with
  | none => s
  | some x => { s with btab := Map.set (fun _ => 0) s.btab part x.2 }

/-- The pages and the unpaged buffers of a tenant are granted fresh (R113, R120). -/
def State.freshTenant (s : State) (part tenant : Nat) : State :=
  let s := (s.ranges.filter (fun r => r.tenant == tenant && r.page)).foldl (fun (s : State) r =>
    s.grantRange r.region r.base r.size) s
  let t := s.asTenant part tenant
  if s.tables.any (fun x => x.1 == tenant) || s.tenantIn 0 part == tenant then
    (List.range (btabCount (t.btabOf part))).foldl (fun (s : State) idx =>
      let e := t.entryAt part idx
      if e.valid && !e.paged && !e.win && e.owner == tenant then s.grantRange e.region e.base ((e.size + 63) / 64 * 64) else s) s
  else s

/-- The partition, or host function, whose tenant key a slot holds (R119). -/
def slotPart (k : Nat) : Nat := if k < 272 then k - 256 else hostPart (16 + (k - 272))

/-- A write of KSLOT: the Oryx engine performs the transitions of R120 that a write can ask for, and ignores any other write
(R323). The other fields are taken with a new key only; with a tenant's key, its pages are granted fresh (R120). -/
def State.writeKslot (s : State) (k : Nat) (v : Word) : State :=
  let old := s.kslotAt k
  if fld old 63 62 = 0 ∧ fld v 63 62 = 1 then
    let w := wd (fld v 63 27 * 2 ^ 27)
    let s := (s.setKslot k w).nextKey (slotOwner k w)
    if fld w 61 60 = 0 then s.freshTenant (slotPart k) (fld w 59 44) else s
  else if fld old 63 62 = 1 ∧ fld v 63 62 = 2 ∧ fld old 61 60 = 1 then
    let part := match s.windows.find? (fun w => w.slot == k) with
      | some w => (w.sharers.headD (0, 0, 0)).2.1
      | none => 0
    let r : Rekey := { slot := k, part := part, idx := 0 }
    { s with rekeys := s.rekeys ++ [r] }.startRekey k
  else if fld old 63 62 = 1 ∧ fld v 63 62 = 3 then s.drainKey k
  else s

/-- A wait-list word written. With V = 0 the entry is not in use and holds its words only. -/
def State.setWaitWord (s : State) (tile : Nat) (loft : Bool) (num j : Nat) (v : Word) : State :=
  let blank : Wait :=
    { req := { id := 0, src := 0, slot := 0, op := .wf, dpa := 0, ptr := 0 }, num := num, shared := false, deadline := none }
  let old := s.waitNum tile loft num
  let ws := (s.waitWords tile loft num).2
  let ws := if j = 0 then (v, ws.2) else if j = 1 then (ws.1, wd (fld v 63 12 * 2 ^ 12), ws.2.2) else (ws.1, ws.2.1, v)
  let keep (s : State) (b : Bool) : State :=
    let put (m : Map Word) (j : Nat) (x : Word) : Map Word :=
      Map.set (fun _ => 0) m (waitKey tile loft num j) (if b then x else 0)
    { s with idleWaits := put (put (put s.idleWaits 0 ws.1) 1 ws.2.1) 2 ws.2.2 }
  let new := waitFrom (old.getD blank) s.cycle.toNat (j != 0) tile s.package.toNat loft ws.1 ws.2.1 ws.2.2
  match old with
  | some w =>
    if bit ws.2.1 63 then { s with waits := s.waits.map (fun x => if x = w then new else x) }
    else keep { s with waits := s.waits.erase w } true
  | none => if bit ws.2.1 63 then keep { s with waits := s.waits ++ [new] } false else keep s true

/-- The fields that a write reaches take g[b]; reserved bits stay 0. The deque unit has its own operation, which reads memory. -/
def State.housePut (s : State) (block tile idx : Nat) (v : Word) : State :=
  let t := s.tileAt tile
  if block = 0 then
    let v := v &&& pcfgMask
    let v := if idx = 16 then (v &&& 0x80000FF00000FFFF) ||| wd (504 * 2 ^ 54 + 8 * 2 ^ 44) else v
    s.setTileAt tile { t with pcfg := Map.set pcfgReset t.pcfg idx v }
  else if block = 1 then
    if idx = 0 then s
    else s.setTileAt tile { t with lown := Map.set (fun _ => 31) t.lown idx (BitVec.ofNat 8 (fld v 4 0)) }
  else if block = 2 then s.setTileAt tile { t with fmt := Map.set fmtReset t.fmt idx (v &&& fmtMask) }
  else if block = 3 then { s with ircfg := Map.set (fun _ => 0) s.ircfg idx (v &&& ircfgMask) }
  else if block = 4 then { s with irhash := Map.set (fun _ => 0) s.irhash idx (wd (fld v 31 0)) }
  else if block = 5 then { s with btab := Map.set (fun _ => 0) s.btab idx (v &&& btabMask) }
  else if block = 6 then s.writeKslot idx v
  else if block = 7 then s.setTileAt tile { t with vect := Map.set (fun _ => 0) t.vect idx (v &&& vectMask) }
  else if block = 9 then s.setBarAt tile (idx / 32) ((s.barAt tile (idx / 32)).setWord (idx % 32) v)
  else if block = 10 then s.setWaitWord tile (waitList idx) (waitEntry idx) (idx % 4) v
  else s

/-- A g operand of major 0x38 that carries poison traps (R322). -/
def State.houseOps (s : State) (keys : List Nat) (k : Ctx → Out) : Out :=
  s.reading keys fun c => if poisonOf (keys.map c.getG) then s.trapPoison c.latch else k c

def State.selected (s : State) (sel : Word) (k : Nat → Nat → Nat → Out) : Out :=
  if fld sel 63 32 ≠ 0 ∨ selectorOk (fld sel 31 24) (fld sel 13 0) = false then s.trap cILLEGAL_OPERAND sel
  else k (fld sel 31 24) (fld sel 23 14) (fld sel 13 0)

def execHcget (d a : BitVec 5) (s : State) : Out :=
  s.house (wordHcget d a) <| s.houseOps [gr a] fun c =>
    s.selected (c.getG (gr a)).v fun block tile idx =>
      s.complete (c.setG (gr d) ⟨s.houseGet block tile idx, s.housePoison block tile idx⟩) 4

/-- A write of a deque register: it completes once the unit has the entries that it reads from the ring (R158, R54). -/
def State.dequePut (s : State) (tile idx : Nat) (v : Word) : Out :=
  let part := idx / 4
  if Hold.waiting s.me.hold then s.stall
  else
    match s.moveDeque tile part (((s.tileAt tile).dequeAt part).written (idx % 4) v) (Hold.lost s.me.hold) with
    | (.ok _, s) => (s.unstall).complete s.me 4
    | (.error (.page f queued), s) =>
      let s := s.wantPage tile f queued
      (s.setMe { s.me with hold := f.held tile }).stall
    | (.error _, s) => s.stall

def execHcset (a b : BitVec 5) (s : State) : Out :=
  s.house (wordHcset a b) <| s.houseOps [gr a, gr b] fun c =>
    s.selected (c.getG (gr a)).v fun block tile idx =>
      if block = 8 then s.dequePut tile idx (c.getG (gr b)).v
      else
        let s' := s.housePut block tile idx (c.getG (gr b)).v
        (s'.unstall).complete s'.me 4

/-! ### Slots (R324) -/

/-- A code offset as a code pointer (R179). -/
def codePtr (entry : Word) : Word := codeBase + wd (fld entry 17 1 * 2)

/-- The start of a gang member or of an hstart: g2 is 0, g4 the argument, g5 the member index (R167, R408). -/
def Ctx.startArg (c : Ctx) (entry arg : Word) (index : Nat) : Ctx :=
  ((c.start (codePtr entry)).setG 4 ⟨arg, false⟩).setG 5 ⟨wd index, false⟩

def execHstart (d a b c : BitVec 5) (s : State) : Out :=
  s.house (wordHstart d a b c) <| s.houseOps [gr a, gr b, gr c] fun x =>
    let id := fld (x.getG (gr a)).v 18 0
    if (s.ctxAt id).st = .idle then
      let tenant := (s.tileAt (tileOf id)).tenantOf (s.partOf id)
      let c' := (s.ctxAt id).firstStart (tileOf id) (slotOf id) tenant
      (s.setCtxAt id { c'.startArg (x.getG (gr b)).v (x.getG (gr c)).v 0 with fenced := s.codeOld.length }).complete
        (x.setG (gr d) {}) 4
    else s.complete (x.setG (gr d) ⟨1, false⟩) 4

/-- Requests of a context that have not been performed and wait for one, parked or backing off, are cancelled (R73), and its frame
is told that it is not parked (R154). Those in flight are performed for nobody (R409). -/
def State.cancelOf (s : State) (id : Nat) : State :=
  let mine (r : Req) : Bool := r.src == tileOf id && r.slot == slotOf id && r.blocking
  let s := (s.unpark id).orphan id
  let t := s.tileAt (tileOf id)
  let s := s.setTileAt (tileOf id) { t with formats := t.formats.filter (fun x => x.1 != id) }
  { s with
    heldAnswers := s.heldAnswers.filter (fun x => x.1.context != some id)
    waits := s.waits.filter (fun w => !(w.req.src == tileOf id && w.req.slot == slotOf id))
    refused := s.refused.filter (fun r => !mine r)
    refusedMsgs := s.refusedMsgs.filter (fun (m : Msg) =>
      match m.origin with
      | .ctx i _ => i != id
      | .mcast i => i != id
      | _ => true) }

def execHkill (d a : BitVec 5) (s : State) : Out :=
  s.house (wordHkill d a) <| s.houseOps [gr a] fun x =>
    let id := fld (x.getG (gr a)).v 18 0
    let held := decide ((s.ctxAt id).st ≠ .idle)
    let s' := if held then ((s.cancelOf id).idleSlot id).unstall else s
    if id = s.cur then .next s'
    else s'.complete (s'.me.setG (gr d) { v := wd (b2n held) }) 4

/-! ### Records (R324, R374) -/

/-- Eight aligned words, read with plain loads once earlier references of the slot have been performed. -/
def execHrec (a : BitVec 5) (s : State) : Out :=
  s.house (wordHrec a) <| s.houseOps [gr a] fun x =>
    let p := (x.getG (gr a)).v
    if s.quiet s.cur = false then s.stall
    else if fld p 5 0 ≠ 0 then s.trap cALIGN p
    else
      s.portAll needR [] (fun s ws =>
        let s := ws.foldl (fun s w => s.openUnit w.2.dpa s.me.tenant.toNat (s.partOf s.cur) w.1) s
        let v (j : Nat) : Word := s.word ((ws.getD j (0, { dpa := 0 })).2.dpa)
        let rec_ : Record := ⟨v 0, v 1, v 2, v 3, v 4, v 5, v 6, v 7⟩
        ({ s with records := s.records ++ [rec_] }).complete s.me 4) (wordsFrom p 8)

/-! ### Quiescence and purging (R82, R324) -/

/-- Does the address lie in the LOWN space `e` of the tile? -/
def State.inSpace (s : State) (tile e d : Nat) : Bool :=
  let off := if 64 ≤ dpaBank d then 0x400000 + (dpaBank d - 64) * 0x10000 + dpaOff d else dpaBank d * 0x20000 + dpaOff d
  dpaLoft d && dpaPkg d == s.package.toNat && dpaTile d == tile && lownEntry off == e

/-- Does a walk of the record, by a command of tile `by_`, enter the space? -/
def State.walkEnters (s : State) (by_ : Nat) (targets : List Nat) (r : List Word) (tile e : Nat) : Bool :=
  recLoft r && targets.any (fun t => loftTile t (ptrIdx (recBase r)) == tile)
    && (List.range (recCount r)).any (fun j =>
      match recIndex r j with
      | none => false
      | some n => lownEntry (ptrOff (elemPlace (recBase r) (s.sideFmt by_ r).2.2 n).1) == e)

/-- Does a copy command or a drain of tile `by_` name the space? Until its records have been read, one of the partition that owns the
space, or of house, may (R82, R84). -/
def State.copyNames (s : State) (by_ : Nat) (c : CCmd) (tile e : Nat) : Bool :=
  c.holds && (if c.dst = [] then c.part == (s.tileAt tile).lownAt e || c.part == 16
    else s.walkEnters by_ [by_] c.src tile e || s.walkEnters by_ (c.targets by_) c.dst tile e)

/-- Does a command of a matrix queue name the space: the array and the slices, the bank of its operand, or what a drain may write? -/
def State.matrixNames (s : State) (by_ : Nat) (m : MCmd) (tile e : Nat) : Bool :=
  (by_ == tile && (e == 46 || (decide (m.form ≠ .drain) && decide (m.form ≠ .drainAdd) && descAbank m.lo + 14 == e)))
    || ((decide (m.form = .drain) || decide (m.form = .drainAdd)) && (m.part == (s.tileAt tile).lownAt e || m.part == 16))

/-- Is nothing in flight that names the space? -/
def State.spaceQuiet (s : State) (tile e : Nat) : Bool :=
  !(s.net.any (fun r => s.inSpace tile e r.dpa)) && !(s.refused.any (fun r => s.inSpace tile e r.dpa))
    && !(s.waits.any (fun w => s.inSpace tile e w.req.dpa)) && !(s.replies.any (fun r => s.inSpace tile e r.req.dpa))
    && !(s.tiles.any (fun x => x.2.mq.any (fun m => s.matrixNames x.1 m tile e) || x.2.cq.any (fun c => s.copyNames x.1 c tile e)))

def execHquiesce (a : BitVec 5) (s : State) : Out :=
  s.house (wordHquiesce a) <| s.houseOps [gr a] fun x =>
    if s.spaceQuiet (tileOf s.cur) (fld (x.getG (gr a)).v 5 0) then s.complete x 4 else s.stall

def execHpurge (d a : BitVec 5) (s : State) : Out :=
  s.house (wordHpurge d a) <| s.houseOps [gr a] fun x =>
    let tenant := fld (x.getG (gr a)).v 15 0
    let drop (w : Wait) : Bool :=
      w.req.tenant == tenant && dpaTile w.req.dpa == tileOf s.cur && dpaPkg w.req.dpa == s.package.toNat
    let n := (s.waits.filter drop).length
    ({ s with waits := s.waits.filter (fun w => !drop w) }).complete (x.setG (gr d) ⟨wd n, false⟩) 4

/-! ### hcopy (R324, R60) -/

/-- A line is opened by firmware under the key that seals it, whosever that is: hcopy moves pages of every tenant (R60). -/
def State.openSealed (s : State) (d : Nat) (ptr : Word) : State :=
  let k := s.lineKey (lineOf d)
  let owner := if k = 0 then 0 else (k - 1) / 2 ^ 32
  s.openLine
    { id := 0, src := dpaTile d, slot := 512, op := .load 8 false, dpa := d, ptr := ptr, tenant := owner % 2 ^ 16
      part := 16, key := if owner < 2 ^ 16 then 0 else owner - 2 ^ 16 }

/-- A loft word that firmware writes crosses the bond (R94). -/
def State.openLoft (s : State) (d : Nat) (ptr : Word) : State :=
  if dpaLoft d then
    s.openBond { id := 0, src := dpaTile d, slot := 512, op := .sf, dpa := d, ptr := ptr, tenant := s.me.tenant.toNat, part := 16 }
  else s

/-- One word with its P, W and poison; a watch record follows its word, and the new line is sealed as the old one is. A quarantined
word reads as full and poisoned (R123). -/
def State.carryWord (s : State) (src dst : Nat) : State :=
  let s := if src = dst then s else s.dropWatches (fun w => w.dpa == wordOf dst)
  let (v, s) := s.readAt src
  let t := { s.tagAt src with full := s.fullAt src, poison := v.p }
  let s := { s with lineKeys := Map.set (fun _ => 0) s.lineKeys (lineOf dst) (s.lineKey (lineOf src)) }
  let s := (s.poke (wordOf dst) 8 v.v.toNat).setTagAt dst t
  (({ s with watches := s.watches.map (fun (w : Watch) => if w.dpa = wordOf src then { w with dpa := wordOf dst } else w) }).seal dst).crossBond dst

def execHcopy (a b c : BitVec 5) (s : State) : Out :=
  s.house (wordHcopy a b c) <| s.houseOps [gr a, gr b, gr c] fun x =>
    let n := (x.getG (gr c)).v
    if fld n 5 0 ≠ 0 then s.trap cILLEGAL_OPERAND n
    else if s.quiet s.cur = false then s.stall
    else
      s.portAll needR [] (fun s src =>
        s.portAll needW [] (fun s dst =>
          if src.any (fun w => s.homeWaits w.2.dpa) || dst.any (fun w => s.homeWaits w.2.dpa) then s.stall
          else
            match src.find? (fun w => (s.homeStop w.2.dpa false).isSome), dst.find? (fun w => (s.homeStop w.2.dpa true).isSome) with
            | some w, _ => s.trap ((s.homeStop w.2.dpa false).getD cDEAD_TARGET) w.1
            | none, some w => s.trap ((s.homeStop w.2.dpa true).getD cDEAD_TARGET) w.1
            | none, none =>
              let s := src.foldl (fun s w => s.openSealed w.2.dpa w.1) s
              let s := dst.foldl (fun s w => s.openLoft w.2.dpa w.1) s
              let s := (src.zip dst).foldl (fun s x => s.carryWord x.1.2.dpa x.2.2.dpa) s
              s.complete s.me 4) (wordsFrom (x.getG (gr b)).v (n.toNat / 8))) (wordsFrom (x.getG (gr a)).v (n.toNat / 8))

end Sys2Proof.Machine
end

