-- ==== Sys2Proof/Machine/EvPort.lean ====
section
/-! DEFINITION. Events of the buffer ports and of the page-request unit: entry fetches (R35), page walks (R45, R48), page
requests, grants, failures and wakes (R54 to R60), and shootdowns (R49 to R53). An event that cannot happen in a state leaves
it unchanged. -/

namespace Sys2Proof.Machine

open Sys2Proof

/-! ### Who waits -/

/-- The event happens where its condition holds. -/
def State.when (s : State) (ok : Bool) (k : State) : Out := .next (if ok then k else s)

def State.mapCtxs (s : State) (f : Nat → Ctx → Ctx) : State := { s with ctxs := s.ctxs.map (fun x => (x.1, f x.1 x.2)) }

/-- Contexts that wait at a port for an index, and a page where one is given, in the order in which they parked (R57). -/
def State.portIds (s : State) (tile part idx : Nat) (page : Option Nat) : List Nat :=
  let ids := (s.ctxs.filter (fun x =>
    tileOf x.1 == tile && s.partOf x.1 == part &&
      (match x.2.st with
        | .blocked (.port i p _ _) => i == idx && (page == none || page == some p)
        | _ => false))).map (fun x => x.1)
  let order := (s.tileAt tile).parked.map (ctxId tile)
  order.filter (fun id => ids.contains id) ++ ids.filter (fun id => !order.contains id)

/-- Contexts leave the port, and issue their references again in the order in which they parked (R57). `page` is the page whose wake
they have got. -/
def State.wakeAll (s : State) (tile : Nat) (page : Option (Nat × Nat)) (ids : List Nat) : State :=
  let s := ids.zipIdx.foldl (fun (s : State) x =>
    s.setCtxAt x.1 { s.ctxAt x.1 with st := .ready, rewalk := page, after := (ids.take x.2).map slotOf }) s
  let t := s.tileAt tile
  s.setTileAt tile { t with parked := t.parked.filter (fun sl => !ids.contains (ctxId tile sl)) }

/-- Does a copy command of the tile wait for the page? -/
def CCmd.waitsFor (c : CCmd) (part idx page : Nat) : Bool :=
  match c.page with
  | some f => f.part == part && f.idx == idx && f.page == page
  | none => false

/-- Does a help or an ending context wait for the page? -/
def Ctx.waitsFor (c : Ctx) (idx page : Nat) : Bool :=
  match c.st with
  | .blocked (.helping _ _ x) => x == some (idx, page)
  | .blocked (.adopting _ _ _ _ x) => x == some (idx, page)
  | .blocked (.returning _ x) => x == some (idx, page)
  | .blocked (.escalated _ _ _ x) => x == some (idx, page)
  | _ => false

/-- The page that a help or an ending context waits for has been looked up again, or the request has failed. -/
def Ctx.unpaged (c : Ctx) : Ctx :=
  match c.st with
  | .blocked (.helping r own _) => { c with st := .blocked (.helping r own none) }
  | .blocked (.adopting r f ws undo _) => { c with st := .blocked (.adopting r f ws undo none) }
  | .blocked (.returning lost _) => { c with st := .blocked (.returning lost none) }
  | .blocked (.escalated n e v _) => { c with st := .blocked (.escalated n e v none) }
  | _ => c

/-- Marks, deque units, ring stores, re-keys, seal calls, acknowledgements, recoveries, the launcher and hosts that wait for a page. -/
def State.mapHolds (s : State) (f : Hold → Hold) : State :=
  let g : Option Hold → Option Hold := Option.map f
  { s.mapCtxs (fun _ c => { c with hold := g c.hold }) with
    net := s.net.map (fun r => { r with hold := g r.hold })
    marks := s.marks.map (fun (m : Mark) => { m with hold := g m.hold })
    rekeys := s.rekeys.map (fun (r : Rekey) => { r with hold := g r.hold })
    launches := s.launches.map (fun (l : Launch) => { l with hold := g l.hold })
    fns := s.fns.map (fun (x : Nat × Fn) => (x.1, { x.2 with lqhold := g x.2.lqhold, eqhold := g x.2.eqhold }))
    barWaits := s.barWaits.map (fun (w : BarWait) => { w with hold := g w.hold })
    tiles := s.tiles.map (fun (x : Nat × Tile) =>
      (x.1, { x.2 with
        shoot := x.2.shoot.map (fun (y : Shoot) => { y with hold := g y.hold })
        recover := x.2.recover.map (fun (y : Recover) => { y with hold := g y.hold }) })) }

def State.holds (s : State) : List Hold :=
  s.ctxs.filterMap (fun x => x.2.hold) ++ s.net.filterMap (fun r => r.hold) ++ s.marks.filterMap (fun (m : Mark) => m.hold)
    ++ s.rekeys.filterMap (fun (r : Rekey) => r.hold) ++ s.launches.filterMap (fun (l : Launch) => l.hold)
    ++ s.fns.filterMap (fun x => x.2.lqhold) ++ s.fns.filterMap (fun x => x.2.eqhold) ++ s.barWaits.filterMap (fun (w : BarWait) => w.hold)
    ++ s.tiles.flatMap (fun x =>
      x.2.shoot.filterMap (fun (y : Shoot) => y.hold) ++ x.2.recover.filterMap (fun (y : Recover) => y.hold))

def Hold.at_ (h : Hold) (tile part idx page : Nat) : Bool := h.tile == tile && h.part == part && h.idx == idx && h.page == page

/-- The wake of a page reaches them, or its request fails (R57). -/
def State.settleHolds (s : State) (tile part idx page : Nat) (st : HoldState) : State :=
  if s.holds.any (fun h => h.at_ tile part idx page) then
    s.mapHolds (fun h => if h.at_ tile part idx page ∧ h.st = .waits then { h with st := st } else h)
  else s

/-- The waiting references look again: contexts issue again, copy commands and helps go on (R57, R58, R59). -/
def State.rewalk (s : State) (tile part idx : Nat) (page : Nat) : State :=
  let s := s.wakeAll tile (some (idx, page)) (s.portIds tile part idx (some page))
  let s := s.mapCtxs (fun id c => if tileOf id = tile ∧ s.partOf id = part ∧ c.waitsFor idx page = true then c.unpaged else c)
  let s := s.settleHolds tile part idx page .woken
  let t := s.tileAt tile
  (s.setTileAt tile { t with
    cq := t.cq.map (fun c => if c.waitsFor part idx page then { c with page := none, rewalk := some (idx, page) } else c)
    faults := t.faults.filter (fun f => !(f.part == part && f.idx == idx && f.page == page)) }).unstall

/-- Messages from one tile to one tile arrive in their order (R16). -/
def State.messageFirst (s : State) (k : Nat) (m : Msg) : Bool :=
  !(s.msgs.take k).any (fun (x : Msg) => x.src == m.src && x.dst == m.dst && x.away == m.away)

/-! ### Buffer entries (R35) -/

/-- The entry read returns: it enters the cache, and the waiting references complete their checks with it. -/
def execBufferEntryFetch (tile k : Nat) (s : State) : Out :=
  match (if (s.tileAt tile).clocked then (s.tileAt tile).fetches[k]? else none) with
  | none => .next s
  | some (part, idx) =>
    let s := s.openTable tile part (btabBase (s.btabOf part) + 32 * idx)
    let t := s.tileAt tile
    let b : BCached := { part := part, idx := idx, ent := s.entryAt part idx }
    let s' := (s.setTileAt tile
      { t with bcache := bcacheInsert t.bcache b s.free, fetches := t.fetches.eraseIdx k }).bumpFree
    let ids := s'.portIds tile part idx none
    let s' := ids.foldl (fun (s : State) id => s.setCtxAt id { s.ctxAt id with seen := (s.ctxAt id).seen ++ [b] }) s'
    .next (s'.wakeAll tile none ids).unstall

/-! ### Failures at a port -/

/-- One waiting reference fails (R57, R240, R242). -/
def State.portFail1 (s : State) (cause id : Nat) : State :=
  match (s.ctxAt id).st with
  | .blocked (.port _ _ tval use) =>
    match use with
    | .trap => s.trapAt id cause tval
    | .endFrame failed => s.endUnchecked id failed cause tval
    | .noHelp => s.setCtxAt id { (s.ctxAt id).advance 4 with st := .ready }
  | _ => s

def State.portFail (s : State) (tile part idx page cause : Nat) : State :=
  (s.portIds tile part idx (some page)).foldl (fun s id => s.portFail1 cause id) s

/-! ### Walks (R45, R48) -/

/-- The references that joined a walk take its result (R48). -/
def State.takeWalk (s : State) (tile : Nat) (w : Walk) (c : PCached) : State :=
  (s.portIds tile w.part w.idx (some (w.off / 4096))).foldl (fun (s : State) id =>
    s.setCtxAt id { s.ctxAt id with walked := (s.ctxAt id).walked ++ [c] }) s

/-- One table read of a walk returns, at a port that is clocked (R23). Of the references that joined a walk that meets a malformed entry,
the one record names the first that parked, and the start of its page: the spec does not say which (DESIGN CHOICE, log 43). -/
def execPageWalk (tile k : Nat) (s : State) : Out :=
  match (if (s.tileAt tile).clocked then (s.tileAt tile).walks[k]? else none) with
  | none => .next s
  | some w =>
    let page := w.off / 4096
    let without (s : State) : State := s.setTileAt tile { s.tileAt tile with walks := (s.tileAt tile).walks.eraseIdx k }
    match (s.tileAt tile).bcache.find? (fun b => b.part == w.part && b.idx == w.idx) with
    | none => .next ((without s).rewalk tile w.part w.idx page)
    | some b =>
      if w.stale then .next ((without s).rewalk tile w.part w.idx page)
      else
        let tk := btabRegion (s.btabOf w.part)
        let ra := w.table + 8 * levelIndex w.off w.level
        let s := s.openTable tile w.part ra
        let t := s.tileAt tile
        let done := without s
        let held := t.wakes.any (fun x => x.1 == w.part && x.2.1 == w.idx && x.2.2.1 == page)
        let pte := s.regionWord tk ra
        match s.pteStep tk b.ent.region w.level pte with
        | .table addr =>
          .next (s.setTileAt tile { t with walks := t.walks.set k { w with level := w.level + 1, table := addr } })
        | .leaf addr nw =>
          let c : PCached :=
            { part := w.part, idx := w.idx, gen := b.ent.gen, level := w.level, pn := pageNumber w.off w.level
              addr := addr, nw := nw }
          let t' := done.tileAt tile
          let s' := (done.setTileAt tile { t' with pcache := pcacheInsert t'.pcache c }).takeWalk tile w c
          .next (s'.rewalk tile w.part w.idx page)
        | .malformed =>
          let ids := s.portIds tile w.part w.idx (some page)
          let s' := done.post (badTable ((s.ctxAt (ids.headD 0)).tenant.toNat) w.part ids.head? tile
            (wd (w.idx * 2 ^ 46 + w.off)) pte)
          .next (s'.portFail tile w.part w.idx page cBUFFER_INVALID).unstall
        | .migrate => .next (if held then done.rewalk tile w.part w.idx page else done.unstall)
        | .miss =>
          if held then .next (done.rewalk tile w.part w.idx page)
          else
            let f : PortFault := { part := w.part, idx := w.idx, page := page, write := false }
            .next (done.setTileAt tile ((done.tileAt tile).addFault f)).unstall

/-! ### Page requests (R54 to R57) -/

/-- The number of the queue entry that a new request takes, which its record shows: the lowest that is free. The spec does not say which
(DESIGN CHOICE, log 43). -/
def State.freeEntry (s : State) : Nat :=
  ((List.range 256).find? (fun n => !s.pageReqs.any (fun q => q.num == n))).getD 256

/-- May the partition take an entry: a reserved one (false), or a shared one? House and host tenants have no partition of the 16: their
requests take shared entries only (DESIGN CHOICE, log 43). -/
def State.pageRoom (s : State) (part tenant : Nat) : Option Bool :=
  let own := s.pageReqs.filter (fun q => q.part == part && !q.shared)
  let shared := s.pageReqs.filter (fun q => q.shared)
  if part < 16 ∧ own.length < 8 then some false
  else if (shared.filter (fun q => q.tenant == tenant)).length < 32 ∧ shared.length < 128 then some true
  else none

/-- Request record w0 (R56). -/
def PageReq.w0 (q : PageReq) : Word :=
  wd (q.tenant * 2 ^ 48 + q.part % 16 * 2 ^ 44 + q.idx * 2 ^ 26 + b2n q.write * 2 ^ 24
    + min q.ports.length 4095 * 2 ^ 12 + q.num % 2 ^ 12)

/-- Request record w1 (R56): the offset, rounded down to 4 KiB. -/
def PageReq.w1 (q : PageReq) : Word := wd (q.page * 4096)

/-- The function whose host owns a tenant (R361). -/
def State.ownerFn (s : State) (tenant : Nat) : Option Nat :=
  if 0xF000 ≤ tenant then some (tenant - 0xF000) else s.fnOf tenant

/-- The record of a request is sent to the function that owns the tenant (R56). -/
def State.askHost (s : State) (q : PageReq) : State :=
  match s.ownerFn q.tenant with
  | some fn => { s with hostPosts := s.hostPosts ++ [(fn, q.w0, q.w1)] }
  | none => s

/-- The wait issues again, through the port, as the unqualified kind (R72, R51); a help instruction completes without effect
(R163, R242). -/
def State.reissue (s : State) (id : Nat) (r : Req) : State :=
  if r.op = .probe then s.setCtxAt id { (s.ctxAt id).advance r.len with st := .ready }
  else s.setCtxAt id { s.ctxAt id with st := .ready, wait := none, plainWait := true, hold := none }

/-- Copy commands, helps, adoptions and ending contexts of a tile that wait for a page meet its failure (R59, R163, R164, R240). A frame
lies in one page, so its first word is the one that fails. -/
def State.unitFail (s : State) (tile part idx page : Nat) : State :=
  let t := s.tileAt tile
  let s := t.cq.foldl (fun (s : State) c =>
    if c.waitsFor part idx page then
      match c.st with
      | .ending _ _ => s.updCopy tile c.id (fun c => some { c with done := none, page := none })
      | _ =>
        s.endCopy tile c (copyStatus 1 cPAGE_FAULT (if c.dst = [] then allOnes48 else c.pos))
          (match c.page with
            | some f => f.ptr
            | none => 0)
    else s) s
  let s := s.settleHolds tile part idx page .failed
  s.ctxs.foldl (fun (s : State) x =>
    if tileOf x.1 = tile ∧ s.partOf x.1 = part ∧ (s.ctxAt x.1).waitsFor idx page = true then
      match (s.ctxAt x.1).st with
      | .blocked (.helping r _ _) => s.reissue x.1 r
      | .blocked (.adopting r f ws undo _) =>
        let lost : Option Hold := some { tile := tile, part := part, idx := idx, page := page, st := .failed }
        s.setCtxAt x.1 { s.ctxAt x.1 with st := .blocked (.adopting r f ws true none), hold := if undo then lost else none }
      | .blocked (.returning _ _) => s.setCtxAt x.1 { s.ctxAt x.1 with st := .blocked (.returning true none) }
      | .blocked (.escalated _ e _ _) =>
        s.endWith x.1 cPAGE_FAULT ((s.ctxAt x.1).getG 2).v (endDetail cPAGE_FAULT e 26)
      | _ => s
    else s) s

/-- References of a tile that wait for a page. -/
def State.waitingFor (s : State) (tile part idx page : Nat) : Nat :=
  (s.portIds tile part idx (some page)).length
    + ((s.tileAt tile).cq.filter (fun c => c.waitsFor part idx page)).length
    + (s.ctxs.filter (fun x => tileOf x.1 == tile && s.partOf x.1 == part && x.2.waitsFor idx page)).length
    + (s.holds.filter (fun h => h.at_ tile part idx page && decide (h.st = .waits))).length

/-- A request ends: its entry is freed, and references of the partition that are parked without an entry look again (R55). -/
def State.freeRequest (s : State) (q : PageReq) : State :=
  let s := { s with pageReqs := s.pageReqs.filter (fun x => x.num != q.num) }
  s.tiles.foldl (fun (s : State) x =>
    (s.tileAt x.1).faults.foldl (fun (s : State) f =>
      if f.part = q.part ∧ f.sent = true
          ∧ !(s.pageReqs.any (fun r => r.part == f.part && r.idx == f.idx && r.page == f.page && r.write == f.write)) then
        s.rewalk x.1 f.part f.idx f.page
      else s) s) s

/-- The request fails: every reference parked on the page traps PAGE_FAULT, and one record counts them. Its w1 names the first port of the
port map: the spec does not say which tile (DESIGN CHOICE, log 43). -/
def State.failRequest (s : State) (q : PageReq) : State :=
  let n := (q.ports.map (fun t => s.waitingFor t q.part q.idx q.page)).foldl (· + ·) 0
  let s := q.ports.foldl (fun (s : State) t =>
    let s := (s.portFail t q.part q.idx q.page cPAGE_FAULT).unitFail t q.part q.idx q.page
    let x := s.tileAt t
    s.setTileAt t { x with
      faults := x.faults.filter (fun f => !(f.part == q.part && f.idx == q.idx && f.page == q.page && f.write == q.write)) }) s
  let s := s.post
    { code := 0x0007, sev := 2, engine := 2, tenant := q.tenant, part := q.part, tile := q.ports.headD 0
      ptr := wd (q.idx * 2 ^ 46 + q.page * 4096), action := 24, count := n, detail := q.w0 }
  (s.freeRequest q).unstall

/-- A fault reaches the unit: it merges with an entry, allocates one, or stays parked without one; a refault of a granted entry
posts again, and after the third grant fails (R57). -/
def execPageRequest (tile k : Nat) (s : State) : Out :=
  let t := s.tileAt tile
  match t.faults[k]? with
  | none => .next s
  | some f =>
    if f.sent then .next s
    else
      let s := s.setTileAt tile { t with faults := t.faults.set k { f with sent := true } }
      let tenant := s.tenantIn tile f.part
      match s.pageReqs.find? (fun q => q.part == f.part && q.idx == f.idx && q.page == f.page && q.write == f.write) with
      | some q =>
        let ports := if q.ports.contains tile then q.ports else q.ports ++ [tile]
        if q.granted = false then
          .next { s with pageReqs := s.pageReqs.map (fun (x : PageReq) => if x.num = q.num then { x with ports := ports } else x) }
        else if q.refault < 2 then
          let q' : PageReq :=
            { q with
              ports := ports, granted := false, woken := [], reported := [], refault := q.refault + 1, posted := s.cycle.toNat }
          .next ({ s with pageReqs := s.pageReqs.map (fun (x : PageReq) => if x.num = q.num then q' else x) }.askHost q')
        else .next (s.failRequest { q with ports := ports })
      | none =>
        match s.pageRoom f.part tenant with
        | none => .next s
        | some shared =>
          let q : PageReq :=
            { num := s.freeEntry, part := f.part, tenant := tenant, idx := f.idx, page := f.page, write := f.write
              ports := [tile], posted := s.cycle.toNat, shared := shared }
          .next ({ s with pageReqs := s.pageReqs ++ [q] }.askHost q)

/-! ### Ranges that firmware gives out (R407) -/

/-- Do two ranges of one region meet? -/
def meets (k base size k2 base2 size2 : Nat) : Bool := k == k2 && decide (base < base2 + size2) && decide (base2 < base + size)

/-- What the entries of a buffer table use: an unpaged buffer, or the root of a paged one. -/
def State.entryMeets (s : State) (b : Word) (k base size : Nat) : Bool :=
  (List.range (btabCount b)).any (fun idx =>
    let w (j : Nat) : Word := s.regionWord (btabRegion b) (btabBase b + 32 * idx + 8 * j)
    let e : BufEntry := ⟨w 0, w 1, w 2, w 3⟩
    e.valid && (if e.paged then meets k base size (btabRegion b) e.base (tableBytes 0) else meets k base size e.region e.base e.size))

/-- Does a buffer table, or a buffer or root that it holds, meet the range? -/
def State.tableMeets (s : State) (k base size : Nat) : Bool :=
  (s.houseBtab :: (s.btab.map (fun x => x.2) ++ s.tables.map (fun x => x.2))).any (fun b =>
    decide (0 < btabCount b) && (meets k base size (btabRegion b) (btabBase b) (32 * btabCount b) || s.entryMeets b k base size))

/-- Is the range inside its region and clear of every range in use (R407)? -/
def State.rangeFree (s : State) (k base size : Nat) : Bool :=
  s.regionOk k && decide (base + size ≤ (s.region k).size)
    && !s.ranges.any (fun r => meets k base size r.region r.base r.size)
    && !s.windows.any (fun w => meets k base size w.region w.base w.size)
    && !s.tableMeets k base size

/-- Has no line of the range its home in a bank that is retired (R338)? -/
def State.rangeSound (s : State) (k base size : Nat) : Bool :=
  (List.range (size / 64)).all (fun j => !s.retiredAt (s.homeOf k (base + 64 * j)))

/-- A range is given to a tenant. -/
def State.give (s : State) (tenant k base size : Nat) (page : Bool) : State :=
  { s with ranges := s.ranges ++ [{ tenant := tenant, region := k, base := base, size := size, page := page }] }

/-- Does a cached translation overlap a range of 4 KiB pages? -/
def PCached.overlaps (c : PCached) (first count : Nat) : Bool :=
  let lo := c.pn * (pageBytes c.level / 4096)
  decide (lo < first + count) && decide (first < lo + pageBytes c.level / 4096)

/-- Step 1 of R50 at one port, for pages `first` to `first + count - 1` of an index, or all of a partition. -/
def Tile.invalidate (t : Tile) (part : Nat) (idx : Option Nat) (entry : Bool) (first count : Nat) : Tile :=
  let names (p i : Nat) : Bool := p == part && (idx == none || idx == some i)
  { t with
    bcache := if entry then t.bcache.filter (fun b => !(names b.part b.idx)) else t.bcache
    pcache := t.pcache.filter (fun c => !(names c.part c.idx && (entry || c.overlaps first count)))
    walks := t.walks.map (fun w =>
      if names w.part w.idx && (entry || (decide (first ≤ w.off / 4096) && decide (w.off / 4096 < first + count))) then
        { w with stale := true } else w) }

/-- What a context has been given at the port goes with it. -/
def Ctx.invalidate (c : Ctx) (part : Nat) (idx : Option Nat) (entry : Bool) (first count : Nat) : Ctx :=
  let names (p i : Nat) : Bool := p == part && (idx == none || idx == some i)
  { c with
    seen := if entry then c.seen.filter (fun b => !(names b.part b.idx)) else c.seen
    walked := c.walked.filter (fun x => !(names x.part x.idx && (entry || x.overlaps first count))) }

def State.mapTiles (s : State) (f : Nat → Tile → Tile) : State :=
  s.tiles.foldl (fun (s : State) x => s.setTileAt x.1 (f x.1 x.2)) s

/-- A port gives up what it knows of the pages, and its contexts with it. -/
def State.invalidate (s : State) (tile part : Nat) (idx : Option Nat) (entry : Bool) (first count : Nat) : State :=
  (s.setTileAt tile ((s.tileAt tile).invalidate part idx entry first count)).mapCtxs
    (fun id c => if tileOf id = tile then c.invalidate part idx entry first count else c)

/-- Every port does. -/
def State.invalidateAll (s : State) (part : Nat) (idx : Option Nat) (entry : Bool) (first count : Nat) : State :=
  (s.mapTiles (fun _ t => t.invalidate part idx entry first count)).mapCtxs
    (fun _ c => c.invalidate part idx entry first count)

/-- `k` runs with it in place. -/
def State.withTable (s : State) (part tenant : Nat) (k : State → State) : State :=
  let t := k (s.asTenant part tenant)
  if s.tables.any (fun x => x.1 == tenant) then
    { t with btab := Map.set (fun _ => 0) t.btab part (Map.get (fun _ => 0) s.btab part) }
  else t

/-- The table words as they would stand. -/
def State.pokeTables (s : State) (tk : Nat) (ptes : List (Word × Word)) : State :=
  ptes.foldl (fun (s : State) x => s.poke (s.homeOf tk (fld x.1 47 0)) 8 x.2.toNat) s

/-- Firmware writes table words, each line being opened under the tenant's key (R109, R123). -/
def State.writeTables (s : State) (tk tenant : Nat) (ptes : List (Word × Word)) : State :=
  ptes.foldl (fun (s : State) x =>
    let d := s.homeOf tk (fld x.1 47 0)
    ((s.openUnit d tenant 16 0 true).poke d 8 x.2.toNat).seal d) s

/-- Page tables that the words written point to, each with its size: those of the path that were not in it before. -/
def State.newTables (s t : State) (tk : Nat) (e : BufEntry) (off : Nat) : List (Nat × Nat) :=
  let old := (s.walkPath tk e off 4 e.base).zipIdx.map (fun x => (x.1 - 8 * levelIndex off x.2, x.2))
  let new := (t.walkPath tk e off 4 e.base).zipIdx.map (fun x => (x.1 - 8 * levelIndex off x.2, x.2))
  (new.filter (fun x => !old.contains x)).map (fun x => (x.1, tableBytes x.2))

/-- May firmware answer the request with these words (region address, entry)? Each stands on the walk of the page, which ends in a leaf
that satisfies the request; new tables and a new page are inside their regions and clear of ranges in use (R407), the page has no
home in a retired bank (R338), and no leaf of a stack maps a guard page (R157). A line in quarantine is written once it has been
resealed (R123). -/
def State.grantFits (s : State) (q : PageReq) (ptes : List (Word × Word)) : Bool :=
  let tk := btabRegion (s.btabOf q.part)
  let e := s.entryAt q.part q.idx
  let off := q.page * 4096
  let t := s.pokeTables tk ptes
  let path := t.walkPath tk e off 4 e.base
  let tables := s.newTables t tk e off
  !(q.idx == 0x1FFFF && q.page % 16 == 0) && s.regionOk tk
    && ptes.all (fun x => path.contains x.1.toNat && !s.quarantined (s.homeOf tk (fld x.1 47 0)))
    && tables.all (fun x => s.rangeFree tk x.1 x.2)
    && (tables.zipIdx.all (fun (x, i) => (tables.take i).all (fun y => !meets tk x.1 x.2 tk y.1 y.2)))
    && (match t.leafOf tk e off with
      | none => false
      | some (lvl, addr, nw) =>
        !(q.write && nw) && (q.idx != 0x1FFFF || lvl == 3) && t.rangeSound e.region addr (pageBytes lvl)
          && ((q.write && decide ((s.leafOf tk e off).map (fun x => x.2.1) = some addr))
            || (s.rangeFree e.region addr (pageBytes lvl)
              && tables.all (fun y => !meets e.region addr (pageBytes lvl) tk y.1 y.2))))

/-- The words are written, into new tables that are otherwise empty; a page that is new is granted fresh (R113). -/
def State.grantPage (s : State) (q : PageReq) (ptes : List (Word × Word)) : State :=
  let tk := btabRegion (s.btabOf q.part)
  let e := s.entryAt q.part q.idx
  let off := q.page * 4096
  let t := s.pokeTables tk ptes
  let tables := s.newTables t tk e off
  let s' := tables.foldl (fun (s : State) x => (s.grantRange tk x.1 x.2).give q.tenant tk x.1 x.2 false) s
  let s' := s'.writeTables tk q.tenant ptes
  match t.leafOf tk e off with
  | none => s'
  | some (lvl, addr, _) =>
    if (s.leafOf tk e off).map (fun x => x.2.1) = some addr then s'
    else (s'.grantRange e.region addr (pageBytes lvl)).give q.tenant e.region addr (pageBytes lvl) true

/-- A host's grant: firmware has written the table words, `ptes`, has shot the page down, and sends the wake. -/
def execPageGrant (entry : Nat) (ptes : List (Word × Word)) (s : State) : Out :=
  match s.pageReqs.find? (fun q => q.num == entry && !q.granted) with
  | none => .next s
  | some q =>
    if (s.asTenant q.part q.tenant).grantFits q ptes = false then .next s
    else
      let s := s.withTable q.part q.tenant (fun s => s.grantPage q ptes)
      let s := s.invalidateAll q.part (some q.idx) false q.page 1
      if q.ports = [] then .next (s.freeRequest q)
      else
        .next { s with pageReqs := s.pageReqs.map (fun (x : PageReq) =>
          if x.num = q.num then { x with granted := true, woken := [], reported := [] } else x) }

def execPageRequestFail (entry : Nat) (s : State) : Out :=
  match s.pageReqs.find? (fun q => q.num == entry && !q.granted) with
  | none => .next s
  | some q => .next (s.failRequest q)

/-- 200 ms at the 2.4 GHz reference rate (R21, R57). -/
def pageTimeout : Nat := 480000000

def execPageRequestTimeout (entry : Nat) (s : State) : Out :=
  match s.pageReqs.find? (fun q => q.num == entry && !q.granted && decide (q.posted + pageTimeout ≤ s.cycle.toNat)) with
  | none => .next s
  | some q => .next (s.failRequest q)

/-- Has every reference that the wake reached looked again, and met no fault that the unit does not know of (R57)? -/
def State.rewalked (s : State) (q : PageReq) (tile : Nat) : Bool :=
  let t := s.tileAt tile
  !t.walks.any (fun w => w.part == q.part && w.idx == q.idx && w.off / 4096 == q.page)
    && !t.faults.any (fun f => f.part == q.part && f.idx == q.idx && f.page == q.page && f.write == q.write && !f.sent)
    && !t.cq.any (fun c => c.part == q.part && c.rewalk == some (q.idx, q.page))
    && !s.holds.any (fun h => h.at_ tile q.part q.idx q.page && decide (h.st = .woken))
    && !s.ctxs.any (fun x => tileOf x.1 == tile && s.partOf x.1 == q.part
      && (x.2.rewalk == some (q.idx, q.page)
        || (match x.2.st with
          | .blocked (.helping _ _ none) => true
          | .blocked (.adopting _ _ _ _ none) => true
          | .blocked (.returning _ none) => true
          | .blocked (.escalated _ _ _ none) => true
          | _ => false)))

/-- A port reports once the wake has reached it and its references have looked again. -/
def execRewalkReport (entry tile : Nat) (s : State) : Out :=
  match s.pageReqs.find? (fun q => q.num == entry && q.granted && q.woken.contains tile && !q.reported.contains tile) with
  | none => .next s
  | some q =>
    if s.rewalked q tile = false then .next s
    else
      let reported := q.reported ++ [tile]
      if q.ports.all (fun t => reported.contains t) then .next (s.freeRequest q)
      else
        .next { s with pageReqs := s.pageReqs.map (fun (x : PageReq) =>
          if x.num = q.num then { x with reported := reported } else x) }

/-- The wake reaches a port: its parked references look again; with none parked yet it is held for 1024 cycles (R60). -/
def execPortWake (tile part idx page : Nat) (s : State) : Out :=
  let t := s.tileAt tile
  let parked := decide (0 < s.waitingFor tile part idx page)
  let s := { s with pageReqs := s.pageReqs.map (fun (x : PageReq) =>
    if x.part = part ∧ x.idx = idx ∧ x.page = page ∧ x.granted = true ∧ x.woken.contains tile = false then
      { x with woken := x.woken ++ [tile] } else x) }
  let s := if parked then s
    else s.setTileAt tile { t with wakes := t.wakes ++ [(part, idx, page, s.cycle.toNat + 1024)] }
  .next (s.rewalk tile part idx page)

def execWakeHoldExpiry (tile : Nat) (s : State) : Out :=
  let t := s.tileAt tile
  .next (s.setTileAt tile { t with wakes := t.wakes.filter (fun w => decide (s.cycle.toNat < w.2.2.2)) })

/-! ### Shootdowns (R49 to R53) -/

/-- What one message names: partition, index (none: the whole partition), entries too, first page and count. -/
def shootRange (m0 : Word) : Nat × Option Nat × Bool × Nat × Nat :=
  let kind := fld m0 63 62
  (fld m0 61 58, if kind = 2 then none else some (fld m0 57 40), decide (kind ≠ 0), fld m0 33 0, 2 ^ fld m0 38 34)

/-- Is a reference in the range? -/
def shootHits (rg : Nat × Option Nat × Bool × Nat × Nat) (part : Nat) (ptr : Word) : Bool :=
  let page := ptrOff ptr / 4096
  part == rg.1 && (rg.2.1 == none || rg.2.1 == some (ptrIdx ptr))
    && (rg.2.2.1 || (decide (rg.2.2.2.1 ≤ page) && decide (page < rg.2.2.2.1 + rg.2.2.2.2)))

/-- May a reference have been translated by a page that the message invalidates, which may be a larger one that overlaps those it names
(R50, R51)? -/
def shootTouches (rg : Nat × Option Nat × Bool × Nat × Nat) (part : Nat) (ptr : Word) : Bool :=
  let big := pageBytes 0 / 4096
  let page := ptrOff ptr / 4096
  part == rg.1 && (rg.2.1 == none || rg.2.1 == some (ptrIdx ptr))
    && (rg.2.2.1 || (decide (rg.2.2.2.1 / big ≤ page / big) && decide (page / big ≤ (rg.2.2.2.1 + rg.2.2.2.2 - 1) / big)))

/-- Does buffer `idx` of a partition map one of the pages to the word's line? -/
def State.mapsTo (s : State) (part idx first count d : Nat) : Bool :=
  let e := s.entryAt part idx
  match s.regionAddr e.region d with
  | none => false
  | some ra =>
    if e.paged then
      (List.range count).any (fun j =>
        match s.leafOf (btabRegion (s.btabOf part)) e ((first + j) * 4096) with
        | some (lvl, addr, _) => decide (addr ≤ ra) && decide (ra < addr + pageBytes lvl)
        | none => false)
    else
      decide (e.base ≤ ra) && decide (ra < e.base + e.size) && decide (first ≤ (ra - e.base) / 4096)
        && decide ((ra - e.base) / 4096 < first + count)

/-- Does the whole buffer hold the word? -/
def State.bufferMaps (s : State) (part idx d : Nat) : Bool := s.mapsTo part idx 0 (((s.entryAt part idx).size + 4095) / 4096) d

/-- Parked references in the range go back to their requesters (R52): those that name it, and those of any partition whose word it
holds; the range of a whole partition is that of all its buffers. -/
def State.purgeRange (s : State) (m0 : Word) : State :=
  let rg := shootRange m0
  let hit (w : Wait) : Bool :=
    shootHits rg w.req.part w.req.ptr
      || (!dpaLoft w.req.dpa && (match rg.2.1 with
        | none =>
          (List.range (btabCount (s.btabOf rg.1))).any (fun idx =>
            (s.entryAt rg.1 idx).valid && s.bufferMaps rg.1 idx w.req.dpa)
        | some idx =>
          if rg.2.2.1 then s.bufferMaps rg.1 idx w.req.dpa else s.mapsTo rg.1 idx rg.2.2.2.1 rg.2.2.2.2 w.req.dpa))
  (s.waits.filter hit).foldl (fun (s : State) w => s.answerWait w .purged) s

/-- References of a partition that wait at the port for a page of a buffer whose entry is shot down look again, and trap where the entry
is no longer valid (R60). -/
def State.wakeBuffer (s : State) (tile part : Nat) (idx : Option Nat) : State :=
  let named (i : Nat) : Bool := idx == none || idx == some i
  let t := s.tileAt tile
  let pages : List (Nat × Nat) :=
    (s.ctxs.filterMap (fun x =>
      if tileOf x.1 = tile ∧ s.partOf x.1 = part then
        (match x.2.st with
          | .blocked (.port i p _ _) => some (i, p)
          | .blocked (.helping _ _ y) => y
          | .blocked (.adopting _ _ _ _ y) => y
          | .blocked (.returning _ y) => y
          | .blocked (.escalated _ _ _ y) => y
          | _ => none)
      else none))
    ++ t.cq.filterMap (fun c => c.page.bind (fun f => if f.part = part then some (f.idx, f.page) else none))
    ++ (s.holds.filter (fun h => h.tile == tile && h.part == part)).map (fun h => (h.idx, h.page))
  ((pages.filter (fun x => named x.1)).eraseDups).foldl (fun (s : State) x => s.rewalk tile part x.1 x.2) s

/-- A type 0xFF message reaches the port of its tile. KIND 3 is only recorded and acknowledged; the spec does not say which record, and
the model posts one of a refused request (DESIGN CHOICE, log 43). -/
def State.shootAt (s : State) (m : Msg) : State :=
  let rg := shootRange m.m0
  let add (s : State) (x : Shoot) : State := s.setTileAt m.dst { s.tileAt m.dst with shoot := (s.tileAt m.dst).shoot ++ [x] }
  if fld m.m0 63 62 = 3 then
    add (s.post { code := 0x010B, sev := 0, engine := 12, tile := m.dst, action := 23, detail := m.m0 })
      { done := m.m1, tenant := m.tenant, awaited := [] }
  else
    let awaited := (s.net.filter (fun r => r.src == m.dst && shootTouches rg r.part r.ptr)).map (fun r => r.id)
    let s := if bit m.m0 39 then s.purgeRange m.m0 else s
    let s := s.invalidate m.dst rg.1 rg.2.1 rg.2.2.1 rg.2.2.2.1 rg.2.2.2.2
    add (if rg.2.2.1 then s.wakeBuffer m.dst rg.1 rg.2.1 else s)
      { done := m.m1, tenant := m.tenant, awaited := awaited, purge := if bit m.m0 39 then some m.m0 else none }

/-- The acknowledgement: an add of −1 to the count word; at 0 the completion word is set full (R50). The pair is reached through the port
as any reference is (R54); one that cannot be reached is left alone: the spec says nothing of it (DESIGN CHOICE, log 43). -/
def State.ackAt (s : State) (tile tenant : Nat) (done : Word) (lost : Bool) : Except Stop Unit × State :=
  let need : Need := { w := true, s := true }
  let s := (s.portRead tile 16 (padd done 8)).portRead tile 16 done
  let rank := some (unitRank tile)
  match s.reach tile 16 tenant (padd done 8) 8 need, s.reach tile 16 tenant done 8 need with
  | .ok count, .ok word =>
    if s.gated count.dpa rank || s.gated word.dpa then (.error .wait, s)
    else if (s.homeStop count.dpa true).isSome then (.ok (), s)
    else
      let s := s.openUnit count.dpa tenant 16 (padd done 8) false rank
      if s.quarantined count.dpa then (.ok (), s)
      else
        let v := s.word count.dpa - 1
        let s := (s.putValue count.dpa 8 { s.gval count.dpa with v := v }).wroteEvent count.dpa
        (.ok (), if v = 0 then s.fillDone word.dpa tenant 16 done 0 else s)
  | .error (.page f queued), _ => if lost then (.ok (), s) else (.error (.page f queued), s)
  | .ok _, .error (.page f queued) => if lost then (.ok (), s) else (.error (.page f queued), s)
  | .error x, _ => (.ok (), s.noteStop tile 16 tenant x)
  | .ok _, .error x => (.ok (), s.noteStop tile 16 tenant x)

/-- A reference that has parked since under the old state is purged before the port acknowledges (R52). -/
def execShootdownAck (tile : Nat) (s : State) : Out :=
  let t := s.tileAt tile
  match t.shoot with
  | [] => .next s
  | x :: rest =>
    if s.net.any (fun r => x.awaited.contains r.id) ∨ t.clocked = false ∨ Hold.waiting x.hold = true then .next s
    else
      let s := match x.purge with
        | some m0 => s.purgeRange m0
        | none => s
      match s.ackAt tile x.tenant x.done (Hold.lost x.hold) with
      | (.ok _, s) => .next (s.setTileAt tile { s.tileAt tile with shoot := rest }).unstall
      | (.error (.page f queued), s) =>
        let s := s.wantPage tile f queued
        .next (s.setTileAt tile { s.tileAt tile with shoot := { x with hold := f.held tile } :: rest }).unstall
      | (.error _, s) => .next s.unstall

def execShootdown (k : Nat) (s : State) : Out :=
  match s.msgs[k]? with
  | none => .next s
  | some m =>
    if m.type = 0xFF ∧ m.away = false ∧ s.messageFirst k m = true then
      .next (({ s with msgs := s.msgs.eraseIdx k }.shootAt m).tellSender m .taken).unstall
    else .next s

end Sys2Proof.Machine
end

