-- ==== Sys2Proof/Machine/EvBank.lean ====
section
/-! DEFINITION. Events at the home banks: arrivals (R62, R66, R72, R76, R221, R225, R229, R234, R249), reduce-cell reads (R109 of
the consistency chapter, R234), answers (R17, R409), refusals (R69), deadlines (R70), cancels (R73), quarantine (R123), window
re-keys and key erasure (R120, R125). -/

namespace Sys2Proof.Machine

open Sys2Proof

/-! ### Arrivals -/

def execArriveLoad (k : Nat) (s : State) : Out :=
  s.arrive k (fun o => match o with | .load _ _ => true | .rowLoad _ => true | _ => false) State.arriveLoad
def execArriveStore (k : Nat) (s : State) : Out :=
  s.arrive k (fun o => match o with | .store _ => true | .rowStore _ => true | _ => false) State.arriveStore
def execArriveWf (k : Nat) (s : State) : Out := s.arrive k (fun o => decide (o = .wf)) State.arriveWf
def execArriveWfc (k : Nat) (s : State) : Out := s.arrive k (fun o => decide (o = .wfc)) State.arriveWfc
def execArriveWe (k : Nat) (s : State) : Out := s.arrive k (fun o => decide (o = .we)) State.arriveWe
def execArriveSf (k : Nat) (s : State) : Out := s.arrive k (fun o => decide (o = .sf)) State.arriveSf
def execArrivePset (k : Nat) (s : State) : Out := s.arrive k (fun o => decide (o = .pset)) State.arrivePset
def execArrivePclr (k : Nat) (s : State) : Out := s.arrive k (fun o => decide (o = .pclr)) State.arrivePclr
def execArriveHelp (k : Nat) (s : State) : Out :=
  s.arrive k (fun o => match o with | .help _ => true | _ => false) State.arriveHelp
def execArriveProbe (k : Nat) (s : State) : Out := s.arrive k (fun o => decide (o = .probe)) State.arriveProbe
def execArrivePget (k : Nat) (s : State) : Out := s.arrive k (fun o => decide (o = .pget)) State.arrivePget
def execArriveWatch (k : Nat) (s : State) : Out :=
  s.arrive k (fun o => match o with | .watch _ => true | _ => false) State.arriveWatch
def execArriveUnwatch (k : Nat) (s : State) : Out := s.arrive k (fun o => decide (o = .unwatch)) State.arriveUnwatch

/-- The claim of a frame: a cas of w1 from UNSTARTED to RUNNING, which returns w2 and w4–w7 (R156, R159). -/
def State.arriveClaim (s : State) (r : Req) : State :=
  let w := s.gval r.dpa
  if w.p || !bit w.v 63 || swState w.v != 0 then s.answer r .notClaimed
  else
    let at_ (j : Nat) : GVal := s.gval (r.dpa - 8 + 8 * j)
    (s.deviceWrite r.dpa (swRunning w.v r.src r.slot 0)).answer r (.claimed [at_ 2, at_ 4, at_ 5, at_ 6, at_ 7])

/-- The components of a combined add are performed after one another, in one event (R65, R232). -/
def execArriveAmo (k : Nat) (s : State) : Out :=
  let more := match s.net[k]? with
    | some r => s.components k r
    | none => []
  s.arrive k (fun o => match o with | .amo _ _ => true | .claim => true | _ => false)
    (fun s r => if r.op = .claim then s.arriveClaim r else more.foldl (fun s q => s.component q) (s.arriveAmo r).bumpFree)
def execArriveRdxAdd (k : Nat) (s : State) : Out := s.arrive k (fun o => decide (o = .rdxAdd)) State.arriveRdxAdd

/-- The state word of the mailbox's owner, through translations that the sender's port has cached (R249). -/
def State.ownerWord (s : State) (r : Req) : Option (Nat × Word) :=
  let own := s.ownerOf r.dpa r.ptr
  if own = 0 then none
  else
    match s.cachedXlate r.src r.part r.tenant (padd own 8) 8 needR with
    | none => none
    | some t => if dpaLegal t.dpa ∧ s.homeStop t.dpa false = none then some (t.dpa, own) else none

/-- The bank reads the owner's state; a word that is poisoned or in quarantine tells nothing (R123). -/
def State.mailboxDead (s : State) (r : Req) : Bool × State :=
  match s.ownerWord r with
  | none => (false, s)
  | some (d, own) =>
    let s := s.openUnit d r.tenant r.part own false (some bankRank)
    (!s.quarantined d && !(s.gval d).p && decide (3 ≤ swState (s.gval d).v), s)

/-- A delivery waits while the owner's word cannot be read. -/
def execMailboxArrive (k : Nat) (s : State) : Out :=
  let held := match s.net[k]? with
    | some r => match s.ownerWord r with
      | some (d, _) => s.homeWaits d
      | none => false
    | none => false
  if held then .next s
  else
    s.arrive k (fun o => match o with | .mailbox _ => true | _ => false) fun s r =>
      let (dead, s) := s.mailboxDead r
      if dead then
        s.answer r (match r.op with | .mailbox true => .status 1 | _ => .failed cDEAD_TARGET)
      else s.arriveWe r

/-! ### rdx.read (R109, R234) -/

/-- The home bank's read of one slot is served by that slot's bank, behind its other requests of the cycle (R65). -/
def execRdxSlotRead (k tile : Nat) (s : State) : Out :=
  match s.net[k]? with
  | none => .next s
  | some r =>
    let d := mkDpa false s.package.toNat tile (dpaBank r.dpa) (dpaOff r.dpa)
    if r.op = .rdxRead ∧ (r.slots ≠ [] ∨ s.mayArrive k r = true) ∧ tile < 1024 ∧ r.slots.all (fun x => x.1 != tile) = true
        ∧ s.homeWaits d = false then
      let s := if r.slots = [] then s.noteServed r.dpa r.rank else s
      let s := (s.noteServed d bankRank).openLine { r with dpa := d }
      let (v, s) := s.readAt d
      .next { s with net := s.net.set k { r with slots := r.slots ++ [(tile, v)] } }
    else .next s

/-- Slot of a tile among those read. -/
def slotValue (slots : List (Nat × GVal)) (tile : Nat) : GVal :=
  match slots.find? (fun x => x.1 == tile) with
  | some x => x.2
  | none => {}

/-- ((slot 0 + slot 1) + slot 2) + … in fp32, nearest even. -/
def sumSlots (slots : List (Nat × GVal)) : GVal :=
  let f (t : Nat) : Nat := (slotValue slots t).v.toNat % 2 ^ 32
  ⟨wd ((List.range 1023).foldl (fun (x : Nat) j => addF 23 0 x (f (j + 1))) (f 0)), slots.any (fun x => x.2.p)⟩

def execRdxSum (k : Nat) (s : State) : Out :=
  match s.net[k]? with
  | none => .next s
  | some r =>
    if r.op = .rdxRead ∧ 1024 ≤ r.slots.length then
      .next (({ s with net := s.net.eraseIdx k }).answer r (.value (sumSlots r.slots))).unstall
    else .next s

/-! ### Answers (R17, R327, R409) -/

/-- Do poisoned values of this kind of reference set the poison-origin latch (R327)? -/
def MemOp.latches : MemOp → Bool
  | .load _ _ => true
  | .wf => true
  | .wfc => true
  | .help _ => true
  | .probe => true
  | _ => false

/-- Is the value still wanted: no later instruction has written the register that takes it? A value for g0 is wanted, and only the write
of the register is discarded (R186). -/
def Ctx.wants (c : Ctx) (r : Req) : Bool :=
  let key := r.dest.headD 0
  key == 0 || r.blocking || c.awaits key == r.id

def Ctx.put (c : Ctx) (r : Req) (key : Nat) (v : GVal) : Ctx :=
  if r.blocking then (if key = 0 then c else c.setKey key v) else c.deliver r.id key v

/-- The pointer of the word that the reference reads. -/
def Req.wordPtr (r : Req) : Word := wd (r.ptr.toNat / 8 * 8)

/-- The destinations take the values, and the latch the pointer of a poisoned word. -/
def Ctx.fill (c : Ctx) (r : Req) (vs : List GVal) : Ctx :=
  let bad := r.op.latches && c.wants r && (vs.headD {}).p
  ((r.dest.zip vs).foldl (fun (c : Ctx) x => c.put r x.1 x.2) c).latchIf bad r.wordPtr

/-- A blocking reference is over: the context goes on after it. -/
def Ctx.resume (c : Ctx) (r : Req) : Ctx :=
  if r.blocking then { c.advance r.len with st := .ready, wait := none } else c

/-- A reference that has failed at its home traps nothing yet: the deferred-fault register takes the cause and `p` (R409). A failed amo,
one refused for poison after it has issued among them (log 40), leaves its destination poisoned. -/
def Ctx.lateFail (c : Ctx) (r : Req) (cause : Nat) (p : Word) : Ctx :=
  let c :=
    match r.op with
    | .pget => c.fill r [{}]
    | .load _ _ => (c.fill r [⟨0, true⟩])
    | .amo _ _ => if c.wants r then { c.fill r [⟨0, true⟩] with latch := r.wordPtr } else c
    | _ => c
  c.defer cause p

def MemOp.isAmo : MemOp → Bool
  | .amo _ _ => true
  | _ => false

/-- A failed answer (R409). Blocking references trap at once, but for an amo, which blocks only where it may be refused for poison (R230,
log 40): it traps that refusal, and defers what its home finds as every amo does. -/
def State.takeFailure (s : State) (r : Req) (cause : Nat) (p : Word) : State :=
  let id := ctxId r.src r.slot
  let c := s.ctxAt id
  if r.blocking && (!r.op.isAmo || decide (cause = cPOISON_CONSUMED)) then s.trapAt id cause p
  else if c.st = .idle then s
  else s.setCtxAt id ((c.lateFail r cause p).resume r)

/-- A context that a rotation takes out, and whose parked reference the bank has served: c.epc is saved after the instruction, which is
complete (R73; log 41). -/
def State.savedAfter (s : State) (id : Nat) : State :=
  let c := s.ctxAt id
  if s.rotations.any (fun r => r.left.contains id) && !c.inTrap then s.setCtxAt id { c with epc := c.pc } else s

/-- One answer at its context. A bank's own refill that is refused or purged goes again (R74, R52). -/
def State.takeReply (s : State) (r : Req) (a : Answer) : State :=
  let id := ctxId r.src r.slot
  let c := s.ctxAt id
  match r.op with
  | .rowLoad n => s.takeRow r n (match a with | .value v => v | _ => ⟨0, true⟩)
  | _ =>
  if 512 ≤ r.slot then
    (if r.slot = 513 ∧ (a = .refused ∨ a = .purged) then { s with refused := s.refused ++ [{ r with tries := r.tries + 1 }] }
    else s)
  else if r.blocking && decide (c.st ≠ .blocked (.ref r.id)) then s
  else
    let parked := r.blocking && c.parkedAt.isSome
    let s := if r.blocking then s.unpark id else s
    let c := s.ctxAt id
    let go (c : Ctx) : State := if parked then (s.setCtxAt id (c.resume r)).savedAfter id else s.setCtxAt id (c.resume r)
    match a with
    | .value v => go (c.fill r [v])
    | .probed v full => go (c.fill r [v, { v := wd (b2n full) }])
    | .done => go (c.fill r [{}])
    | .status n => go (c.fill r [{ v := wd n }])
    | .failed cause => s.takeFailure r cause r.ptr
    | .poisoned => s.takeFailure r cPOISON_CONSUMED c.latch
    | .refused =>
      if r.tries < r.limit then { s with refused := s.refused ++ [{ r with tries := r.tries + 1 }] }
      else s.trapAt id cWAIT_OVERFLOW r.ptr
    | .expired => s.trapAt id cWAIT_TIMEOUT r.ptr
    | .purged => s.setCtxAt id { c with st := .ready, wait := none, again := 0, plainWait := false }
    | .owner f => s.setCtxAt id { c with st := .blocked (.helping r f none) }
    | .claimed _ => s
    | .notClaimed => s

/-- Is the answer a claim's, which FRAME_START takes? -/
def Reply.isClaim (x : Reply) : Bool := decide (x.req.op = .claim)

/-- Answers from one home tile to one tile come in their order (R16). -/
def State.replyFirst (s : State) (k : Nat) (x : Reply) : Bool :=
  !(s.replies.take k).any (fun (y : Reply) =>
    y.req.src == x.req.src && dpaTile y.req.dpa == dpaTile x.req.dpa && dpaPkg y.req.dpa == dpaPkg x.req.dpa)

/-- An answer is taken; a tile at G takes none until it returns (R24). -/
def execReply (k : Nat) (s : State) : Out :=
  match s.replies[k]? with
  | none => .next s
  | some x =>
    if x.isClaim || decide ((s.tileAt x.req.src).point = .g) || !s.replyFirst k x then .next s
    else .next ({ s with replies := s.replies.eraseIdx k }.takeReply x.req x.ans).unstall

/-! ### Refusals, deadlines, cancels (R69, R70, R73) -/

/-- Refusals of send.mc go again together, once every destination has answered (R248). -/
def State.retryMsg (s : State) (j : Nat) (m : Msg) : State :=
  match m.origin with
  | .mcast id =>
    match (s.ctxAt id).st with
    | .blocked (.mcast d left) =>
      if left.any (fun (x : Nat × Nat) => x.2 == 0) then s
      else
        let mine (x : Msg) : Bool := decide (x.origin = .mcast id)
        { s with
          msgs := s.msgs ++ s.refusedMsgs.filter mine
          refusedMsgs := s.refusedMsgs.filter (fun x => !mine x) }.setCtxAt id
          { s.ctxAt id with st := .blocked (.mcast d (left.map (fun (x : Nat × Nat) => if x.2 = 1 then (x.1, 0) else x))) }
    | _ => { s with refusedMsgs := s.refusedMsgs.eraseIdx j }
  | _ => { s with msgs := s.msgs ++ [m], refusedMsgs := s.refusedMsgs.eraseIdx j }

/-- A bank's own refill goes to the home that its pointer now has, by the tables of its tenant, whatever the rights there; while its page
is being moved, or is not there, it waits on (R74, R52, R60). Where the pointer names no word any more, it goes where the word was. -/
def State.refill (s : State) (k : Nat) (r : Req) : State :=
  let go (s : State) (d : Nat) : State := { s with net := s.net ++ [{ r with dpa := d }], refused := s.refused.eraseIdx k }
  if dpaLoft r.dpa then go s r.dpa
  else
    match (s.asTenant r.via r.tenant).unitXlate 1024 r.via r.tenant r.ptr 8 {} with
    | .to t => go s t.dpa
    | .trap _ => go s r.dpa
    | .malformed pte => go (s.post (badTable r.tenant r.via none (dpaTile r.dpa) r.ptr pte)) r.dpa
    | _ => s

/-- Does the context that the refused message is from stand in a tile at G (R23)? -/
def State.senderSleeps (s : State) (m : Msg) : Bool :=
  match m.context with
  | some id => decide ((s.tileAt (tileOf id)).point = .g)
  | none => match m.origin with
    | .copy tile => decide ((s.tileAt tile).point = .g)
    | _ => false

/-- The backoff of a refused reference ends, or of a refused message for `k` past the references. The context issues the
instruction again, so the reference is translated again (R51). -/
def execRefusalRetry (k : Nat) (s : State) : Out :=
  match s.refused[k]? with
  | some r =>
    if r.slot = 513 then .next (s.refill k r)
    else
      let id := ctxId r.src r.slot
      let s := { s with refused := s.refused.eraseIdx k }
      if (s.ctxAt id).st = .blocked (.ref r.id) then
        .next (s.setCtxAt id { s.ctxAt id with st := .ready, wait := none, again := r.tries })
      else .next s
  | none =>
    let j := k - s.refused.length
    match s.refusedMsgs[j]? with
    | some m => .next (if s.senderSleeps m then s else s.retryMsg j m)
    | none => .next s

/-- Is the deadline of the entry past (R70)? -/
def Wait.expired (w : Wait) (now : Nat) : Bool :=
  match w.deadline with
  | none => false
  | some d => decide (d ≤ now / 1024)

def State.expire (s : State) : List Wait → State
  | [] => s
  | w :: ws =>
    if w.expired s.cycle.toNat then (s.answerWait w .expired).expire ws else s.expire ws

/-- All banks look at their deadlines in the reference cycles that are multiples of 1024. What they serve in the cycle comes first: where
entries have expired, they serve nothing more in it (R70). -/
def execDeadlineCheck (s : State) : Out :=
  s.when (s.cycle.toNat % 1024 == 0 && s.waits.any (fun w => w.expired s.cycle.toNat)) { s.expire s.waits with looked := true }

/-- The sweep of a partition in a tile among the units that do one thing in a cycle (R175). -/
def sweepUnit (tile part : Nat) : Nat := 2 ^ 31 + tile * 32 + part

/-- Is it the sweep's turn for a slot that is not READY? Every lower one of its tile has entered SWAPPING or waits for Carousel, the
partition has not issued in this cycle, and the sweep has not either. -/
def State.sweeps (s : State) (r : Rotation) (ctx : Nat) : Bool :=
  let tile := tileOf ctx
  r.left.all (fun x => tileOf x != tile || decide (ctx ≤ x)
      || (match (s.ctxAt x).st with | .ready => true | .swapping => true | .borrowed => true | _ => false))
    && !s.ctxs.any (fun x => tileOf x.1 == tile && s.partOf x.1 == r.part && x.2.lastIssue == some s.cycle.toNat)
    && !s.served.any (fun x => x.1 == sweepUnit tile r.part)

/-- The sweep has taken a slot in this cycle. -/
def State.swept (s : State) (tile part : Nat) : State := { s with served := s.served ++ [(sweepUnit tile part, 0)] }

/-- The instruction has had no effect, and issues again as a whole when the context is back (R334): c.epc is saved at it (R73),
but for a trap handler's, which holds where the handler returns (R335; log 41). -/
def Ctx.cancelled (c : Ctx) : Ctx :=
  { c with
    st := .ready, wait := none, epc := if c.inTrap then c.epc else c.pc, again := 0, plainWait := false, seen := [],
    walked := [], hold := none }

/-- A context that a rotation takes out: its parked entry is removed, and the instruction has had no effect; one that the bank has
served already completes by its answer. A send that waits for an answer is cancelled alike (R249). The slot enters SWAPPING when the sweep
comes to it (R175). -/
def execCancel (ctx : Nat) (s₀ : State) : Out :=
  let s := s₀
  match s.rotations.find? (fun r => r.left.contains ctx && s.sweeps r ctx && (s.tileAt (tileOf ctx)).clocked) with
  | none => .next s
  | some r =>
    let c := s.ctxAt ctx
    let s := s.swept (tileOf ctx) r.part
    let out (c : Ctx) : Ctx := { c.cancelled with st := .swapping }
    match c.st with
    | .blocked (.ref n) =>
      if s.waits.any (fun w => w.req.id == n) || s.refused.any (fun r => r.id == n) then
        let s := { s with
          waits := s.waits.filter (fun w => w.req.id != n), refused := s.refused.filter (fun r => r.id != n) }
        let s := s.unpark ctx
        .next (s.setCtxAt ctx (out (s.ctxAt ctx)))
      else .next s₀
    | .blocked (.answer n) =>
      .next ({ s with
        msgs := s.msgs.filter (fun m => m.id != n), refusedMsgs := s.refusedMsgs.filter (fun m => m.id != n) }.setCtxAt ctx
        (out c))
    | .blocked (.mcast _ _) =>
      let mine (m : Msg) : Bool := decide (m.origin = .mcast ctx)
      .next ({ s with
        msgs := s.msgs.filter (fun m => !mine m), refusedMsgs := s.refusedMsgs.filter (fun m => !mine m) }.setCtxAt ctx
        (out c))
    | _ => .next s₀

/-! ### Quarantine (R123) -/

/-- Addresses of the lines of a quarantined range. -/
def State.quarantineLines (s : State) (q : Quarantine) : List Nat :=
  (List.range (q.len / 64)).map (fun j => mkDpa false s.package.toNat q.tile q.bank (q.lo + 64 * j))

/-- Each line is written full and poisoned under a COUNT above its old one, which never wraps (R117). -/
def State.resealLine (s : State) (line : Nat) : State :=
  let s := (List.range 8).foldl (fun (s : State) j =>
    (({ s with mem := writeBytes s.mem (line + 8 * j) 8 (Sys2Proof.Config.freeWord s.free).toNat }).bumpFree).setTag
      (line + 8 * j) (fun t => { t with full := true, poison := true })) s
  { s.stampEpoch line with
    ctr := Map.set freshLine s.ctr line (BitVec.ofNat 56 (min (lineCount (s.lineCtr line) + 1) (2 ^ 55 - 1)))
    badLines := s.badLines.filter (fun b => b.1 != line) }.dirtyCtr line

def execQuarantineLift (k : Nat) (s : State) : Out :=
  match s.quarantines[k]? with
  | none => .next s
  | some q =>
    let s := (s.quarantineLines q).foldl (fun (s : State) d => s.resealLine d) s
    .next ({ s with quarantines := s.quarantines.eraseIdx k }.post
      { code := 0x000E, sev := 2, engine := 5, tile := q.tile
        dpa := wd (mkDpa false s.package.toNat q.tile q.bank q.lo), action := 14, detail := wd (1 + q.level * 2) })

/-! ### Keys (R120, R125) -/

/-- The next line, if it is still at the old epoch, is opened and resealed as one event; no value, P or W changes. A fresh line has
its E changed so too, which clears FRESH (R113); one in quarantine is resealed when that is lifted. -/
def execRekeySweepLine (slot : Nat) (s : State) : Out :=
  match s.rekeys.find? (fun r => r.slot == slot && r.started && !r.finished), s.windows.find? (fun w => w.slot == slot) with
  | some r, some w =>
    if r.next < w.size ∧ fld (s.kslotAt slot) 63 62 = 2 then
      let d := s.homeOf w.region (w.base + r.next)
      let old := Map.get (fun _ => false) s.epochs (lineOf d) != bit (s.kslotAt slot) 27
      let s :=
        if old then
          let s := s.openSealed d 0
          if s.quarantined d then s else s.seal d
        else s
      .next { s with rekeys := s.rekeys.map (fun x => if x.slot = slot ∧ x.started = true ∧ x.finished = false then { x with next := x.next + 64 } else x) }
    else .next s
  | _, _ => .next s

/-- A record of a completion word that could not be filled: the spec says nothing of it, and the model reports it as a word of a failed
unit, with the cause as its code (DESIGN CHOICE, log 44). -/
def State.lostFill (s : State) (r : Rekey) (cause : Nat) (p : Word) : State :=
  s.post { code := cause, sev := 3, engine := 0, tenant := r.tenant, part := r.part, tile := r.tile, ptr := p, action := 24
           detail := wd cause }

/-- The completion word of the tenant that asked fills, once the tenant is switched in and the page is there. -/
def State.rekeyFill (s : State) (r : Rekey) (p : Word) : State :=
  let gone (s : State) : State := { s with rekeys := s.rekeys.erase r }
  if s.tables.any (fun x => x.1 == r.tenant) || Hold.waiting r.hold then s
  else if s.tenantIn r.tile r.part ≠ r.tenant then gone s
  else if Hold.lost r.hold then gone (s.lostFill r cPAGE_FAULT p)
  else
    let rank := some (unitRank r.tile)
    let s := s.portRead r.tile r.part p
    match s.reach r.tile r.part r.tenant p 8 needWS with
    | .error (.page f queued) =>
      let s := s.wantPage r.tile f queued
      { s with rekeys := s.rekeys.map (fun x => if x = r then { r with hold := f.held r.tile } else x) }
    | .error (.cause n q) => gone ((s.noteStop r.tile r.part r.tenant (.cause n q)).lostFill r n p)
    | .error .wait => s
    | .ok t =>
      if s.gated t.dpa rank then s
      else
        match s.tryFill t.dpa r.tenant r.part p 0 rank with
        | (some n, s) => gone (s.lostFill r n p)
        | (none, s) => gone s

/-- The old key is overwritten and the slot is ACTIVE again, and the next re-key of the window starts; the completion word follows. -/
def execRekeyComplete (slot : Nat) (s : State) : Out :=
  match s.rekeys.find? (fun r => r.slot == slot && r.started && !r.finished) with
  | none =>
    match s.rekeys.find? (fun r => r.slot == slot && r.finished) with
    | none => .next s
    | some r => .next (match r.done with
      | none => { s with rekeys := s.rekeys.erase r }
      | some p => s.rekeyFill r p).unstall
  | some r =>
    let size := match s.windows.find? (fun w => w.slot == slot) with
      | some w => w.size
      | none => 0
    if fld (s.kslotAt slot) 63 62 ≠ 2 then .next { s with rekeys := s.rekeys.erase r }
    else if r.next < size then .next s
    else
      let s := s.setKslot slot (keyState (s.kslotAt slot) 1)
      let s : State := { s with rekeys :=
        if r.done.isSome then s.rekeys.map (fun x => if x = r then { x with finished := true } else x) else s.rekeys.erase r }
      .next (s.startRekey slot).unstall

/-- Does a reference or an engine command under the slot remain? -/
def State.keyInUse (s : State) (slot : Nat) : Bool :=
  let w := s.kslotAt slot
  let tenant := fld w 59 44
  if fld w 61 60 = 1 then
    s.net.any (fun r => r.win && (match s.windowOf r.dpa with | some x => x.slot == slot | none => false))
      || s.waits.any (fun r => r.req.win && (match s.windowOf r.req.dpa with | some x => x.slot == slot | none => false))
  else
    s.net.any (fun r => r.tenant == tenant) || s.waits.any (fun r => r.req.tenant == tenant)
      || s.tiles.any (fun t => t.2.cq.any (fun c => c.tenant == tenant) || t.2.mq.any (fun m => m.tenant == tenant))

/-- The cryptographic erase (R120, R121). -/
def execKeyErase (slot : Nat) (s : State) : Out :=
  if fld (s.kslotAt slot) 63 62 = 3 ∧ s.keyInUse slot = false then
    let s := { s with windows := s.windows.filter (fun w => w.slot != slot), rekeys := s.rekeys.filter (fun r => r.slot != slot || r.finished) }
    .next (((s.nextKey (slotOwner slot (s.kslotAt slot))).setKslot slot 0).post
      { code := 0x010A, sev := 0, engine := 5, action := 21, detail := wd slot })
  else .next s

end Sys2Proof.Machine
end

