-- ==== Sys2Proof/Machine/EvEngine.lean ====
section
/-! DEFINITION. Events of the matrix array (R281, R282, R286), of the drains (R288) and of the copy engine (R300 to R306, R59);
format changes (R84); and engines out of service (R332). -/

namespace Sys2Proof.Machine

open Sys2Proof

/-! ### The array (R281, R282) -/

/-- Is the command held by a format change of its partition that was asked for before it (R84), or by a rotation (R176)? -/
def State.heldBack (s : State) (tile part id : Nat) : Bool :=
  s.handing part || (s.tileAt tile).formats.any (fun x => s.partOf x.1 == part && decide (x.2.2.2 < id))

def MForm.isDrain (f : MForm) : Bool := decide (f = .drain) || decide (f = .drainAdd)

/-- Does a vld that has issued still write the accumulator (R263, R273)? -/
def Tile.loadsRow (t : Tile) (a : Nat) : Bool := t.rows.any (fun x => x.acc == a)

/-- Does the array, a drain or a vld work on the accumulator (R263, R288)? -/
def Tile.workingOn (t : Tile) (a : Nat) : Bool :=
  t.mq.any (fun m => m.dst == a && (m.running || m.form.isDrain)) || t.loadsRow a

/-- Readiness of a command behind the commands `before`. -/
def State.matrixReady (s : State) (tile : Nat) (before : List MCmd) (m : MCmd) : Bool :=
  let t := s.tileAt tile
  !m.waits && !m.ghost && !m.stale && !m.running && !m.form.isDrain
    && m.expver == t.version m.dst && !t.workingOn m.dst
    && (decide (m.form ≠ .acopy) || (before.all (fun (x : MCmd) => x.ghost || x.dst != m.src) && !t.loadsRow m.src))
    && !s.heldBack tile m.part m.id

/-- The oldest command that `p` accepts, given those before it. -/
def firstCmd (p : List MCmd → MCmd → Bool) : List MCmd → List MCmd → Option MCmd
  | _, [] => none
  | before, m :: ms => if p before m then some m else firstCmd p (before ++ [m]) ms

/-- A command starts: mma.z zeroes its destination (R283), acopy copies (R289). One that no longer passes the checks of its issue, after
a format change, acts as a stale one. -/
def State.startCmd (s : State) (tile : Nat) (m : MCmd) : State :=
  let run (s : State) (left : Nat) : State :=
    { s.bumpId with dataOld := s.dataOld.filter (fun x => dpaTile x.dpa != tile) }.updMatrix tile m.id
      (fun m => some { m with running := true, turn := s.freshId, chunk := 0, left := left })
  let t := s.tileAt tile
  if m.form = .acopy then run (s.runAcopy tile m) 0
  else if (t.descFault m.part m.dst m.form m.lo m.hi).isSome then s.updMatrix tile m.id (fun m => some { m with stale := true })
  else run (if m.form = .z then s.setTileAt tile (t.setAcc m.dst (fun _ _ => (0, false))) else s) (m.chunks t)

/-- The oldest ready command, where the array is free. -/
def State.nextCmd (s : State) (tile : Nat) : Option MCmd :=
  let t := s.tileAt tile
  if t.clocked && !t.matrixDown && t.inArray.isNone then firstCmd (s.matrixReady tile) [] t.mq else none

/-- The array works: it takes the next chunk of the command that occupies it, or where it is free starts the oldest ready one.
Commands on different tiles overlap: the array is free while the results of those before are not complete yet. -/
def execMatrixStart (tile : Nat) (s : State) : Out :=
  let t := s.tileAt tile
  match (if t.clocked && !t.matrixDown then t.inArray else none) with
  | some m => .next (s.takeChunk tile m)
  | none =>
    match s.nextCmd tile with
    | none => .next s
    | some m => .next (s.startCmd tile m)

/-- The running command that started first, once the array has taken all its chunks. -/
def Tile.firstRunning (t : Tile) : Option MCmd :=
  t.mq.find? (fun m => m.running && decide (m.left = 0) && t.mq.all (fun (x : MCmd) => !x.running || decide (m.turn ≤ x.turn)))

/-- Every element of an accumulator poisoned with its value bits kept. -/
def State.poisonAcc (s : State) (tile a : Nat) : State :=
  let t := s.tileAt tile
  s.setTileAt tile (t.setAcc a (fun row i => ((t.lane a row i).1, true)))

/-- The record of a malformed mask (R91). -/
def maskRecord (tile : Nat) (m : MCmd) : RecordSpec :=
  { code := 0x0010, sev := 2, engine := 7, tenant := m.tenant, part := m.part, tile := tile, action := 6
    detail := wd (descAbank m.lo) }

/-- A result is complete 24 cycles after the array is free of it, so a command that is ready has started by then. After a malformed
mask every element is poisoned, and a record posted (R91). -/
def execMatrixComplete (tile : Nat) (s : State) : Out :=
  let t := s.tileAt tile
  match (if t.clocked && (s.nextCmd tile).isNone then t.firstRunning else none) with
  | none => .next s
  | some m =>
    let s := s.updMatrix tile m.id (fun _ => none)
    if m.badMask then .next (((s.poisonAcc tile m.dst).bumpVersion tile m.dst).post (maskRecord tile m))
    else .next (s.bumpVersion tile m.dst)

/-- Every element poisoned with its value bits kept, and the counter incremented (R282). -/
def State.spoilAcc (s : State) (tile a : Nat) : State := (s.poisonAcc tile a).bumpVersion tile a

/-- The record of a stale command, of a follow-on lost, or of a command of an array out of service. -/
def staleRecord (tile : Nat) (m : MCmd) (code sev detail : Nat) : RecordSpec :=
  { code := code, sev := sev, engine := 7, tenant := m.tenant, part := m.part, tile := tile, action := 6
    detail := wd detail }

def execStaleCommand (tile : Nat) (s : State) : Out :=
  let t := s.tileAt tile
  let oldest (before : List MCmd) (m : MCmd) : Bool :=
    m.stale && before.all (fun (x : MCmd) => x.ghost || x.dst != m.dst) && !s.heldBack tile m.part m.id
  match (if t.clocked then firstCmd oldest [] t.mq else none) with
  | none => .next s
  | some m =>
    let s := ((s.updMatrix tile m.id (fun _ => none)).spoilAcc tile m.dst)
    .next (s.post (staleRecord tile m m.staleCode 2 (if m.staleCode = cENGINE_FAULT then m.lost else m.expver.toNat)))

/-- An await whose deadline has passed traps (R286). -/
def execAwaitTimeout (ctx : Nat) (s : State) : Out :=
  match (s.ctxAt ctx).st with
  | .blocked (.await _ v (some d)) => s.when (decide (d ≤ s.cycle.toNat)) (s.trapAt ctx cWAIT_TIMEOUT (wd v))
  | _ => .next s

/-! ### Drains (R288) -/

/-- The copy engine's half of a drain, with the rows as the drain read them. -/
def MCmd.writes (m : MCmd) (t : Tile) : CCmd :=
  { id := m.id, form := if m.form = .drainAdd then .drainAdd else .drain, lo := {}, hi := ⟨m.lo, false⟩, done := m.done
    ctx := m.ctx, part := m.part, tenant := m.tenant, user := !houseSlot m.ctx
    st := if t.copyDown then .ending (copyStatus 1 cENGINE_FAULT 0) 0 else .queued
    rows := (List.range 64).flatMap (fun i => (List.range 64).map (fun n => t.lane m.dst i n)), atype := t.typeOf m.dst }

def State.drained (s : State) (tile : Nat) (m : MCmd) : State :=
  let t := s.tileAt tile
  s.setTileAt tile { t with mq := t.mq.filter (fun (x : MCmd) => x.id != m.id), cq := t.cq ++ [m.writes t] }

def execDrainRun (tile : Nat) (s : State) : Out :=
  let t := s.tileAt tile
  match (if t.clocked then t.mq.find? (fun m => m.form.isDrain && !t.loadsRow m.dst && !s.heldBack tile m.part m.id) else none) with
  | none => .next s
  | some m => .next ((s.drained tile m).bumpVersion tile m.dst)

/-! ### The copy engine: starting (R300, R297) -/

def CCmd.isRunning (c : CCmd) : Bool := decide (c.st = .running)
def Tile.copyFree (t : Tile) : Bool := decide ((t.cq.filter CCmd.isRunning).length < 8)

/-- One word of a record, read as a plain load. The spec names no point at which its poison would be consumed: the bits are used, and
those of a word in quarantine are a free value (DESIGN CHOICE, log 43). -/
def State.recordWord (s : State) (tile : Nat) (c : CCmd) (p : Word) : Except Stop Word × State :=
  let s := s.portRead tile c.part p
  let rank := some (unitRank tile)
  match s.reach tile c.part c.tenant p 8 needR with
  | .error x => (.error x, s)
  | .ok t =>
    match s.homeStop t.dpa false with
    | some cause => (.error (.cause cause p), s)
    | none =>
      if s.gated t.dpa rank then (.error .wait, s)
      else
        let s := s.openUnit t.dpa c.tenant c.part p false rank
        if s.quarantined t.dpa then (.ok (Sys2Proof.Config.freeWord s.free), s.bumpFree)
        else (.ok (s.word t.dpa), s)

def State.readRecord (s : State) (tile : Nat) (c : CCmd) (done : List Word) : List Word → Except Stop (List Word) × State
  | [] => (.ok done, s)
  | p :: ps =>
    match s.recordWord tile c p with
    | (.error x, s) => (.error x, s)
    | (.ok w, s) => s.readRecord tile c (done ++ [w]) ps

/-- Raw on either side, or the format that the form needs (R297). -/
def State.formOk (s : State) (tile : Nat) (c : CCmd) : Bool :=
  let (df, _, dz) := s.sideFmt tile c.dst
  match c.form with
  | .fill => true
  | .drain => df != fRAW || dz == (if c.atype = .bf16 then 2 else 4)
  | .drainAdd => df == fFP32
  | _ =>
    let (sf, _, sz) := s.sideFmt tile c.src
    recCount c.src == recCount c.dst && ((sf != fRAW && df != fRAW) || sz == dz)
      && (decide (c.form ≠ .add) || df == fFP32)
      && (decide (c.form ≠ .keep)
        || (!recLoft c.src && !recLoft c.dst && sf == fRAW && df == fRAW && sz == 8 && dz == 8))

/-- What R297 says of the records read. -/
def State.recordFault (s : State) (tile : Nat) (c : CCmd) : Option (Nat × Word) :=
  let mc := decide (c.form = .mc) || decide (c.form = .mmMc)
  let noSrc := decide (c.form = .fill) || decide (c.form = .drain) || decide (c.form = .drainAdd)
  if noSrc = false ∧ (recInvalid c.src false || !s.sideAligned tile c.src) = true then some (cILLEGAL_OPERAND, c.lo.v)
  else if recInvalid c.dst true || !s.sideAligned tile c.dst || (mc && ptrIdx (recBase c.dst) != 0x3FFFE) then
    some (cILLEGAL_OPERAND, c.hi.v)
  else if s.formOk tile c then none
  else some (cFORMAT_MISMATCH, c.hi.v)

/-- The command waits for a page (R59). -/
def State.suspend (s : State) (tile : Nat) (c : CCmd) (f : PortFault) (queued : Bool) (st : CState) : State :=
  let s := s.updCopy tile c.id (fun c => some { c with st := st, page := some f, rewalk := none })
  if queued then s.setTileAt tile ((s.tileAt tile).addFault f) else s

/-- A failure at a record. -/
def State.recordEnd (s : State) (tile : Nat) (c : CCmd) (cause : Nat) (ptr : Word) : State :=
  s.endCopy tile c (copyStatus 1 cause allOnes48) ptr

def CCmd.noSource (c : CCmd) : Bool :=
  match c.form with
  | .fill => true
  | .drain => true
  | .drainAdd => true
  | _ => false

/-- Both records are read, and the walk can begin. -/
def State.beginCopy (s : State) (tile : Nat) (c : CCmd) : State :=
  let srcPtrs := if c.noSource then [] else wordsFrom c.lo.v 8
  match s.readRecord tile c [] (srcPtrs ++ wordsFrom c.hi.v 8) with
  | (.error (.cause n p), s) => (s.noteStop tile c.part c.tenant (.cause n p)).recordEnd tile c n p
  | (.error (.page f queued), s) => s.suspend tile c f queued .suspended
  | (.error .wait, s) => s
  | (.ok ws, s) =>
    let c := { c with st := .running, src := ws.take (ws.length - 8), dst := ws.drop (ws.length - 8), page := none, rewalk := none }
    let s := s.updCopy tile c.id (fun _ => some c)
    match s.recordFault tile c with
    | some (cause, p) => s.recordEnd tile c cause p
    | none => s

/-- The first queued command that no format change holds starts. -/
def execCopyStart (tile : Nat) (s : State) : Out :=
  let t := s.tileAt tile
  if t.clocked = false ∨ t.copyFree = false then .next s
  else
    match t.cq.find? (fun c => decide (c.st = .queued) && !s.heldBack tile c.part c.id) with
    | none => .next s
    | some c => .next (s.beginCopy tile c).unstall

/-- A suspended command goes on at its element once the page request is over. -/
def execCopyResume (tile k : Nat) (s : State) : Out :=
  let t := s.tileAt tile
  match t.cq[k]? with
  | none => .next s
  | some c =>
    if c.st = .suspended ∧ c.page = none ∧ t.clocked = true ∧ t.copyFree = true ∧ s.handing c.part = false then
      .next (if c.dst = [] then s.beginCopy tile c
        else s.updCopy tile c.id (fun c => some { c with st := .running })).unstall
    else .next s

/-! ### Elements and the end (R300 to R306) -/

def CCmd.count (c : CCmd) : Nat :=
  match c.form with
  | .drain => 64 * c.atype.lanes
  | .drainAdd => 64 * c.atype.lanes
  | _ => recCount c.dst

/-- One element, or the reason why the command stops or waits at it. A write that has waited for its tile comes first. -/
def execCopyElement (tile k : Nat) (s : State) : Out :=
  let t := s.tileAt tile
  match t.cq[k]? with
  | none => .next s
  | some c =>
    match s.lateDue tile c with
    | some l => .next (s.lateWrite tile c l).unstall
    | none =>
      if c.st = .running ∧ c.pos < c.count ∧ t.clocked = true ∧ s.handing c.part = false then
        match s.copyElem tile c with
        | (.ok _, s) => .next s.unstall
        | (.error (.cause n p), s) =>
          .next ((s.noteStop tile c.part c.tenant (.cause n p)).endCopy tile c (copyStatus 1 n c.pos) p).unstall
        | (.error (.page f queued), s) => .next (s.suspend tile c f queued .suspended)
        | (.error .wait, _) => .next s
      else .next s

/-- The next element is read, and its writes are sent for later (R300): what the package chooses of itself, it performs at once (log 3). -/
def State.copyAhead (s : State) (tile k : Nat) : State :=
  let t := s.tileAt tile
  match t.cq[k]? with
  | none => s
  | some c =>
    if c.st = .running ∧ c.pos < c.count ∧ t.clocked = true ∧ s.handing c.part = false then
      match s.copyElem tile c false with
      | (.ok _, s) => s.unstall
      | _ => s
    else s

/-- The oldest write of a command to one home is performed. -/
def State.copyBehind (s : State) (tile k home : Nat) : State :=
  match (s.tileAt tile).cq[k]? with
  | none => s
  | some c =>
    match s.lateDue tile c (some home) with
    | none => s
    | some l => (s.lateWrite tile c l).unstall

def listMin (l : List Nat) : Nat := l.foldl (fun (m : Nat) x => min m x) (l.headD 0)

/-- How the command ends, every write being performed: its status and the failing pointer. -/
def CCmd.fate (c : CCmd) : Option (Word × Word) :=
  if c.late = [] then
    match c.st with
    | .ending status ptr => some (status, ptr)
    | .running =>
      if c.pos < c.count then none
      else if c.skipped = [] then some (0, 0)
      else some (copyStatus 1 cDEAD_TARGET (listMin c.skipped), 0)
    | _ => none
  else none

/-- The message of cpy.send (R306). -/
def State.copyMsg (s : State) (tile : Nat) (c : CCmd) (status : Word) : State :=
  if c.form = .send then
    let m : Msg :=
      { id := s.freshId, dst := fld c.target 21 12
        table := c.part
        type := BitVec.ofNat 8 (fld c.target 7 0), m0 := status, m1 := c.done.getD 0, coord := BitVec.allOnes 64
        src := tile, tenant := c.tenant, user := c.user, origin := .copy tile, target := c.target
        away := bit c.target 30 && fld c.target 29 22 != s.package.toNat }
    { s.bumpId with msgs := s.msgs ++ [m] }
  else s

/-- The own follow-on of a copy whose writes are performed becomes ready, and a ghost is released (R303). -/
def State.freeFollow (s : State) (tile : Nat) (c : CCmd) : State :=
  match c.follow with
  | none => s
  | some id => s.updMatrix tile id (fun (m : MCmd) => if m.ghost then none else some { m with waits := false })

/-- Is the walk over, in tile `t` as in every tile that takes its elements at once? -/
def CCmd.over_ (c : CCmd) (t : Nat) : Bool :=
  !c.dst.isEmpty && decide (c.count ≤ c.pos) && !c.skipped.contains t && !c.late.any (fun l => l.tile == t)

/-- Did every element reach the tiles that took part? -/
def CCmd.walked (c : CCmd) : Bool := decide (c.st = .running) && decide (c.count ≤ c.pos) && c.late.isEmpty

/-- Tiles other than the issuing one whose writes are all performed and whose follow-on has not been queued yet (R303). -/
def CCmd.unsent (c : CCmd) (tile : Nat) : List Nat :=
  if c.form = .mmMc then (c.targets tile).filter (fun t => t != tile && !c.fsent.contains t && c.over_ t) else []

/-- The command's end, after the fill: record, message, follow-ons, and the entry is freed. -/
def State.closeCopy (s : State) (tile : Nat) (c : CCmd) (status ptr : Word) : State :=
  let s :=
    if fld status 63 62 = 1 then
      s.post
        { code := 0x0016, sev := if fld status 55 48 = cENGINE_FAULT then 4 else 2, engine := 6, tenant := c.tenant
          part := c.part, tile := tile, ptr := ptr, action := 10, detail := wd (fld status 55 48) }
    else s
  let s := s.copyMsg tile c status
  let s := if c.walked then s.freeFollow tile c else s
  if c.unsent tile = [] then s.updCopy tile c.id (fun _ => none)
  else s.updCopy tile c.id (fun x => some { x with st := .filled, rows := [], rewalk := none })

/-- A completion word that cannot be filled, of a command whose end posts no record otherwise (R2): the spec gives it no record of its own,
and the model posts that of a failed command with the cause of the fill (DESIGN CHOICE, log 44). -/
def State.fillLost (s : State) (tile : Nat) (c : CCmd) (status ptr : Word) : Option Nat → State
  | none => s
  | some cause =>
    if fld status 63 62 = 1 then s
    else
      s.post { code := 0x0016, sev := 2, engine := 6, tenant := c.tenant, part := c.part, tile := tile, ptr := ptr, action := 10
               detail := wd cause }

/-- The completion word is filled with the status, at its home. A word that no longer passes its checks, or whose home is dead or
quarantined, stays as it is. -/
def execCopyComplete (tile k : Nat) (s : State) : Out :=
  let t := s.tileAt tile
  match t.cq[k]? with
  | none => .next s
  | some c =>
    match (if t.clocked && decide (c.page = none) && !s.handing c.part then c.fate else none) with
    | none => .next s
    | some (status, ptr) =>
      match c.done with
      | none => .next (s.closeCopy tile c status ptr).unstall
      | some p =>
        let s := s.portRead tile c.part p
        match s.reach tile c.part c.tenant p 8 needWS with
        | .ok x =>
          let rank := some (unitRank tile)
          if s.gated x.dpa rank then .next s
          else
            let (e, s) := s.tryFill x.dpa c.tenant c.part p status rank
            .next ((s.fillLost tile c status p e).closeCopy tile c status ptr).unstall
        | .error (.page f queued) =>
          let s := if c.walked then s.freeFollow tile c else s
          .next (s.suspend tile c f queued (.ending status ptr))
        | .error (.cause n q) =>
          .next (((s.noteStop tile c.part c.tenant (.cause n q)).fillLost tile c status p (some n)).closeCopy tile c status ptr).unstall
        | .error .wait => .next s

/-- The follow-on of one tile (R303): ready in the issuing tile, or queued in another one. -/
def State.queueFollow (s : State) (tile : Nat) (c : CCmd) (dst : Nat) : State :=
  let t := s.tileAt dst
  let sent (s : State) : State :=
    s.updCopy tile c.id (fun x =>
      let x := { x with fsent := x.fsent ++ [dst] }
      if x.st = .filled ∧ x.unsent tile = [] then none else some x)
  if dst = tile then sent (s.freeFollow tile c)
  else if t.running = false then sent s
  else
    let m : MCmd :=
      { id := s.freshId, form := c.fform, dst := c.facc, lo := c.fdesc.1, hi := c.fdesc.2, expver := descExpver c.fdesc.1
        part := c.part, tenant := c.tenant, ctx := c.ctx
        stale := t.matrixDown || (t.descFault c.part c.facc c.fform c.fdesc.1 c.fdesc.2).isSome
        staleCode := if t.matrixDown then cENGINE_FAULT else cVERSION_RANGE, lost := if t.matrixDown then cENGINE_FAULT else 0 }
    sent (s.bumpId.setTileAt dst { t with mq := t.mq ++ [m] })

/-- The copy engine of the issuing tile queues a follow-on in a tile whose array is clocked (R11, R23). -/
def execFollowOnReady (tile k dst : Nat) (s : State) : Out :=
  match (s.tileAt tile).cq[k]? with
  | none => .next s
  | some c =>
    let t := s.tileAt dst
    let due :=
      if dst = tile then !c.fsent.contains dst && (c.targets tile).contains dst && decide (c.st = .running) && c.over_ tile
      else (c.unsent tile).contains dst
    if (s.tileAt tile).clocked && c.follow.isSome && due && !s.handing c.part
        && (dst == tile || !t.running || (t.clocked && decide (t.mq.length < 32))) then
      .next (s.queueFollow tile c dst)
    else .next s

/-! ### Format changes (R84) -/

/-- A service returns: g4 takes its result, and g5 a value where there is one; the context goes on after its trap (R320). -/
def State.serviceReturn (s : State) (ctx code : Nat) (g5 : Option Word) : State :=
  let c := (s.ctxAt ctx).setG 4 ⟨wd code, false⟩
  let c := match g5 with
    | some v => c.setG 5 ⟨v, false⟩
    | none => c
  s.setCtxAt ctx { c.advance 4 with st := .ready }

/-- Every command of the partition that was there before the change has ended. -/
def State.formatDue (s : State) (tile ctx n : Nat) : Bool :=
  let t := s.tileAt tile
  let part := s.partOf ctx
  t.mq.all (fun (m : MCmd) => m.part != part || decide (n < m.id))
    && t.cq.all (fun (c : CCmd) => c.part != part || decide (n < c.id) || !c.holds)

/-- The change is made, and the service returns 0 (R320). -/
def execLoftFormatApply (ctx : Nat) (s : State) : Out :=
  let tile := tileOf ctx
  let t := s.tileAt tile
  match t.formats.find? (fun x => x.1 == ctx) with
  | none => .next s
  | some x =>
    if s.formatDue tile ctx x.2.2.2 && t.clocked then
      let s := s.setTileAt tile
        { t with
          formats := t.formats.filter (fun y => y.1 != ctx)
          fmt := Map.set fmtReset t.fmt x.2.1 x.2.2.1 }
      .next (s.serviceReturn ctx 0 none)
    else .next s

/-! ### Engines out of service (R332) -/

/-- Copy commands end as a fault with cause ENGINE_FAULT. -/
def State.copyOut (s : State) (tile : Nat) : State :=
  let t := s.tileAt tile
  t.cq.foldl (fun (s : State) (c : CCmd) =>
    match c.st with
    | .ending _ _ => s
    | .filled => s
    | _ => s.endCopy tile c (copyStatus 1 cENGINE_FAULT c.pos) 0) (s.setTileAt tile { t with copyDown := true })

/-- Matrix commands complete poisoned; a drain's copy half ends as a fault. -/
def State.matrixOut (s : State) (tile : Nat) : State :=
  let t := s.tileAt tile
  t.mq.foldl (fun (s : State) (m : MCmd) =>
    let s := s.updMatrix tile m.id (fun _ => none)
    if m.ghost then s
    else
      let s :=
        if m.form.isDrain then
          let t := s.tileAt tile
          s.setTileAt tile
            { t with cq := t.cq ++ [{ m.writes t with st := .ending (copyStatus 1 cENGINE_FAULT 0) 0, rows := [] }] }
        else s
      (s.spoilAcc tile m.dst).post (staleRecord tile m cENGINE_FAULT 4 cENGINE_FAULT))
    (s.setTileAt tile { t with matrixDown := true })

def execEngineOutOfService (tile : Nat) (copy : Bool) (s : State) : Out :=
  if (s.tileAt tile).running then .next (if copy then s.copyOut tile else s.matrixOut tile).unstall else .next s

/-- The self-test is over; a tile that is not fenced has its engines back. -/
def execEngineSelfTestEnd (tile : Nat) (s : State) : Out :=
  let t := s.tileAt tile
  if t.herd.fenced then .next s
  else .next (s.setTileAt tile { t with copyDown := false, matrixDown := false }).unstall

end Sys2Proof.Machine
end

