-- ==== Sys2Proof/Machine/EvTask.lean ====
section
/-! DEFINITION. Events of Carousel (R147 to R151), of the deque units (R154, R156, R158 to R161, R238, R239), of Trapeze (R163,
R164), of the message units (R246, R247), of the barrier units (R169), and of firmware on one context (R318, R320, R321). -/

namespace Sys2Proof.Machine

open Sys2Proof

/-! ### Checks by a unit -/

/-- The targets of a list of words that a unit names, or the first that stops it. -/
def State.unitList (s : State) (tile part tenant : Nat) (need : Need) : List Word → Except Stop (List Target)
  | [] => .ok []
  | p :: ps =>
    match s.reach tile part tenant p 8 need with
    | .error x => .error x
    | .ok t =>
      match s.unitList tile part tenant need ps with
      | .error x => .error x
      | .ok ts => .ok (t :: ts)

/-- The same for a unit of a tile: the entries and table words are read through the tile's port, and a malformed one is recorded. -/
def State.unitReads (s : State) (tile part tenant : Nat) (need : Need) (ps : List Word) : Except Stop (List Target) × State :=
  let s := ps.foldl (fun (s : State) p => s.portRead tile part p) s
  match s.unitList tile part tenant need ps with
  | .error x => (.error x, s.noteStop tile part tenant x)
  | .ok ts => (.ok ts, s)

/-! ### Carousel (R148 to R151) -/

/-- Has the slot left the ones that a tyield waits for behind it (R241)? -/
def State.yielded (s : State) (tile : Nat) (c : Ctx) : Bool :=
  c.yield_.all (fun sl => decide ((s.ctxAt (ctxId tile sl)).st ≠ .ready))

/-- Have the slots that were woken at the port before it issued (R57)? -/
def State.wokenFirst (s : State) (tile : Nat) (c : Ctx) : Bool :=
  c.after.all (fun sl => decide ((s.ctxAt (ctxId tile sl)).st ≠ .ready))

/-- May the slot issue in this cycle? One that a rotation has handed over waits for the loft: a tenant's spaces are restored before its
first slot issues (R82). -/
def State.eligible (s : State) (tile slot : Nat) : Bool :=
  let c := s.ctxAt (ctxId tile slot)
  decide (c.st = .ready) && c.spaced (s.tileAt tile) s.cycle.toNat && s.yielded tile c && s.wokenFirst tile c
    && !s.rotations.any (fun r => r.part == (s.tileAt tile).partOf slot && !r.left.contains (ctxId tile slot))

def Tile.weight (t : Tile) (p : Nat) : Nat :=
  let w := fld (t.pcfgAt p) 43 36
  if w = 0 then 1 else w

def Tile.firstSlot (t : Tile) (p : Nat) : Nat := if p = 16 then 504 else fld (t.pcfgAt p) 62 54
def Tile.slotCount (t : Tile) (p : Nat) : Nat := if p = 16 then 8 else fld (t.pcfgAt p) 53 44

/-- The eligible slots of partition p, in the order of its round-robin pointer. -/
def State.candidates (s : State) (tile p : Nat) : List Nat :=
  let t := s.tileAt tile
  let first := t.firstSlot p
  let n := t.slotCount p
  let start := Map.get t.firstSlot t.rr p - first
  if t.owns p first = false then []
  else ((List.range n).map (fun j => first + (start + j) % n)).filter (fun sl => sl < 512 && s.eligible tile sl)

/-- The partition with the largest deficit; ties go to the lowest. -/
def bestPart (d : Nat → Int) : List Nat → Option Nat
  | [] => none
  | p :: ps =>
    match bestPart d ps with
    | none => some p
    | some q => if d q > d p then some q else some p

/-- Has the tile issued in this cycle already? -/
def State.issued (s : State) (tile : Nat) : Bool :=
  s.ctxs.any (fun x => tileOf x.1 == tile && x.2.lastIssue == some s.cycle.toNat)

/-- R151 for one tile in one cycle: the context that issues next is `cur`. A slot that a rotation takes out spends the turn entering
SWAPPING (R175). -/
def State.carousel (s : State) (tile : Nat) : State :=
  let t := s.tileAt tile
  let e := (List.range 17).filter (fun p => !(s.candidates tile p).isEmpty)
  let add (p : Nat) : Int := Map.get (fun _ => 0) t.deficit p + (t.weight p : Nat)
  match bestPart add e with
  | none => s.setTileAt tile { t with deficit := [] }
  | some q =>
    let sum := e.foldl (fun (n : Nat) p => n + t.weight p) 0
    let deficit := e.foldl (fun (m : Map Int) p =>
      Map.set (fun _ => 0) m p (if p = q then add p - (sum : Nat) else add p)) []
    let slot := (s.candidates tile q).headD 0
    let first := t.firstSlot q
    let next := first + (slot + 1 - first) % t.slotCount q
    let id := ctxId tile slot
    let s := s.setTileAt tile { t with deficit := deficit, rr := Map.set t.firstSlot t.rr q next }
    let s := s.mapCtxs (fun k c =>
      if tileOf k = tile then
        { c with yield_ := c.yield_.filter (fun x => x != slot && s.eligible tile x), after := c.after.filter (fun x => x != slot) }
      else c)
    let c := { s.ctxAt id with lastIssue := some s.cycle.toNat, lastTurn := t.cyclesAt s.cycle.toNat, yield_ := [], after := [], rewalk := none }
    if s.rotations.any (fun r => r.left.contains id) then s.setCtxAt id { c with st := .swapping }
    else { s.setCtxAt id c with cur := id, issuing := true }

def execCarouselIssue (tile : Nat) (s : State) : Out :=
  let t := s.tileAt tile
  if s.issuing || !t.clocked || !t.point.ticks s.cycle.toNat || s.issued tile || decide (1024 ≤ tile) then .next s
  else .next (s.carousel tile)

/-! ### Claims (R156, R159) -/

/-- The tenant that a slot works for: the outgoing one, until a rotation has taken the slot (R175). -/
def State.tenantFor (s : State) (ctx : Nat) : Nat :=
  let part := s.partOf ctx
  match s.rotations.find? (fun r => r.part == part && r.left.contains ctx) with
  | some r => r.outgoing
  | none => (s.tileAt (tileOf ctx)).tenantOf part

/-- The tenant whose deque a partition has in a tile: the outgoing one's, until a rotation hands the tile over. -/
def State.dequeTenant (s : State) (tile part : Nat) : Nat :=
  match s.rotations.find? (fun r => r.part == part && r.tiles.contains tile) with
  | some r => r.outgoing
  | none => (s.tileAt tile).tenantOf part

/-- The claim of a frame for a slot leaves for the frame's home. -/
def State.claimFor (s : State) (ctx : Nat) (f : Word) (stolen : Bool) : Except Stop Unit × State :=
  let tile := tileOf ctx
  let part := s.partOf ctx
  let tenant := s.tenantFor ctx
  match s.unitReads tile part tenant needRWS [padd f 8] with
  | (.error x, s) => (.error x, s)
  | (.ok ts, s) =>
    let t := ts.headD { dpa := 0 }
    let r : Req :=
      { id := s.freshId, src := tile, slot := slotOf ctx, op := .claim, dpa := t.dpa, ptr := f, tenant := tenant
        part := part, win := t.win, key := t.key, gen := t.gen }
    (.ok (), { s.bumpId with net := s.net ++ [r] }.setCtxAt ctx { s.ctxAt ctx with st := .blocked (.claim stolen), hold := none })

/-- Is a message of the slot's class queued in its tile (R246)? -/
def Tile.queuedFor (t : Tile) (part : Nat) : Bool := t.inbox.any (fun m => m.table == part)

/-- May the deque unit use the slot? -/
def State.takesWork (s : State) (ctx : Nat) : Bool :=
  let t := s.tileAt (tileOf ctx)
  let part := s.partOf ctx
  decide ((s.ctxAt ctx).st = .idle) && t.clocked && decide (part ≤ 16) && !t.queuedFor part
    && !s.turning part

/-- A failed attempt to steal: the slot is IDLE again, and after 64 of them the unit waits. -/
def State.stealFails (s : State) (ctx : Nat) : State :=
  let tile := tileOf ctx
  let part := s.partOf ctx
  let d := (s.tileAt tile).dequeAt part
  ((s.setDeque tile part
      { d with
        failed := (d.failed + 1) % 64, wait := if d.failed + 1 = 64 then some (s.cycle.toNat + 4096) else d.wait }).setCtxAt ctx
    { s.ctxAt ctx with st := .idle, hold := none }).unstall

/-- A slot that has no frame after all is IDLE again. -/
def State.noFrame (s : State) (ctx : Nat) (stolen : Bool) : State :=
  if stolen then s.stealFails ctx else (s.setCtxAt ctx { s.ctxAt ctx with st := .idle, hold := none }).unstall

/-- The next step of an entry that has been taken. Its claim leaves; or it waits for the page of the frame's state word (R54). A frame that
fails the checks of that word is dropped, with a record: the spec drops an entry for a claim that fails, and says nothing of this
case (DESIGN CHOICE, log 44). -/
def State.claimStep (s : State) (ctx : Nat) (f : Word) (stolen : Bool) : State :=
  let c := s.ctxAt ctx
  let later (s : State) (h : Option Hold) : State := s.setCtxAt ctx { c with st := .blocked (.claiming f stolen), hold := h }
  let drop (s : State) (cause : Nat) : State :=
    (s.post
      { code := cause, sev := 3, engine := 0, tenant := s.tenantFor ctx, part := s.partOf ctx, ctx := some ctx, frame := f
        ptr := padd f 8, action := 8, detail := wd cause }).noFrame ctx stolen
  if Hold.lost c.hold then drop s cPAGE_FAULT
  else
    match s.claimFor ctx f stolen with
    | (.ok _, s) => s
    | (.error (.page fault queued), s) => later (s.wantPage (tileOf ctx) fault queued) (fault.held (tileOf ctx))
    | (.error .wait, s) => later s none
    | (.error (.cause n _), s) => drop s n

/-- An entry that waits goes on once its page has been looked up again. -/
def State.claimOn (s : State) (ctx : Nat) (f : Word) (stolen : Bool) : Out :=
  s.when ((s.tileAt (tileOf ctx)).clocked && !Hold.waiting (s.ctxAt ctx).hold) (s.claimStep ctx f stolen).unstall

/-- The entry before TAIL is taken and claimed. -/
def execPop (ctx : Nat) (s : State) : Out :=
  let tile := tileOf ctx
  let part := s.partOf ctx
  match (s.ctxAt ctx).st with
  | .blocked (.claiming f false) => s.claimOn ctx f false
  | _ =>
    if s.takesWork ctx = false then .next s
    else
      let (d, got) := ((s.tileAt tile).dequeAt part).pop
      match got with
      | none => .next (s.setDeque tile part d)
      | some f => .next ((s.setDeque tile part d).claimStep ctx f false).unstall

/-- The frame of a claim ends as an unhandled escalated trap ends it: w2 failed the checks of R179. -/
def State.startFails (s : State) (ctx : Nat) (r : Req) (cause : Nat) (w2 : Word) : State :=
  let f := r.ptr
  let s := match s.closeFrame r.dpa (tileOf ctx) (slotOf ctx) 4 ⟨f, true⟩ with
    | some s' => s'
    | none => s
  let c := s.ctxAt ctx
  let s := s.post
    { s.endRecord ctx cause f w2 (wd (cause + fld w2 17 0 * 2 ^ 8 + 2 ^ 26)) 8 with tenant := r.tenant }
  (s.setCtxAt ctx c.giveBack).unstall

/-- An entry that starts ends the steal: the next one counts its attempts from 0. -/
def State.stealDone (s : State) (ctx : Nat) (stolen : Bool) : State :=
  if stolen then
    let d := (s.tileAt (tileOf ctx)).dequeAt (s.partOf ctx)
    s.setDeque (tileOf ctx) (s.partOf ctx) { d with attempts := 0, failed := 0 }
  else s

/-- The reply of a claim (R156, R159): the frame starts, with an ifence (R104), or the slot is IDLE again; a stolen entry whose claim fails
is a failed attempt (R160). -/
def execFrameStart (k : Nat) (s : State) : Out :=
  match s.replies[k]? with
  | none => .next s
  | some x =>
    let ctx := ctxId x.req.src x.req.slot
    let t := s.tileAt x.req.src
    if x.isClaim = false ∨ t.point = .g ∨ s.replyFirst k x = false then .next s
    else
      let s := { s with replies := s.replies.eraseIdx k }
      let c := s.ctxAt ctx
      match c.st with
      | .blocked (.claim stolen) =>
        (match x.ans with
          | .claimed ws =>
            let w2 := (ws.getD 0 {}).v
            let s := s.stealDone ctx stolen
            (match targetFault w2 with
              | some cause => .next (s.startFails ctx x.req cause w2)
              | none =>
                let c := { c with tenant := BitVec.ofNat 16 x.req.tenant }
                .next (s.setCtxAt ctx
                  { (c.start w2).frameArgs x.req.ptr (ws.drop 1) with own := x.req.ptr, fenced := s.codeOld.length }))
          | _ => .next (s.noFrame ctx stolen))
      | _ => .next s

/-! ### Stealing (R160, R161) -/

/-- Where attempt `k` goes. -/
def victimOf (own k : Nat) : Nat :=
  if k < 63 then own / 64 * 64 + (own + 1 + 13 * k) % 64 else (own + 1 + 397 * (k - 63)) % 1024

/-- The next attempt that does not name the own tile; after attempt 1085 the count starts again (log 4). -/
def nextAttempt (own k : Nat) : Nat :=
  let k := if 1086 ≤ k then 0 else k
  if victimOf own k = own then (if 1086 ≤ k + 1 then 0 else k + 1) else k

def execStealAttempt (ctx : Nat) (s : State) : Out :=
  let tile := tileOf ctx
  let part := s.partOf ctx
  let d := (s.tileAt tile).dequeAt part
  let waits := match d.wait with
    | some n => decide (s.cycle.toNat < n)
    | none => false
  if s.takesWork ctx && d.count == 0 && !waits then
    let k := nextAttempt tile d.attempts
    .next ((s.setDeque tile part { d with attempts := k + 1 }).setCtxAt ctx
      { s.ctxAt ctx with st := .blocked (.steal (victimOf tile k)) })
  else .next s

/-- Does an IDLE slot of the victim take the last entry in this cycle (R161)? -/
def State.ownerFirst (s : State) (victim part : Nat) : Bool :=
  let d := (s.tileAt victim).dequeAt part
  decide ((d.entries.filter (fun e => decide (e.st ≠ .void))).length = 1)
    && (d.entries.any (fun e => decide (e.st = .visible)))
    && (List.range 512).any (fun sl => (s.tileAt victim).partOf sl == part && s.takesWork (ctxId victim sl))

/-- The deque unit of a tile among the places that serve requests in a cycle: thieves rank as requesters do (R65, R161). -/
def dequeUnit (tile : Nat) : Nat := 2 ^ 30 + tile

/-- The victim gives up the entry at HEAD, and the thief claims it. A victim at G answers when it is back (R23). -/
def execStealAnswer (ctx : Nat) (s : State) : Out :=
  let tile := tileOf ctx
  let part := s.partOf ctx
  match (s.ctxAt ctx).st with
  | .blocked (.claiming f true) => s.claimOn ctx f true
  | .blocked (.steal victim) =>
    let v := s.tileAt victim
    let rank := tile * 1024 + slotOf ctx
    if !v.running || s.dequeTenant victim part != s.tenantFor ctx then .next (s.stealFails ctx)
    else if v.point = .g ∨ (s.tileAt tile).point = .g ∨ s.ownerFirst victim part = true
        ∨ s.served.any (fun x => x.1 == dequeUnit victim && decide (rank < x.2)) = true then .next s
    else
      let (d, got) := (v.dequeAt part).give
      let s' := { s.setDeque victim part d with served := s.served ++ [(dequeUnit victim, rank)] }
      match got with
      | none => .next (s'.stealFails ctx)
      | some f => .next (s'.claimStep ctx f true).unstall
  | _ => .next s

/-- The wait after 64 failed attempts is over. -/
def execStealBackoff (tile part : Nat) (s : State) : Out :=
  let d := (s.tileAt tile).dequeAt part
  match d.wait with
  | some n => s.when (decide (n ≤ s.cycle.toNat)) (s.setDeque tile part { d with wait := none })
  | none => .next s

/-! ### Marks (R154) -/

/-- The state word after a mark, or none where its cas fails. -/
def markWord (old : Word) (tile slot : Nat) (parked : Option (Nat × Nat × Bool × Nat)) : Option Word :=
  let fits := bit old 63 && swTile old == tile && swSlot old == slot
  match parked with
  | some (pkg, wtile, loft, entry) =>
    if fits && swState old == 1 then
      some (wd (fld old 63 63 * 2 ^ 63 + 2 * 2 ^ 60 + fld old 59 37 * 2 ^ 37 + pkg % 256 * 2 ^ 29 + wtile % 1024 * 2 ^ 19
        + b2n loft * 2 ^ 18 + entry % 2 ^ 11))
    else none
  | none => if fits && swState old == 2 then some (swWith old 1) else none

def execStateMark (k : Nat) (s : State) : Out :=
  match s.marks[k]? with
  | none => .next s
  | some m =>
    let tile := tileOf m.ctx
    let part := s.partOf m.ctx
    let rank := some (unitRank tile)
    if (s.marks.take k).any (fun (x : Mark) => tileOf x.ctx == tile) ∨ (s.tileAt tile).clocked = false ∨ Hold.waiting m.hold = true
    then .next s
    else if Hold.lost m.hold then .next ({ s with marks := s.marks.eraseIdx k } : State).unstall
    else
      let (x, s) := s.unitReads tile part m.tenant needWS [padd m.frame 8]
      let done := { s with marks := s.marks.eraseIdx k }
      match x with
      | .error (.page f queued) =>
        .next { s.wantPage tile f queued with marks := s.marks.set k { m with hold := f.held tile } }
      | .error .wait => .next s
      | .error (.cause _ _) => .next done.unstall
      | .ok ts =>
        let t := ts.headD { dpa := 0 }
        if s.gated t.dpa rank then .next s
        else
          let s := done.openUnit t.dpa m.tenant part m.frame false rank
          let w := s.gval t.dpa
          if s.quarantined t.dpa || w.p || (s.homeStop t.dpa true).isSome then .next s.unstall
          else
            match markWord w.v tile (slotOf m.ctx) m.parked with
            | none => .next s.unstall
            | some v => .next (s.deviceWrite t.dpa v).unstall

/-! ### spawn at its homes (R238, R239) -/

def Deque.push (d : Deque) (id : Nat) (f : Word) : Deque := (d.reserve id f).mark id .visible

/-- The word of the ring in memory that an entry stands in as well once it is visible (R158). The unit holds the entries between HEAD and
TAIL itself; a ring that DQBASE does not reach holds none of them (DESIGN CHOICE, log 8). -/
def State.ringPlace (s : State) (tile part tenant : Nat) (p : Word) (lost : Bool := false) : Except Stop (Option Nat) × State :=
  if lost then (.ok none, s)
  else
    match s.unitReads tile part tenant { w := true } [p] with
    | (.error (.cause _ _), s) => (.ok none, s)
    | (.error x, s) => (.error x, s)
    | (.ok ts, s) =>
      let d := (ts.headD { dpa := 0 }).dpa
      if s.gated d (some (unitRank tile)) then (.error .wait, s) else (.ok (some d), s)

/-- One store of a unit, the line being open. -/
def State.unitStore (s : State) (d : Nat) (v : GVal) : State := (s.putValue d 8 v).wroteEvent d

/-- The frame pointer is stored there, where the home can take it. -/
def State.ringStore (s : State) (tile part tenant : Nat) (p f : Word) (place : Option Nat) : State :=
  match place with
  | none => s
  | some d =>
    if (s.homeStop d true).isSome then s
    else
      let s := s.openUnit d tenant part p true (some (unitRank tile))
      if s.quarantined d then s else s.unitStore d ⟨f, false⟩

/-- The release part at the frame's home, as one atomic pair. -/
def State.spawnHome (s : State) (r : Req) (dest part entry : Nat) : State :=
  let d := (s.tileAt dest).dequeAt part
  let w := s.gval r.dpa
  if bit w.v 63 && (swState w.v == 1 || swState w.v == 2) then
    (s.setDeque dest part (d.mark entry .void)).post
      { code := 0x0002, sev := 2, engine := 0, tenant := r.tenant, part := r.part
        ctx := if r.slot < 512 then some (ctxId r.src r.slot) else none, tile := r.src, frame := r.ptr, action := 26
        detail := w.v }
  else
    let s := (s.deviceWrite r.dpa (swUnstarted w.v)).emptied (r.dpa - 8)
    s.setDeque dest part ((s.tileAt dest).dequeAt part |>.mark entry .visible)

/-- The release part arrives: the entry becomes visible, and stands in the ring, whose page it waits for (R54). -/
def execSpawnRelease (k : Nat) (s : State) : Out :=
  match s.net[k]? with
  | none => .next s
  | some r =>
    match r.op with
    | .spawn dest part entry =>
      if entry = 0 ∨ s.mayArrive k r = false ∨ Hold.waiting r.hold = true then .next s
      else
        let p := ((s.tileAt dest).dequeAt part).placeOf entry
        match s.ringPlace dest part r.tenant p (Hold.lost r.hold) with
        | (.error (.page f queued), s) =>
          .next { s.wantPage dest f queued with net := s.net.set k { r with hold := f.held dest } }
        | (.error _, s) => .next s
        | (.ok place, s) =>
          let s := (({ s with net := s.net.eraseIdx k }.noteServed r.dpa r.rank).openLine r)
          let d := (s.tileAt dest).dequeAt part
          if dpaLoft r.dpa && !(s.tileAt (dpaTile r.dpa)).running then
            .next ((s.setDeque dest part (d.mark entry .void)).answer r (.failed cDEAD_TARGET)).unstall
          else if s.quarantined r.dpa then
            .next ((s.setDeque dest part (d.mark entry .void)).answer r (.failed cSEAL_INTEGRITY)).unstall
          else
            let s := (s.spawnHome r dest part entry).answer r .done
            .next (match (((s.tileAt dest).dequeAt part).entries.find? (fun (e : DEntry) => e.id == entry && decide (e.st = DState.visible))) with
              | some e => s.ringStore dest part r.tenant p e.frame place
              | none => s).unstall
    | _ => .next s

/-- A reservation reaches the deque unit of another tile, or comes back after a refusal. The release part is the same reference (R50). -/
def execDequeReserve (k : Nat) (s : State) : Out :=
  match s.net[k]? with
  | none => .next s
  | some r =>
    match r.op with
    | .spawn dest part 0 =>
      if s.mayArrive k r = false then .next s
      else
        let s := { s with net := s.net.eraseIdx k }
        let t := s.tileAt dest
        if t.running = false then .next (s.answer r (.failed cDEAD_TARGET)).unstall
        else if 4096 ≤ (t.dequeAt part).count then .next (s.answer r .refused).unstall
        else
          let entry := s.freshId
          let rel :=
            { spawnRelease r.id r.src r.slot part r.tenant { dpa := r.cmp.v.toNat } r.val.v dest part entry with
              key := r.key, gen := r.gen }
          let s := { s.bumpId with net := s.net ++ [rel] }
          .next ((s.setDeque dest part (((s.tileAt dest).dequeAt part).reserve entry r.val.v)).answer r .done).unstall
    | _ => .next s

/-! ### Trapeze (R163, R164, R242) -/

/-- What the loop of R163 comes to. -/
inductive HelpEnd where
  | reissue
  | claim (f : Word) (d : Nat)
  | stop (x : Stop)
  deriving DecidableEq, Repr

/-- StackCheck of R163: `none` where it passes. -/
def State.stackCheck (s : State) (id : Nat) : Option HelpEnd × State :=
  let c := s.ctxAt id
  if fld c.adoptsp 8 0 ≠ 0 then (some .reissue, s)
  else
    match s.unitReads (tileOf id) (s.partOf id) c.tenant.toNat needWS (wordsFrom c.adoptsp 64) with
    | (.ok _, s) => (none, s)
    | (.error (.cause _ _), s) => (some .reissue, s)
    | (.error x, s) => (some (.stop x), s)

/-- Owner returned by the bank that holds the entry a PARKED word names, while it is held for that tile and slot. -/
def State.entryOwner (s : State) (w : Word) : Word :=
  match s.waits.find? (fun x =>
      x.num == fld w 10 0 && dpaPkg x.req.dpa == fld w 36 29 && dpaTile x.req.dpa == fld w 28 19
        && dpaLoft x.req.dpa == bit w 18) with
  | some x => if x.req.src = swTile w ∧ x.req.slot = swSlot w then s.ownerOf x.req.dpa x.req.ptr else 0
  | none => 0

/-- The loop of R163. The cas of one event cannot meet another writer, so it fails only on a word that it may not change; a poisoned
state word counts as one that cannot be read (log 44). -/
def State.helpLoop (s : State) (id : Nat) (limit : Nat) : Nat → Nat → Word → HelpEnd × State
  | 0, _, _ => (.reissue, s)
  | fuel + 1, h, f =>
    let c := s.ctxAt id
    let tenant := c.tenant.toNat
    if limit - c.depth.toNat < h ∨ f = (c.getG 2).v ∨ c.frames.contains f = true then (.reissue, s)
    else
      match s.unitReads (tileOf id) (s.partOf id) tenant needRS [padd f 8] with
      | (.error (.cause _ _), s) => (.reissue, s)
      | (.error x, s) => (.stop x, s)
      | (.ok ts, s) =>
        let d := (ts.headD { dpa := 0 }).dpa
        let rank := some (unitRank (tileOf id))
        if s.gated d rank then (.stop .wait, s)
        else if (s.homeStop d true).isSome then (.reissue, s)
        else
          let s := s.openUnit d tenant (s.partOf id) f false rank
          let w := s.gval d
          if s.quarantined d || w.p then (.reissue, s)
          else if swState w.v = 0 then
            (match s.stackCheck id with
              | (some e, s) => (e, s)
              | (none, s) => (.claim f d, s))
          else if swState w.v = 2 then
            (let own := s.entryOwner w.v
             if own = 0 then (.reissue, s) else s.helpLoop id limit fuel (h + 1) own)
          else (.reissue, s)

/-- Level words 0 to 49 (R162). -/
def Ctx.levelWords (c : Ctx) (resume : Word) (f : Word) : List GVal :=
  (List.range 31).map (fun j => c.getG (j + 1)) ++ [⟨resume, false⟩] ++ (List.range 16).map (fun j => c.getE j)
    ++ [⟨f, false⟩, ⟨c.latch, false⟩]

/-- The claim: the cas of the state word at `d`, which reads w2 and w4 to w7 with it (R156, R163). The stores of R164 are due. -/
def State.helpClaim (s : State) (id : Nat) (r : Req) (f : Word) (d : Nat) : State :=
  let c := s.ctxAt id
  let arg (j : Nat) : GVal := s.gval (d - 8 + 8 * j)
  let ws := [arg 2, arg 4, arg 5, arg 6, arg 7]
  (s.deviceWrite d (swRunning (s.word d) (tileOf id) (slotOf id) (c.depth.toNat + 1))).setCtxAt id
    { c with st := .blocked (.adopting r f ws false none) }

/-- The claim is undone: the state word is UNSTARTED again, the frame goes onto the deque of the helper's partition, and the wait issues
unqualified (R164). -/
def State.undoAdopt (s : State) (id : Nat) (r : Req) (f : Word) (ws : List GVal) : State :=
  let c := s.ctxAt id
  let tile := tileOf id
  let part := s.partOf id
  let later (s : State) (page : Option (Nat × Nat)) : State := s.setCtxAt id { c with st := .blocked (.adopting r f ws true page) }
  match s.unitReads tile part c.tenant.toNat needRWS [padd f 8] with
  | (.error (.cause _ _), s) => s.reissue id r
  | (.error (.page x queued), s) =>
    if Hold.lostAt c.hold (padd f 8) then s.reissue id r else later (s.wantPage tile x queued) (some (x.idx, x.page))
  | (.error .wait, s) => later s none
  | (.ok ts, s) =>
    let d := (ts.headD { dpa := 0 }).dpa
    let rank := some (unitRank tile)
    let dq := (s.tileAt tile).dequeAt part
    if s.gated d rank ∨ 4096 ≤ dq.count then later s none
    else
      let p := dq.place dq.tail
      match s.ringPlace tile part c.tenant.toNat p (Hold.lostAt c.hold p) with
      | (.error (.page x queued), s) => later (s.wantPage tile x queued) (some (x.idx, x.page))
      | (.error _, s) => later s none
      | (.ok place, s) =>
        let s := s.openUnit d c.tenant.toNat part f false rank
        let w := s.gval d
        if s.quarantined d || w.p || w.v != swRunning w.v tile (slotOf id) (c.depth.toNat + 1) then s.reissue id r
        else
          let s := (s.deviceWrite d (swUnstarted w.v)).bumpId
          ((s.setDeque tile part (dq.push s.fresh f)).ringStore tile part c.tenant.toNat p f place).reissue id r

/-- Adopt(f): the registers go to the stack at `ds`, and the frame starts (R164, R156). -/
def State.adopt (s : State) (id : Nat) (r : Req) (f : Word) (ws : List GVal) (ds : List Nat) : State :=
  let c := s.ctxAt id
  let tile := tileOf id
  let w2 := (ws.headD {}).v
  let resume := if r.op = .probe then c.pc + 4 else c.pc
  let s := (ds.zip (c.levelWords resume f)).foldl (fun (s : State) x => s.unitStore x.1 x.2) s
  let frames := f :: (if c.depth = 0 then [(c.getG 2).v] else c.frames)
  let c' := { c with
    g := Map.set (fun _ => {}) [] 3 (c.getG 3), e := [], pend := [], pc := w2, st := .ready, wait := none
    adoptsp := c.adoptsp + 512, depth := c.depth + 1, frames := frames, fenced := s.codeOld.length }
  match targetFault w2 with
  | none => s.setCtxAt id (c'.frameArgs f (ws.drop 1))
  | some cause =>
    let detail := wd (cause + fld w2 17 0 * 2 ^ 8 + 2 ^ 26)
    let s := match s.unitReads tile (s.partOf id) c.tenant.toNat needRWS [padd f 8] with
      | (.ok ts, s) => (s.closeFrame (ts.headD { dpa := 8 }).dpa tile (slotOf id) 4 ⟨f, true⟩).getD s
      | (.error _, s) => s
    let s := s.post { s.endRecord id cause f w2 detail 8 with adopted := true, dpa := (c.getG 2).v }
    s.setCtxAt id { c' with st := .blocked (.returning false none) }

/-- The stores are checked again: one that waits for a page holds the frame RUNNING, and one that cannot be performed undoes the claim. -/
def State.adoptStep (s : State) (id : Nat) (r : Req) (f : Word) (ws : List GVal) : State :=
  let c := s.ctxAt id
  let tile := tileOf id
  let part := s.partOf id
  match s.unitReads tile part c.tenant.toNat needWS (wordsFrom c.adoptsp 50) with
  | (.error (.cause _ _), s) => s.undoAdopt id r f ws
  | (.error (.page x queued), s) =>
    (s.wantPage tile x queued).setCtxAt id { c with st := .blocked (.adopting r f ws false (some (x.idx, x.page))) }
  | (.error .wait, s) => s
  | (.ok ts, s) =>
    let ds := ts.map (fun t => t.dpa)
    let rank := some (unitRank tile)
    if ds.any (fun x => s.gated x rank) then s
    else
      let s := ds.foldl (fun (s : State) x => s.openUnit x c.tenant.toNat part c.adoptsp true rank) s
      if ds.any s.quarantined || ds.any (fun x => (s.homeStop x true).isSome) then s.undoAdopt id r f ws
      else s.adopt id r f ws ds

/-- One word read back from the adoption stack; one that cannot be read comes back poisoned, as a load that fails at its home. -/
def State.stackWord (s : State) (id : Nat) (lost : Bool) (p : Word) : Except Stop GVal × State :=
  let c := s.ctxAt id
  match s.unitReads (tileOf id) (s.partOf id) c.tenant.toNat needR [p] with
  | (.error (.cause _ _), s) => (.ok ⟨0, true⟩, s)
  | (.error x, s) => if lost then (.ok ⟨0, true⟩, s) else (.error x, s)
  | (.ok ts, s) =>
    let d := (ts.headD { dpa := 0 }).dpa
    let rank := some (unitRank (tileOf id))
    if s.gated d rank then (.error .wait, s)
    else if (s.homeStop d false).isSome then (.ok ⟨0, true⟩, s)
    else
      let (v, s) := (s.openUnit d c.tenant.toNat (s.partOf id) p false rank).readAt d
      (.ok v, s)

def State.stackWords (s : State) (id : Nat) (lost : Bool) (done : List GVal) : List Word → Except Stop (List GVal) × State
  | [] => (.ok done, s)
  | p :: ps =>
    match s.stackWord id lost p with
    | (.error x, s) => (.error x, s)
    | (.ok v, s) => s.stackWords id lost (done ++ [v]) ps

/-- The adopted frame has ended: the helper's registers come back, once every word has (R164). -/
def State.helperBack (s : State) (id : Nat) (lost : Bool) : State :=
  let c := s.ctxAt id
  let later (s : State) (page : Option (Nat × Nat)) : State := s.setCtxAt id { c with st := .blocked (.returning lost page) }
  match s.stackWords id lost [] (wordsFrom (c.adoptsp - 512) 50) with
  | (.ok ws, s) => s.setCtxAt id (c.unadopt ws)
  | (.error (.page x queued), s) => later (s.wantPage (tileOf id) x queued) (some (x.idx, x.page))
  | (.error _, s) => later s none

/-- Trapeze's own steps. The procedure starts once the context's earlier references are over: its registers go to the stack (log 3). A
failure that one of them has met since then traps at the wait, which issues again (R409). -/
def execHelpProcedure (ctx : Nat) (s : State) : Out :=
  let c := s.ctxAt ctx
  if s.quiet ctx = false ∨ (s.tileAt (tileOf ctx)).clocked = false then .next s
  else
    match c.st with
    | .blocked (.helping r own none) =>
      if c.deferred.isSome then .next (s.setCtxAt ctx { c with st := .ready, wait := none }).unstall
      else
        let limit := if c.adoptOff then 0 else c.limit.toNat
        let fuel := if r.op = .probe then 1 else 8
        (match s.helpLoop ctx limit fuel 1 own with
          | (.reissue, s) => .next (s.reissue ctx r).unstall
          | (.claim f d, s) => .next (s.helpClaim ctx r f d).unstall
          | (.stop (.page f queued), s) =>
            .next ((s.wantPage (tileOf ctx) f queued).setCtxAt ctx
              { c with st := .blocked (.helping r own (some (f.idx, f.page))) })
          | (.stop _, _) => .next s)
    | .blocked (.adopting r f ws undo none) => .next (if undo then s.undoAdopt ctx r f ws else s.adoptStep ctx r f ws).unstall
    | .blocked (.returning lost none) => .next (s.helperBack ctx lost).unstall
    | _ => .next s

/-! ### Messages (R246, R247) -/


/-- The answer of another package, which the spec leaves to it. -/
def awayAnswer (w : Word) : MsgAnswer :=
  match w.toNat % 5 with
  | 0 => .dead
  | 1 => .noHandler
  | 2 => .rights
  | 3 => .taken
  | _ => .refused

def execMessageArrive (k : Nat) (s : State) : Out :=
  match s.msgs[k]? with
  | none => .next s
  | some m =>
    if (m.type = 0xFF ∧ m.away = false) ∨ s.messageFirst k m = false then .next s
    else
      let s := { s with msgs := s.msgs.eraseIdx k }
      if m.away then .next (s.bumpFree.tellSender m (awayAnswer (Sys2Proof.Config.freeWord s.free))).unstall
      else
        let (s, a) := s.takeMsg m
        .next (s.tellSender m a).unstall

/-- The queued message of a class that starts next: descending PRIO, oldest first. -/
def Tile.nextMsg (t : Tile) (part : Nat) : Option Msg :=
  let ms := t.inbox.filter (fun m => m.table == part)
  let prio (m : Msg) : Nat := vectPrio (t.vectAt m.table m.type.toNat)
  [3, 2, 1, 0].findSome? (fun p => ms.find? (fun m => prio m == p))

def execHandlerStart (ctx : Nat) (s : State) : Out :=
  let tile := tileOf ctx
  let part := s.partOf ctx
  let t := s.tileAt tile
  if t.clocked && !s.turning part && s.idleOf tile part == some (slotOf ctx) then
    match t.nextMsg part with
    | none => .next s
    | some m =>
      let s := s.setTileAt tile { t with inbox := t.inbox.filter (fun x => x.id != m.id) }
      let c := { s.ctxAt ctx with tenant := BitVec.ofNat 16 (t.tenantOf part) }
      .next ((s.interruptWord m).setCtxAt ctx
        { c.handle (t.vectAt m.table m.type.toNat) m with fenced := s.codeOld.length })
  else .next s

/-! ### Barriers (R169) -/

/-- An arrival is performed at its object; a complete object's report goes up the tree in the same step. -/
def execBarrierReport (k : Nat) (s : State) : Out :=
  match s.net[k]? with
  | none => .next s
  | some r =>
    match r.op with
    | .arrive tile obj =>
      if s.mayArrive k r = false then .next s
      else
        let s := { s with net := s.net.eraseIdx k }
        let b := s.barAt tile obj
        if b.v && b.members.getLsbD r.slot then
          .next (((s.setBarAt tile obj { b with arrived := setBitIf b.arrived r.slot true }).checkBar 8 tile obj)).unstall
        else .next s.unstall
    | _ => .next s

/-- A release goes down: a parent takes it before its children. -/
def execBarrierRelease (k : Nat) (s : State) : Out :=
  match s.releases[k]? with
  | none => .next s
  | some (tile, obj, status) =>
    let b := s.barAt tile obj
    let parentWaits := !b.root && s.releases.any (fun x => x.1 == b.ptile.toNat && x.2.1 == b.pobj.toNat)
    if parentWaits || decide ((s.tileAt tile).point = .g) then .next s
    else
      let s := { s with releases := s.releases.eraseIdx k }
      if (s.tileAt tile).running then .next (s.releaseBar tile obj status).unstall else .next s.unstall

/-! ### Firmware and one context (R318, R320, R321) -/

/-- The context goes on after the frame that it ran has ended (R240, R164). A failure that the adopted frame deferred ends with it, and so
does its trap handler: the spec clears INTRAP by tback only, and says neither (DESIGN CHOICE, log 49). -/
def State.afterEnd (s : State) (id : Nat) (lost : Bool) : State :=
  let c := s.ctxAt id
  if c.depth = 0 then (if c.gang then s.leaveGang id lost else s).endContext id
  else (s.setCtxAt id { c with st := .blocked (.returning false none), inTrap := false, deferred := none, handledBy := none }).unstall

/-- A house slot ends the context as texit does, with the escalated cause (R318). -/
def State.escalationEnd (s : State) (id cause : Nat) (epc tval : Word) : Except Stop State :=
  let c := s.ctxAt id
  let tile := tileOf id
  let f := (c.getG 2).v
  let detail := endDetail cause epc 26
  if f = 0 then .ok ((s.post (s.endRecord id cause 0 tval detail 8)).afterEnd id true)
  else if fld f 5 0 ≠ 0 ∨ 0x20000 ≤ fld f 63 46 then .ok (s.endWith id cause tval detail)
  else
    match s.unitReads tile (s.partOf id) c.tenant.toNat needRWS (wordsFrom f 8) with
    | (.error (.cause _ _), s) => .ok (s.endWith id cause tval detail)
    | (.error x, _) => .error x
    | (.ok ts, s) =>
      let d := (ts.getD 1 { dpa := 8 }).dpa
      let rank := some (tile * 1024 + ((c.handledBy).getD (slotOf id)))
      if s.gated d rank then .error .wait
      else
        let s := s.openUnit d c.tenant.toNat (s.partOf id) f false rank
        let s := match s.closeFrame d tile (slotOf id) 4 ⟨f, true⟩ with
          | some s' => s'.post (s'.endRecord id cause f tval detail 8)
          | none => s.post { code := 0x0111, sev := 2, engine := 0, tenant := c.tenant.toNat
                             adopted := decide (c.depth ≠ 0), part := s.partOf id, ctx := some id, frame := f, action := 7
                             detail := wd (cause + 2 ^ 8) }
        .ok (s.afterEnd id true)

/-- The context whose escalated trap a house slot has taken. -/
def State.escalatedOf (s : State) (h : Nat) : Option Nat :=
  (s.ctxs.find? (fun x => tileOf x.1 == tileOf h && x.2.handledBy == some (slotOf h)
    && (match x.2.st with | .blocked (.escalated _ _ _ _) => true | _ => false))).map (fun x => x.1)

/-- Has a fault struck in a house slot of the tile while it handles an escalation (R318)? -/
def State.houseFault (s : State) (tile : Nat) : Bool :=
  (List.range 8).any (fun j => (s.ctxAt (ctxId tile (504 + j))).faulted && (s.escalatedOf (ctxId tile (504 + j))).isSome)

/-- The house slot that takes a trap next: the lowest that handles none and has not failed itself. Which one, the spec does not say
(DESIGN CHOICE, log 26). -/
def State.houseFor (s : State) (ctx : Nat) : Option Nat :=
  ((List.range 8).map (fun j => 504 + j)).find? (fun sl =>
    sl != slotOf ctx && (s.escalatedOf (ctxId (tileOf ctx) sl)).isNone
      && (match (s.ctxAt (ctxId (tileOf ctx) sl)).st with | .blocked (.escalated _ _ _ _) => false | _ => true))

/-- A house slot handles a trap from now on, or no more. -/
def State.setHandling (s : State) (tile sl : Nat) (on : Bool) : State :=
  s.setCtxAt (ctxId tile sl) { s.ctxAt (ctxId tile sl) with handling := on, faulted := false }

/-- A house slot takes the escalated trap, and then ends the context. One that has failed in it ends none: the tile is reset. -/
def execEscalation (ctx : Nat) (s : State) : Out :=
  let c := s.ctxAt ctx
  let tile := tileOf ctx
  match c.st with
  | .blocked (.escalated cause epc tval none) =>
    if s.houseFault tile then .next s
    else if s.quiet ctx = false ∨ s.marksDone ctx = false ∨ (s.tileAt tile).clocked = false then .next s
    else
      match c.handledBy with
      | none =>
        (match s.houseFor ctx with
          | none => .next s
          | some sl => .next ((s.setCtxAt ctx { c with handledBy := some sl }).setHandling tile sl true))
      | some sl =>
        match s.escalationEnd ctx cause epc tval with
        | .ok s => .next (s.setHandling tile sl false).unstall
        | .error (.page f queued) =>
          .next ((s.wantPage tile f queued).setCtxAt ctx
            { c with st := .blocked (.escalated cause epc tval (some (f.idx, f.page))) })
        | .error _ => .next s
  | _ => .next s

/-- A nap is over (R321). -/
def execNapExpiry (ctx : Nat) (s : State) : Out :=
  let c := s.ctxAt ctx
  match c.st with
  | .blocked (.nap t) => s.when (decide (t ≤ s.cycle.toNat)) (s.setCtxAt ctx { c.advance 4 with st := .ready })
  | _ => .next s

/-- Does the service have the function (R126, R129, R320)? -/
def serviceHas (n f : Nat) : Bool := if n = 0x400 then 1 ≤ f && f ≤ 8 else f == 1

/-- A call of a function that its service has not got returns 0x02; the others have their own events. -/
def execServiceCall (ctx : Nat) (s : State) : Out :=
  let c := s.ctxAt ctx
  match c.st with
  | .blocked (.service n) =>
    s.when (!serviceHas n (c.getG 4).v.toNat && (s.tileAt (tileOf ctx)).clocked) (s.serviceReturn ctx cILLEGAL_OPERAND none)
  | _ => .next s

/-- The Loft service, function 1 (R320, R84): the change waits for the partition's commands. A number that is no data bank's, a code bank's
or that of no bank, returns RIGHTS: no partition has such a bank, and the spec names no result (DESIGN CHOICE, log 49). -/
def execLoftSetFormat (ctx : Nat) (s : State) : Out :=
  let c := s.ctxAt ctx
  let tile := tileOf ctx
  let t := s.tileAt tile
  match c.st with
  | .blocked (.service n) =>
    let bank := (c.getG 5).v.toNat
    let v := (c.getG 6).v
    if n ≠ 0x401 ∨ (c.getG 4).v ≠ 1 ∨ t.clocked = false ∨ t.formats.any (fun x => x.1 == ctx) = true then .next s
    else if bank < 2 ∨ 32 < bank ∨ t.lownAt (bank + 14) ≠ s.partOf ctx then .next (s.serviceReturn ctx cRIGHTS none)
    else if fld v 63 32 ≠ 0 ∨ fld v 21 19 ≠ 0 ∨ fld v 15 12 ≠ 0 ∨ fld v 23 22 = 3 then
      .next (s.serviceReturn ctx cILLEGAL_OPERAND none)
    else .next ({ s.bumpId with }.setTileAt tile { t with formats := t.formats ++ [(ctx, bank, v, s.freshId)] })
  | _ => .next s

end Sys2Proof.Machine
end

