-- ==== Sys2Proof/Machine/EvService.lean ====
section
/-! DEFINITION. The seal service of device firmware: windows (R124 to R127) and bounce records (R129). The operands of an
event are the choices that firmware makes and the spec does not (R407), and what its cryptography finds (log 17). -/

namespace Sys2Proof.Machine

open Sys2Proof

/-! ### Functions and tenants (R119, R361) -/

/-- Host tenant of function 64l + f, or of the management controller, 128. -/
def hostTenant (fn : Nat) : Nat := 0xF000 + fn
/-- The number that stands for it as a partition. -/
def hostPartOf (fn : Nat) : Nat := hostPart (16 + fn)


/-! ### Buffer-table entries (R30) -/

/-- w0 of a window's entry: V, WIN, rights, region, GEN, KEY, OWNER. -/
def windowW0 (rights region gen key owner : Nat) : Word :=
  wd (2 ^ 63 + 2 ^ 61 + rights % 16 * 2 ^ 56 + region % 64 * 2 ^ 50 + gen % 2 ^ 16 * 2 ^ 34 + key % 256 * 2 ^ 26
    + owner % 2 ^ 16 * 2 ^ 10)

/-- The word of the table at which an entry begins. -/
def State.entryDpa (s : State) (part idx : Nat) : Nat := s.homeOf (btabRegion (s.btabOf part)) (btabBase (s.btabOf part) + 32 * idx)

/-- The entry cannot be read and changed now: its line is in quarantine, or its home does not answer (R123). -/
def State.entryStuck (s : State) (part idx : Nat) : Bool :=
  s.regionOk (btabRegion (s.btabOf part)) && (s.quarantined (s.entryDpa part idx) || s.homeWaits (s.entryDpa part idx))

/-- The line of an entry is opened under the key of the tenant whose table it is (R109, R122). -/
def State.openEntry (s : State) (part tenant idx : Nat) : State :=
  if s.regionOk (btabRegion (s.btabOf part)) then s.openUnit (s.entryDpa part idx) tenant part 0 else s

/-- Firmware writes an entry, and a KIND 1 shootdown follows. -/
def State.setEntry (s : State) (part tenant idx : Nat) (e : BufEntry) : State :=
  let b := s.btabOf part
  let k := btabRegion b
  if s.regionOk k then
    let put (s : State) (j : Nat) (v : Word) : State := s.deviceWrite (s.homeOf k (btabBase b + 32 * idx + 8 * j)) v
    let s := put (put (put (put (s.openEntry part tenant idx) 0 e.w0) 1 e.w1) 2 e.w2) 3 e.w3
    s.invalidateAll part (some idx) true 0 0
  else s

/-- References under an entry that are still on their way to their homes (R50, R127). -/
def State.entryBusy (s : State) (part idx : Nat) : Bool :=
  s.net.any (fun r => r.part == part && ptrIdx r.ptr == idx) || s.refused.any (fun r => r.part == part && ptrIdx r.ptr == idx)

/-- Parked references under an entry go back to their requesters (R52). -/
def State.purgeEntry (s : State) (part idx : Nat) : State :=
  s.waits.foldl (fun (s : State) (w : Wait) =>
    if w.req.part = part ∧ ptrIdx w.req.ptr = idx then { s with waits := s.waits.erase w }.answer w.req .purged else s) s

/-! ### The calls -/

/-- A call of the seal service: its function, its three arguments, and its caller's tile, partition and tenant. -/
structure SealCall where
  g5 : Word
  g6 : Word
  g7 : Word
  tile : Nat
  part : Nat
  tenant : Nat
  deriving DecidableEq, Repr

/-- The service acts only on a call of function `f` that waits for it, and not while the call waits for a page; where that page is not
given, the call returns PAGE_FAULT (R57, R126). -/
def State.sealCall (s : State) (ctx f : Nat) (k : SealCall → Out) : Out :=
  let c := s.ctxAt ctx
  if c.st = .blocked (.service 0x400) ∧ (c.getG 4).v.toNat = f ∧ (s.tileAt (tileOf ctx)).clocked = true
      ∧ Hold.waiting c.hold = false then
    if Hold.lost c.hold then .next (s.serviceReturn ctx cPAGE_FAULT none)
    else
      k { g5 := (c.getG 5).v, g6 := (c.getG 6).v, g7 := (c.getG 7).v, tile := tileOf ctx, part := s.partOf ctx
          tenant := c.tenant.toNat }
  else .next s

/-- The call waits for a page at its tile's port. -/
def State.callWaits (s : State) (ctx tile : Nat) (f : PortFault) (queued : Bool) : Out :=
  let s := s.wantPage tile f queued
  .next (s.setCtxAt ctx { s.ctxAt ctx with hold := f.held tile })

/-- The window that the caller reaches at an index of its own. -/
def State.windowAt (s : State) (x : SealCall) (idx : Nat) : Option Window :=
  s.windows.find? (fun w => w.sharers.any (fun y => y.1 == x.tenant && y.2.1 == x.part && y.2.2 == idx))

def State.updWindow (s : State) (slot : Nat) (f : Window → Window) : State :=
  { s with windows := s.windows.map (fun (w : Window) => if w.slot = slot then f w else w) }

/-- SHARERS of a window's key slot. -/
def State.setSharers (s : State) (slot part : Nat) (on : Bool) : State :=
  if part < 16 then
    let w := s.kslotAt slot
    let m := fld w 43 28
    let m' := if on then (if m / 2 ^ part % 2 = 1 then m else m + 2 ^ part) else (if m / 2 ^ part % 2 = 1 then m - 2 ^ part else m)
    s.setKslot slot (wd (w.toNat - m * 2 ^ 28 + m' * 2 ^ 28))
  else s

/-- May firmware put a new entry at the index: inside the table, not in use, and not the stack buffer's (R157)? -/
def State.indexFree (s : State) (part idx : Nat) : Bool :=
  idx != 0 && idx != 0x1FFFF && !loftIdx idx && !reservedIdx idx && decide (idx < btabCount (s.btabOf part))
    && !(s.entryAt part idx).valid

/-- Firmware's placement: an EMPTY window slot, a free index, and a range of the region that is not in use and has no home in a retired
bank (R338, R407). The region stands in bits [53:48] of `base`. -/
def State.placeFits (s : State) (x : SealCall) (base : Word) (slot idx size : Nat) : Bool :=
  let k := fld base 53 48
  let b := fld base 47 0
  let r := s.region k
  decide (1 ≤ slot) && decide (slot ≤ 255) && s.kslotAt slot == 0 && s.indexFree x.part idx
    && !r.rdx && b % 64 == 0 && s.rangeFree k b size && s.rangeSound k b size

/-- create: memory granted fresh, a key slot, and an entry in the caller's table (R113, R124). -/
def execSealCreate (ctx : Nat) (base : Word) (slot idx : Nat) (s : State) : Out :=
  s.sealCall ctx 1 fun x =>
    let bytes := x.g5.toNat
    let size := (bytes + 63) / 64 * 64
    if bytes = 0 ∨ bytes % 8 ≠ 0 ∨ 2 ^ 46 < bytes ∨ 16 ≤ x.g6.toNat then .next (s.serviceReturn ctx cILLEGAL_OPERAND none)
    else if s.placeFits x base slot idx size = false ∨ s.entryStuck x.part idx = true then .next s
    else
      let k := fld base 53 48
      let b := fld base 47 0
      let s := (s.grantRange k b size).nextKey (windowKey slot)
      let s := s.setKslot slot (wd (2 ^ 62 + 2 ^ 60 + x.tenant % 2 ^ 16 * 2 ^ 44))
      let s := s.setSharers slot x.part true
      let w : Window :=
        { slot := slot, creator := x.tenant, idx := idx, base := b, size := size, region := k
          sharers := [(x.tenant, x.part, idx)] }
      let s := s.openEntry x.part x.tenant idx
      let gen := (s.entryAt x.part idx).gen + 1
      let s := { s with windows := s.windows ++ [w] }.setEntry x.part x.tenant idx
        ⟨windowW0 x.g6.toNat k gen slot x.tenant, wd b, wd bytes, 0⟩
      .next (s.serviceReturn ctx 0 (some (wd idx)))

/-- offer: that tenant may join with at most those rights. -/
def execSealOffer (ctx : Nat) (s : State) : Out :=
  s.sealCall ctx 2 fun x =>
    match s.windowAt x x.g5.toNat with
    | none => .next (s.serviceReturn ctx cBUFFER_INVALID none)
    | some w =>
      if 16 ≤ x.g7.toNat ∨ 2 ^ 16 ≤ x.g6.toNat then .next (s.serviceReturn ctx cILLEGAL_OPERAND none)
      else
        let s := s.updWindow w.slot (fun w =>
          { w with offers := w.offers.filter (fun o => o.1 != x.g6.toNat) ++ [(x.g6.toNat, x.g7.toNat)] })
        .next (s.serviceReturn ctx 0 none)

/-- Is the window one that may be joined: its key lives, and its creator still has it at the index? -/
def State.joinable (s : State) (w : Window) : Bool :=
  (fld (s.kslotAt w.slot) 63 62 == 1 || fld (s.kslotAt w.slot) 63 62 == 2)
    && w.sharers.any (fun y => y.1 == w.creator && y.2.2 == w.idx)

/-- SIZE of the window's entry in its creator's table, whose line is opened. -/
def State.windowBytes (s : State) (w : Window) : Word × State :=
  match w.sharers.find? (fun y => y.1 == w.creator) with
  | some y =>
    let s := s.withTable y.2.1 y.1 (fun s => s.openEntry y.2.1 y.1 y.2.2)
    (((s.asTenant y.2.1 y.1).entryAt y.2.1 y.2.2).w2, s)
  | none => (wd w.size, s)

/-- join: an entry in the caller's table; g5 names the creator in [33:18] and its index in [17:0] (log 17). The rule says only that a
failing call returns the failing cause code: that an index or a window which does not exist is BUFFER_INVALID, a missing offer
WINDOW_RIGHTS and any other bad argument, or a full window, ILLEGAL_OPERAND, here and in the calls below, is the model's (DESIGN
CHOICE, log 46). -/
def execSealJoin (ctx idx : Nat) (s : State) : Out :=
  s.sealCall ctx 3 fun x =>
    match s.windows.find? (fun w => w.idx == fld x.g5 17 0 && w.creator == fld x.g5 33 18 && s.joinable w) with
    | none => .next (s.serviceReturn ctx cBUFFER_INVALID none)
    | some w =>
      match w.offers.find? (fun o => o.1 == x.tenant) with
      | none => .next (s.serviceReturn ctx cWINDOW_RIGHTS none)
      | some o =>
        if w.sharers.any (fun y => y.2.1 == x.part) = true ∨ 16 ≤ (w.sharers.filter (fun y => y.2.1 < 16)).length then
          .next (s.serviceReturn ctx cILLEGAL_OPERAND none)
        else if s.indexFree x.part idx = false ∨ s.entryStuck x.part idx = true then .next s
        else
          let (bytes, s) := s.windowBytes w
          let s := s.openEntry x.part x.tenant idx
          let gen := (s.entryAt x.part idx).gen + 1
          let s := (s.updWindow w.slot (fun w => { w with sharers := w.sharers ++ [(x.tenant, x.part, idx)] })).setSharers
            w.slot x.part true
          let s := s.setEntry x.part x.tenant idx ⟨windowW0 o.2 w.region gen w.slot x.tenant, wd w.base, bytes, 0⟩
          .next (s.serviceReturn ctx 0 (some (wd idx)))

/-- rights: a sharer's rights change, and a shootdown follows. -/
def execSealRights (ctx : Nat) (s : State) : Out :=
  s.sealCall ctx 4 fun x =>
    match s.windowAt x x.g5.toNat with
    | none => .next (s.serviceReturn ctx cBUFFER_INVALID none)
    | some w =>
      match w.sharers.find? (fun y => y.1 == x.g6.toNat) with
      | none => .next (s.serviceReturn ctx cBUFFER_INVALID none)
      | some y =>
        if 16 ≤ x.g7.toNat then .next (s.serviceReturn ctx cILLEGAL_OPERAND none)
        else if s.entryBusy y.2.1 y.2.2 ∨ (s.asTenant y.2.1 y.1).entryStuck y.2.1 y.2.2 = true then .next s
        else
          let s := s.withTable y.2.1 y.1 (fun s =>
            let s := s.openEntry y.2.1 y.1 y.2.2
            let e := s.entryAt y.2.1 y.2.2
            s.setEntry y.2.1 y.1 y.2.2 { e with w0 := windowW0 x.g7.toNat w.region (e.gen + 1) w.slot y.1 })
          .next (s.serviceReturn ctx 0 none)

/-- A sharer leaves a window (R127): its entry is shot down before the re-key begins; the last one leaves the key to be erased. -/
def State.dropSharer (s : State) (w : Window) (tenant part idx : Nat) : State :=
  let s := (s.purgeEntry part idx).openEntry part tenant idx
  let s := s.setEntry part tenant idx { s.entryAt part idx with w0 := wd ((((s.entryAt part idx).gen + 1) % 2 ^ 16) * 2 ^ 34) }
  let left := w.sharers.filter (fun y => !(y.1 == tenant && y.2.1 == part && y.2.2 == idx))
  let s := (s.updWindow w.slot (fun w => { w with sharers := left })).setSharers w.slot part false
  if left = [] then { s with rekeys := s.rekeys.filter (fun r => r.slot != w.slot || r.finished) }.drainKey w.slot
  else
    let r : Rekey := { slot := w.slot, part := part, idx := idx }
    { s with rekeys := s.rekeys ++ [r] }.startRekey w.slot

def execSealLeave (ctx : Nat) (s : State) : Out :=
  s.sealCall ctx 5 fun x =>
    let idx := x.g5.toNat
    match s.windowAt x idx with
    | none => .next (s.serviceReturn ctx cBUFFER_INVALID none)
    | some w =>
      if s.entryBusy x.part idx ∨ s.entryStuck x.part idx = true then .next s
      else .next ((s.dropSharer w x.tenant x.part idx).serviceReturn ctx 0 none).unstall

/-- rekey: R125 with a completion word. -/
def execSealRekey (ctx : Nat) (s : State) : Out :=
  s.sealCall ctx 6 fun x =>
    match s.windowAt x x.g5.toNat with
    | none => .next (s.serviceReturn ctx cBUFFER_INVALID none)
    | some w =>
      let s := s.portRead x.tile x.part x.g6
      match s.reach x.tile x.part x.tenant x.g6 8 needWS with
      | .error (.cause n p) => .next ((s.noteStop x.tile x.part x.tenant (.cause n p)).serviceReturn ctx n none)
      | .error (.page f queued) => s.callWaits ctx x.tile f queued
      | .error .wait => .next s
      | .ok _ =>
        let r : Rekey :=
          { slot := w.slot, part := x.part, idx := x.g5.toNat, done := some x.g6, tile := x.tile, tenant := x.tenant }
        .next ((({ s with rekeys := s.rekeys ++ [r] }.startRekey w.slot).serviceReturn ctx 0 none)).unstall

/-- Firmware makes the host tenant of a function, which has an offer, a sharer of the window: a window has at most one host tenant, and
host software calls no function of the service (R124, R126; log 46). -/
def State.hostJoin (s : State) (slot fn idx : Nat) : State :=
  match s.windows.find? (fun w => w.slot == slot && s.joinable w) with
  | none => s
  | some w =>
    match w.offers.find? (fun o => o.1 == hostTenant fn) with
    | none => s
    | some o =>
      let part := hostPartOf fn
      if 128 < fn ∨ w.sharers.any (fun y => 0xF000 ≤ y.1) = true ∨ s.indexFree part idx = false ∨ s.entryStuck part idx = true then s
      else
        let (bytes, s) := s.windowBytes w
        let s := s.openEntry part (hostTenant fn) idx
        let gen := (s.entryAt part idx).gen + 1
        (s.updWindow slot (fun w => { w with sharers := w.sharers ++ [(hostTenant fn, part, idx)] })).setEntry part (hostTenant fn) idx
          ⟨windowW0 o.2 w.region gen slot (hostTenant fn), wd w.base, bytes, 0⟩

/-- Firmware removes it again, once nothing of it is on its way (R127). -/
def State.hostLeave (s : State) (slot fn : Nat) : State :=
  match s.windows.find? (fun w => w.slot == slot) with
  | none => s
  | some w =>
    match w.sharers.find? (fun y => y.1 == hostTenant fn) with
    | none => s
    | some y =>
      if s.entryBusy y.2.1 y.2.2 || s.entryStuck y.2.1 y.2.2 then s else (s.dropSharer w y.1 y.2.1 y.2.2).unstall

/-! ### Bounce records (R129) -/

/-- The targets of the words from a pointer on. -/
def State.span (s : State) (x : SealCall) (p : Word) (bytes : Nat) (need : Need) : Except Stop (List Target) × State :=
  s.unitReads x.tile x.part x.tenant need (wordsFrom p ((bytes + 7) / 8))

/-- The lines of the words are opened, to be read or to be written. -/
def State.openSpan (s : State) (x : SealCall) (ts : List Target) (p : Word) (write : Bool) : State :=
  ts.foldl (fun (s : State) t => s.openUnit t.dpa x.tenant x.part p write) s

/-- Does a home of the words not answer now? -/
def State.spanWaits (s : State) (ts : List Target) : Bool := ts.any (fun t => s.homeWaits t.dpa)

/-- Is the session slot one of the caller's? -/
def State.sessionOk (s : State) (x : SealCall) : Bool :=
  let w := s.kslotAt x.g7.toNat
  decide (1 ≤ x.g7.toNat) && decide (x.g7.toNat ≤ 255) && fld w 63 62 == 1 && fld w 61 60 == 2 && fld w 59 44 == x.tenant

/-- Is the pointer in a window of the caller that it shares with the host tenant of its function? -/
def State.bounceOk (s : State) (x : SealCall) (p : Word) : Bool :=
  match s.windowAt x (ptrIdx p), s.fnOf x.tenant with
  | some w, some fn => w.sharers.any (fun y => y.1 == hostTenant fn)
  | _, _ => false

/-- A rejected record: nothing is written. -/
def State.rejectBounce (s : State) (ctx : Nat) (x : SealCall) : State :=
  (s.post { code := 0x000E, sev := 2, engine := 5, tenant := x.tenant, part := x.part, ctx := some ctx, ptr := x.g5
            action := 22 }).serviceReturn ctx cSEAL_INTEGRITY none

/-- A number in bytes of a record, little-endian (R5). -/
def bytesNat (bs : List Byte) : Nat := bs.foldr (fun b n => b.toNat + 256 * n) 0

/-- Bytes written in place by firmware: each word that they touch has one write event, and one that they fill is clean. -/
def State.storeBytes (s : State) (bs : List Byte) : List Target → State
  | [] => s
  | t :: ts =>
    let n := min 8 bs.length
    (if n = 0 then s else (s.putBytes t.dpa n ⟨wd (bytesNat (bs.take 8)), false⟩).wroteEvent t.dpa).storeBytes (bs.drop 8) ts

/-- What an import asks of its record, in the order of R129: in a window shared with the host of the tenant's function; a sequence number
above the last one; a tag that verifies, `plain` being what it then opens. A record whose reserved bytes are not 0, whose length is
above 4,064, or of whose words one is poisoned, is rejected too: the three checks do not name these (DESIGN CHOICE, log 46). -/
def State.importOk (s : State) (x : SealCall) (src : List Target) (plain : Option (List Byte)) : Option (List Byte) :=
  let word (j : Nat) : Word := s.word (src.getD j { dpa := 0 }).dpa
  let len := (word 1).toNat % 2 ^ 32
  if s.bounceOk x x.g5 = false ∨ s.sessionOk x = false ∨ src.any (fun t => (s.readAt t.dpa).1.p) = true
      ∨ (word 0).toNat ≤ (Map.get (fun _ => 0) s.sessions x.g7.toNat : Word).toNat
      ∨ 4064 < len ∨ (word 1).toNat / 2 ^ 32 ≠ 0 ∨ plain.map List.length ≠ some len then none
  else plain

/-- import (function 7). A source that fails the checks of R32 lies in no such window: its record is rejected. -/
def execSealImport (ctx : Nat) (plain : Option (List Byte)) (s : State) : Out :=
  s.sealCall ctx 7 fun x =>
    match s.span x x.g5 4096 needR with
    | (.error (.cause _ _), s) => .next (s.rejectBounce ctx x)
    | (.error (.page f queued), s) => s.callWaits ctx x.tile f queued
    | (.error .wait, s) => .next s
    | (.ok src, s) =>
      if s.spanWaits src then .next s
      else
        let s := s.openSpan x src x.g5 false
        match s.importOk x src plain with
        | none => .next (s.rejectBounce ctx x)
        | some bytes =>
          match s.span x x.g6 bytes.length needW with
          | (.error (.cause n _), s) => .next (s.serviceReturn ctx n none)
          | (.error (.page f queued), s) => s.callWaits ctx x.tile f queued
          | (.error .wait, s) => .next s
          | (.ok dst, s) =>
            if s.spanWaits dst then .next s
            else
              let seq := s.word (src.headD { dpa := 0 }).dpa
              let s := s.openSpan x dst x.g6 true
              match dst.findSome? (fun t => s.homeStop t.dpa true) with
              | some n => .next (s.serviceReturn ctx n none)
              | none =>
                let s := { s with sessions := Map.set (fun _ => 0) s.sessions x.g7.toNat seq }.storeBytes bytes dst
                .next (s.serviceReturn ctx 0 none).unstall

/-- export (function 8): from g5 into the bounce record at g6. `sealed` is the record that the session key seals: its header is that of
R129, and its length L says how many source bytes it holds. The caller names no length, and a poisoned source has no stated result: it
returns POISON_CONSUMED (DESIGN CHOICE, log 46). -/
def execSealExport (ctx : Nat) (sealed : List Byte) (s : State) : Out :=
  s.sealCall ctx 8 fun x =>
    let len := bytesNat ((sealed.drop 8).take 4)
    if sealed.length ≠ 4096 ∨ 4064 < len ∨ bytesNat ((sealed.drop 12).take 4) ≠ 0 then .next s
    else
      match s.span x x.g5 (max len 8) needR with
      | (.error (.cause n _), s) => .next (s.serviceReturn ctx n none)
      | (.error (.page f queued), s) => s.callWaits ctx x.tile f queued
      | (.error .wait, s) => .next s
      | (.ok src, s) =>
        match s.span x x.g6 4096 needW with
        | (.error (.cause n _), s) => .next (s.serviceReturn ctx n none)
        | (.error (.page f queued), s) => s.callWaits ctx x.tile f queued
        | (.error .wait, s) => .next s
        | (.ok dst, s) =>
          if s.spanWaits src || s.spanWaits dst then .next s
          else if s.bounceOk x x.g6 = false ∨ s.sessionOk x = false then .next (s.rejectBounce ctx x)
          else
            let s := (s.openSpan x src x.g5 false).openSpan x dst x.g6 true
            if src.any (fun t => (s.readAt t.dpa).1.p) then .next (s.serviceReturn ctx cPOISON_CONSUMED none)
            else
              match dst.findSome? (fun t => s.homeStop t.dpa true) with
              | some n => .next (s.serviceReturn ctx n none)
              | none => .next ((s.storeBytes sealed dst).serviceReturn ctx 0 none).unstall

end Sys2Proof.Machine
end

