-- ==== Sys2Proof/Machine/EvLaunch.lean ====
section
/-! DEFINITION. The launcher (R167, R174, R363 to R366, R371, R411) and slot rotation (R73, R82, R157, R175 to R177, R309). -/

namespace Sys2Proof.Machine

open Sys2Proof

/-- A function's binding in effect (R361). -/
def State.bindOf (s : State) (fn : Nat) : Word := Map.get (fun _ => 0) s.bound fn
/-- Is the function's first binding written, and not yet in effect? -/
def State.bindWaits (s : State) (fn : Nat) : Bool :=
  bindValid (Map.get (fun _ => 0) s.vfbind fn) && !bindValid (s.bindOf fn)

/-! ### Launch records (R364 to R366) -/

def Launch.w (l : Launch) (j : Nat) : Word := l.words.getD j 0
def Launch.ver (l : Launch) : Nat := fld (l.w 0) 63 60
def Launch.kind (l : Launch) : Nat := fld (l.w 0) 59 58
def Launch.stages (l : Launch) : Nat := fld (l.w 0) 57 55 + 1
def Launch.members (l : Launch) : Nat := fld (l.w 0) 54 46
def Launch.gangs (l : Launch) : Nat := fld (l.w 0) 45 30
def Launch.seq (l : Launch) : Nat := fld (l.w 0) 15 0
/-- c.adopt.LIMIT is at most 4 (R162). -/
def Launch.limit (l : Launch) : Nat := if l.ver = 3 then min (fld (l.w 7) 34 32) 4 else 3
def Launch.timeout (l : Launch) : Nat := if l.ver = 3 then fld (l.w 7) 31 0 else 0
/-- A version 2 record has no loft plan. -/
def Launch.lplan (l : Launch) : Word := if l.ver = 3 ∧ l.kind = 0 then l.w 5 else 0

/-- Has the record an invalid VER, KIND, reserved bit or field? -/
def Launch.bad (l : Launch) : Bool :=
  !(l.ver == 3 || l.ver == 2) || decide (2 ≤ l.kind) || (l.kind == 1 && l.ver != 3) || fld (l.w 0) 29 16 != 0
    || (l.kind == 0 &&
      (l.members == 0 || decide (504 < l.members) || l.gangs == 0 || fld (l.w 1) 63 18 != 0 || fld (l.w 1) 0 0 != 0
        || l.members % l.stages != 0
        || (if l.ver = 3 then decide (1024 < fld (l.w 4) 15 0) || fld (l.w 4) 63 16 != 0 || fld (l.w 7) 63 35 != 0
            else l.stages != 1 || l.w 3 != 0 || l.w 4 != 0)))

/-- Every gang has been placed, and every member has started. -/
def Launch.placed (l : Launch) : Bool := l.invalid || l.discarded || l.kind == 1 || (l.gangs == l.gang && l.plan == [])

/-- The record of a full ring place is copied and its w0 emptied, before any gang of it starts. A queue whose last record still
has gangs to place is not read further, nor one whose function's binding has not come into effect (log 17). -/
def execLaunchAcquire (fn : Nat) (s : State) : Out :=
  let f := s.fnAt fn
  let n := 2 ^ fld f.lqcfg 59 56
  if bit f.lqcfg 63 = false ∨ fld f.lqcfg 59 56 = 0 ∨ 12 < fld f.lqcfg 59 56 ∨ fld f.lqbase 5 0 ≠ 0 ∨ s.booted = false
      ∨ s.present fn = false ∨ s.bindWaits fn = true
      ∨ s.launches.any (fun l => l.fn == fn && !l.placed) = true then .next s
  else
    let base := padd f.lqbase (wd (64 * (f.lqnext % n)))
    let stop (s : State) (h : Option Hold) : State := s.setFn fn { s.fnAt fn with lqhold := h }
    if f.lqhold.any (fun h => decide (h.st ≠ .woken)) then .next s
    else
      match s.unitReads 0 (hostPartOf fn) (hostTenant fn) needRWS (wordsFrom base 8) with
      | (.error (.page x queued), s) => .next (stop (s.wantPage 0 x queued) (x.held 0))
      | (.error .wait, s) => .next s
      | (.error (.cause _ p), s) =>
        .next (stop s (some { tile := 0, part := hostPartOf fn, idx := ptrIdx p, page := ptrOff p / 4096, st := .failed }))
      | (.ok ts, s) =>
        let d := (ts.getD 0 { dpa := 0 }).dpa
        let s' := s.openUnit d (hostTenant fn) (hostPartOf fn) base
        if ts.any (fun t => s.gated t.dpa) || !(s.tagAt d).full then .next s
        else if ts.any (fun t => (s'.homeStop t.dpa true).isSome) then .next s'
        else
          let s := s'
          let b := s.bindOf fn
          let l : Launch :=
            { id := s.freshId, fn := fn, words := ts.map (fun t => s.word t.dpa), part := bindPart b, tenant := bindTenant b }
          let l := { l with invalid := l.bad || (l.kind == 0 && !bindValid b) }
          let s := (s.setEmpty d).setFn fn { f with lqnext := f.lqnext + 1, lqhold := none }
          let s := if l.invalid then
              s.post { code := 0x010E, sev := 0, engine := 11, tenant := hostTenant fn, action := 23, detail := wd l.seq }
            else s
          .next ({ s.bumpId with launches := s.launches ++ [l] }).unstall

/-! ### Placement (R174, R411) -/

/-- A word that the launcher reads in the function's host tenant, its line being open: clean, and outside quarantine. -/
def State.hostWord (s : State) (fn : Nat) (p : Word) : Option Word :=
  match s.reach 0 (hostPartOf fn) (hostTenant fn) p 8 needR with
  | .ok t =>
    if (s.homeStop t.dpa false).isSome || s.quarantined t.dpa || (s.gval t.dpa).p then none else some (s.word t.dpa)
  | .error _ => none

/-- The word's page, as a launch remembers those that it has not been given. -/
def pageOf (p : Word) : Nat × Nat := (ptrIdx p, ptrOff p / 4096)

/-- The lines of words of a record's placement map are opened; the pages of those that cannot be reached, and the page that is to be asked
for before the others. -/
def State.openWords (s : State) (fn : Nat) (bad : List (Nat × Nat)) : List Word → Option (PortFault × Bool) × List (Nat × Nat) × State
  | [] => (none, bad, s)
  | p :: ps =>
    if bad.contains (pageOf p) then s.openWords fn bad ps
    else
      match s.unitReads 0 (hostPartOf fn) (hostTenant fn) needR [p] with
      | (.ok ts, s) => (ts.foldl (fun (s : State) t => s.openUnit t.dpa (hostTenant fn) (hostPartOf fn) p) s).openWords fn bad ps
      | (.error (.page f queued), s) => (some (f, queued), bad, s)
      | (.error _, s) => s.openWords fn (bad ++ [pageOf p]) ps

/-- The pages that the launcher has not been given, its last wait being over (R57). -/
def Launch.settled (l : Launch) : List (Nat × Nat) :=
  l.lost ++ (match l.hold with
    | some h => if h.st = .failed then [(h.idx, h.page)] else []
    | none => [])

def State.openMap (s : State) (l : Launch) : Option (PortFault × Bool) × List (Nat × Nat) × State :=
  s.openWords l.fn l.settled (if l.ver = 2 then [] else wordsFrom (l.w 3) (2 * fld (l.w 4) 15 0))

/-- Extents: pointer, length, weight. An extent of the map that cannot be read counts for nothing (log 17). -/
def State.extents (s : State) (l : Launch) : List (Word × Nat × Nat) :=
  if l.ver = 2 then [(l.w 5, fld (l.w 7) 47 0, fld (l.w 7) 63 48)]
  else
    (List.range (fld (l.w 4) 15 0)).filterMap (fun j =>
      match s.hostWord l.fn (padd (l.w 3) (wd (16 * j))), s.hostWord l.fn (padd (l.w 3) (wd (16 * j + 8))) with
      | some p, some x => some (p, fld x 47 0, fld x 63 48)
      | _, _ => none)

/-- Granule of the region that a pointer's buffer lies in; a line in the loft. -/
def State.granuleOf (s : State) (part : Nat) (p : Word) : Nat :=
  if loftIdx (ptrIdx p) then 64 else 2 ^ (6 + (s.region (s.entryAt part (ptrIdx p)).region).glog)

/-- Sampling step of an extent. -/
def sampleStep (granule len : Nat) : Nat :=
  (max granule ((len + 1023) / 1024) + granule - 1) / granule * granule

/-- Weights of an extent's samples, each with the tower that it counts for. -/
def State.samples (s : State) (l : Launch) (x : Word × Nat × Nat) : List (Nat × Nat) :=
  let step := sampleStep (s.granuleOf l.part x.1) x.2.1
  (List.range ((x.2.1 + step - 1) / step)).filterMap (fun j =>
    let p := padd x.1 (wd (j * step))
    match s.unitXlate 0 l.part l.tenant (wd (p.toNat / 8 * 8)) 8 {} with
    | .to t => if dpaPkg t.dpa = s.package.toNat then some (dpaTile t.dpa / 64, x.2.2) else none
    | _ => none)

def State.score (s : State) (l : Launch) (tower : Nat) : Nat :=
  (((s.extents l).flatMap (s.samples l)).filter (fun x => x.1 == tower)).foldl (fun (n : Nat) x => n + x.2) 0

/-- The towers in descending score, ties lowest first. -/
def insertTower (x : Nat × Nat) : List (Nat × Nat) → List (Nat × Nat)
  | [] => [x]
  | y :: ys => if y.1 < x.1 ∨ (y.1 = x.1 ∧ x.2 < y.2) then x :: y :: ys else y :: insertTower x ys

def State.towerOrder (s : State) (l : Launch) : List Nat :=
  (((List.range 16).map (fun t => (s.score l t, t))).foldl (fun ts x => insertTower x ts) []).map (fun x => x.2)

/-- More than 8 fenced tiles: the launcher places no new gang in the tower (R347). -/
def State.degraded (s : State) (tower : Nat) : Bool :=
  decide (8 < ((List.range 64).filter (fun j => (s.tileAt (tower * 64 + j)).herd.fenced)).length)

/-- IDLE slots of a tile that the launch may use, in ascending order. -/
def State.roomIn (s : State) (l : Launch) (tile : Nat) : List Nat :=
  let t := s.tileAt tile
  if t.running && t.tenantOf l.part == l.tenant then
    (List.range 512).filter (fun sl => t.partOf sl == l.part && decide ((s.ctxAt (ctxId tile sl)).st = .idle))
  else []

/-- Queue sets and barrier objects of a tile that no context holds, those of switched-out tenants kept (log 17). -/
def State.heldBy (s : State) (tile : Nat) (f : Ctx → List Nat) : List Nat :=
  (s.ctxs.filter (fun x => tileOf x.1 == tile)).flatMap (fun x => f x.2)
    ++ (s.saved.filter (fun x => tileOf x.ctx == tile)).flatMap (fun x => f x.c)

def State.freeSets (s : State) (tile : Nat) : List Nat :=
  let used := s.heldBy tile (fun c => c.qdown.toList ++ c.qup.toList)
  (List.range 256).filter (fun k => !used.contains k)

def State.freeObj (s : State) (tile : Nat) : Option Nat :=
  let out := s.savedTiles.filter (fun x => x.tile == tile)
  (List.range 16).find? (fun k => !(s.barAt tile k).v && !out.any (fun x => x.bars.any (fun y => y.1 == k)))

/-- What a tile takes of a gang: its slots in member order, and the queue sets of its lanes. -/
structure Share where
  tile : Nat
  obj : Nat
  slots : List Nat
  sets : List Nat
  deriving DecidableEq, Repr

/-- Tiles fill in ascending number, lane by lane for a pipelined gang. -/
def State.fillTiles (s : State) (l : Launch) : Nat → List Nat → List Share
  | _, [] => []
  | 0, _ => []
  | left + 1, t :: ts =>
    let st := l.stages
    let room := s.roomIn l t
    let sets := s.freeSets t
    let lanes := min ((left + 1) / st) (if st = 1 then room.length else min (room.length / st) (sets.length / (st - 1)))
    match s.freeObj t with
    | none => s.fillTiles l (left + 1) ts
    | some o =>
      if lanes = 0 then s.fillTiles l (left + 1) ts
      else
        { tile := t, obj := o, slots := room.take (lanes * st), sets := sets.take (lanes * (st - 1)) }
          :: s.fillTiles l (left + 1 - lanes * st) ts

def sharesLen (xs : List Share) : Nat := (xs.map (fun (x : Share) => x.slots.length)).foldl (· + ·) 0

/-- The gang on the first tower that has room for it. -/
def State.placeGang (s : State) (l : Launch) : Option (List Share) :=
  (s.towerOrder l).findSome? (fun tower =>
    if s.degraded tower then none
    else
      let xs := s.fillTiles l l.members ((List.range 64).map (fun j => tower * 64 + j))
      if sharesLen xs = l.members then some xs else none)

/-! ### Loft plans (R82, R84) -/

/-- Every word of a LOWN space takes the value 0, full and unwatched, and its format registers are reset. -/
def State.scrub (s : State) (tile e : Nat) : State :=
  let t := s.tileAt tile
  let fmt := if e = 46 then Map.erase t.fmt 32 else if 16 ≤ e then Map.erase t.fmt (e - 14) else t.fmt
  { s with
    mem := s.mem.filter (fun x => !s.inSpace tile e x.1)
    tags := s.tags.filter (fun x => !s.inSpace tile e x.1)
    badBonds := s.badBonds.filter (fun x => !s.inSpace tile e x.1) }.dropWatches (fun w => s.inSpace tile e w.dpa) |>.setTileAt tile
    { t with fmt := fmt, acc := if e = 46 then [] else t.acc }

/-- The layout of a loft plan is not given: which of the spaces it may name become the partition's own, and their format
registers, are free values (log 17). -/
def State.planEntry (s : State) (tile part e : Nat) : State :=
  let t := s.tileAt tile
  let own := t.lownAt e
  if own = part ∨ 17 ≤ own then
    let new := if (Sys2Proof.Config.freeWord s.free).toNat % 2 = 1 then part else 31
    let s := s.bumpFree
    let s := if new = own then s
      else
        let s := s.scrub tile e
        s.setTileAt tile { s.tileAt tile with lown := Map.set (fun _ => 31) (s.tileAt tile).lown e (BitVec.ofNat 8 new) }
    if new = part ∧ 16 ≤ e then
      let t := s.tileAt tile
      let k := if e = 46 then 32 else e - 14
      (s.setTileAt tile { t with fmt := Map.set fmtReset t.fmt k (Sys2Proof.Config.freeWord s.free &&& fmtMask) }).bumpFree
    else s
  else s

def State.installPlan (s : State) (tile part : Nat) : State :=
  (List.range 46).foldl (fun (s : State) j => s.planEntry tile part (j + 1)) s

/-- May the plan change a tile's spaces now (R82)? -/
def State.planQuiet (s : State) (tile part : Nat) : Bool :=
  (List.range 46).all (fun j =>
    let own := (s.tileAt tile).lownAt (j + 1)
    (own != part && own < 17) || s.spaceQuiet tile (j + 1))

/-! ### Starting a gang (R167) -/

def State.updLaunch (s : State) (id : Nat) (f : Launch → Launch) : State :=
  { s with launches := s.launches.map (fun (l : Launch) => if l.id = id then f l else l) }

/-- Barrier objects of a gang: the first tile's is the root, the others are its children. LOSTTYPE is 0: no field of the launch record names
the type of GANG_LOST messages (DESIGN CHOICE, log 49). -/
def State.buildTree (s : State) (xs : List Share) : State :=
  let r := xs.headD { tile := 0, obj := 0, slots := [], sets := [] }
  xs.foldl (fun (s : State) x =>
    s.setBarAt x.tile x.obj
      { members := x.slots.foldl (fun (m : BitVec 512) sl => setBitIf m sl true) 0, v := true, root := x == r
        ptile := if x = r then 0 else BitVec.ofNat 10 r.tile, pobj := if x = r then 0 else BitVec.ofNat 4 r.obj
        children := if x = r then BitVec.ofNat 7 (xs.length - 1) else 0
        ltile := BitVec.ofNat 10 r.tile, lslot := BitVec.ofNat 9 (r.slots.headD 0) }) s

/-- Member j of a tile's share: its slot is taken, with its stage and its lane's queue sets, which start empty. -/
def State.seat (s : State) (l : Launch) (x : Share) (j : Nat) : State :=
  let st := l.stages
  let stage := j % st
  let set (k : Nat) : Option Nat := x.sets[j / st * (st - 1) + k]?
  let id := ctxId x.tile (x.slots.getD j 0)
  let c := s.ctxAt id
  s.setCtxAt id
    { c with
      st := .blocked (.member l.id), obj := some x.obj, stage := BitVec.ofNat 3 stage, stages := st, pipe := decide (1 < st)
      qdown := if stage + 1 < st then set stage else none, qup := if stage = 0 then none else set (stage - 1) }

def State.seatAll (s : State) (l : Launch) (xs : List Share) : State :=
  xs.foldl (fun (s : State) x =>
    let t := s.tileAt x.tile
    let s := s.setTileAt x.tile { t with qsets := t.qsets.filter (fun y => !x.sets.contains y.1) }
    (List.range x.slots.length).foldl (fun (s : State) j => s.seat l x j) s) s

def shareIds (xs : List Share) : List Nat := xs.flatMap (fun (x : Share) => x.slots.map (fun sl => ctxId x.tile sl))

/-- The next gang is placed. -/
def State.startGang (s : State) (l : Launch) (xs : List Share) : State :=
  let fresh := if l.lplan = 0 then [] else (xs.map (fun (x : Share) => x.tile)).filter (fun t => !l.lofts.contains t)
  let s := fresh.foldl (fun (s : State) t => s.installPlan t l.part) s
  let s := (s.buildTree xs).seatAll l xs
  let ids := shareIds xs
  s.updLaunch l.id (fun l =>
    { l with
      gang := l.gang + 1, plan := ids.zipIdx.map (fun x => (x.2, x.1)), live := l.live ++ ids.map (fun id => (l.gang, id))
      lofts := l.lofts ++ fresh })

/-- The first member still to start starts: R408, then T and LIMIT of the record. -/
def State.startMember (s : State) (l : Launch) (m : Nat × Nat) : State :=
  let s := s.updLaunch l.id (fun l => { l with plan := l.plan.drop 1 })
  let c := s.ctxAt m.2
  if c.st ≠ .blocked (.member l.id) then s
  else
    let x := (c.firstStart (tileOf m.2) (slotOf m.2) l.tenant).startArg (wd (fld (l.w 1) 17 0)) (l.w 2) m.1
    s.setCtxAt m.2
      { x with
        gang := true, obj := c.obj, stage := c.stage, stages := c.stages, pipe := c.pipe, qdown := c.qdown, qup := c.qup
        timeout := BitVec.ofNat 32 l.timeout, limit := BitVec.ofNat 3 l.limit, fenced := s.codeOld.length
        launch := (l.live.find? (fun y => y.2 == m.2)).map (fun y => (l.id, y.1)) }

/-- One step of the launcher for launch `k`: the next member starts, or the next gang is placed. -/
def execGangMemberStart (k : Nat) (s : State) : Out :=
  match s.launches[k]? with
  | none => .next s
  | some l =>
    match l.plan with
    | m :: _ => .next (s.startMember l m)
    | [] =>
      if l.placed || s.turning l.part || Hold.waiting l.hold then .next s
      else
        let (page, lost, s) := s.openMap l
        let s := s.updLaunch l.id (fun l => { l with lost := lost, hold := page.bind (fun x => x.1.held 0) })
        match page with
        | some (f, queued) => .next (s.wantPage 0 f queued)
        | none =>
        match s.placeGang l with
        | none => .next s
        | some xs =>
          let fresh := (xs.map (fun (x : Share) => x.tile)).filter (fun t => !l.lofts.contains t)
          if l.lplan ≠ 0 ∧ fresh.all (fun t => s.planQuiet t l.part) = false then .next s
          else .next (s.startGang l xs)

/-! ### The end of a launch (R366, R371) -/

/-- The command that a KIND 1 record stands for, as tile 0 reaches the host tenant's buffers. -/
def Launch.transfer (l : Launch) : CCmd :=
  { id := 0, form := .cpy, lo := ⟨l.w 2, false⟩, hi := ⟨l.w 5, false⟩, ctx := 0, part := hostPartOf l.fn, tenant := hostTenant l.fn
    pos := l.pos }

/-- Does the transfer end in this package: w3 names its domain and its number (R371)? -/
def State.endsHere (s : State) (l : Launch) : Bool :=
  fld (l.w 3) 8 0 == s.domain.toNat && fld (l.w 3) 16 9 == s.package.toNat

/-- Where an element goes, in this package. -/
def State.landElem (s : State) (c : CCmd) (m : Moved) : Except Stop Unit × State :=
  match c.destIndex with
  | none => (.ok (), s)
  | some e =>
    let s := s.portElem 0 c c.dst e
    match s.destPlace 0 0 c e m with
    | .error x => (.error x, s)
    | .ok x => if s.homeWaits x.dpa then (.error .wait, s) else s.writePlaces 0 c m [x]

/-- Elements of the transfer, from `pos` on: each is read, and where the transfer ends in this package it is written. The status, or what
the transfer waits for and the element at which it stands. -/
def State.moveElems (s : State) (c : CCmd) (here lost : Bool) : Nat → Nat → Except (Stop × Nat) Word × State
  | 0, _ => (.ok 0, s)
  | n + 1, pos =>
    let c := { c with pos := pos }
    let (x, s) := match s.sourceElem 0 c with
      | (.error x, s) => (Except.error x, s)
      | (.ok m, s) => if here then s.landElem c m else (.ok (), s)
    match x with
    | .ok _ => s.moveElems c here lost n (pos + 1)
    | .error (.cause k _) => (.ok (copyStatus 1 k pos), s)
    | .error (.page f queued) =>
      if lost then (.ok (copyStatus 1 cPAGE_FAULT pos), s) else (.error (.page f queued, pos), s)
    | .error .wait => (.error (.wait, pos), s)

/-- A record of the transfer, or its status where it cannot be used. -/
def State.transferRecord (s : State) (l : Launch) (p : Word) : Except (Stop × Nat) (Except Word (List Word)) × State :=
  match s.readRecord 0 l.transfer [] (wordsFrom p 8) with
  | (.ok ws, s) => (.ok (.ok ws), s)
  | (.error (.cause n _), s) => (.ok (.error (copyStatus 1 n allOnes48)), s)
  | (.error (.page f queued), s) =>
    if Hold.lost l.hold then (.ok (.error (copyStatus 1 cPAGE_FAULT allOnes48)), s) else (.error (.page f queued, l.pos), s)
  | (.error .wait, s) => (.error (.wait, l.pos), s)

/-- A KIND 1 record: every element of the source is read, and one that cannot be read fails it. In this package the destination record is
read too, and each element is written; what another package or domain answers is a free value (log 17). -/
def State.transferRun (s : State) (l : Launch) : Except (Stop × Nat) Word × State :=
  let here := s.endsHere l
  match s.transferRecord l (l.w 2) with
  | (.error x, s) => (.error x, s)
  | (.ok (.error v), s) => (.ok v, s)
  | (.ok (.ok src), s) =>
    match (if here then s.transferRecord l (l.w 5) else (.ok (.ok []), s)) with
    | (.error x, s) => (.error x, s)
    | (.ok (.error v), s) => (.ok v, s)
    | (.ok (.ok dst), s) =>
      let c := { l.transfer with src := src, dst := dst }
      let bad := if here then (s.recordFault 0 c).map (fun x => x.1)
        else if recInvalid src false || !s.sideAligned 0 src then some cILLEGAL_OPERAND else none
      match bad with
      | some n => (.ok (copyStatus 1 n allOnes48), s)
      | none =>
        match s.moveElems c here (Hold.lost l.hold) (recCount src - l.pos) l.pos with
        | (.ok v, s) =>
          if here || v != 0 then (.ok v, s)
          else
            let w := (Sys2Proof.Config.freeWord s.free).toNat
            (.ok (if w % 2 = 0 then 0 else copyStatus 1 (w / 2 % 256) (w / 512)), s.bumpFree)
        | (x, s) => (x, s)

/-- The launcher's step of a transfer. -/
def State.transferStep (s : State) (l : Launch) : State :=
  match s.transferRun l with
  | (.ok v, s) => s.updLaunch l.id (fun l => { l with result := some v, hold := none })
  | (.error (.page f queued, pos), s) =>
    (s.wantPage 0 f queued).updLaunch l.id (fun l => { l with pos := pos, hold := f.held 0 })
  | (.error (_, pos), s) => s.updLaunch l.id (fun l => { l with pos := pos, hold := none })

/-- Status of a record that is over. -/
def Launch.status (l : Launch) : Word :=
  if l.invalid then copyStatus 1 cILLEGAL_OPERAND allOnes48
  else if l.discarded then copyStatus 2 0 0
  else if l.kind = 1 then l.result.getD 0
  else
    match l.failed with
    | some (g, cause) => copyStatus 1 cause g
    | none => 0

/-- A transfer goes on; a record that is over fills its completion word, whose page it waits for (R54). -/
def execLaunchDone (k : Nat) (s : State) : Out :=
  match s.launches[k]? with
  | none => .next s
  | some l =>
    if l.placed = false ∨ (l.invalid = false ∧ l.live ≠ []) ∨ Hold.waiting l.hold = true then .next s
    else if l.kind = 1 ∧ l.invalid = false ∧ l.discarded = false ∧ l.result = none then .next (s.transferStep l).unstall
    else
      let p := l.w 6
      let out (s : State) : State := { s with launches := s.launches.eraseIdx k }
      if p = 0 ∨ Hold.lost l.hold = true then .next (out s)
      else
        match s.unitReads 0 (hostPartOf l.fn) (hostTenant l.fn) needWS [p] with
        | (.error (.page f queued), s) => .next ((s.wantPage 0 f queued).updLaunch l.id (fun l => { l with hold := f.held 0 }))
        | (.error .wait, s) => .next s
        | (.error (.cause _ _), s) => .next (out s)
        | (.ok ts, s) =>
          let d := (ts.headD { dpa := 0 }).dpa
          if s.gated d then .next s
          else .next (out (s.fillDone d (hostTenant l.fn) (hostPartOf l.fn) p l.status)).unstall

/-! ### Slot rotation (R175) -/

/-- Slots of a partition in every tile. -/
def State.partSlots (s : State) (part : Nat) : List Nat :=
  (List.range 1024).flatMap (fun tile =>
    let t := s.tileAt tile
    if t.owns part (t.firstSlot part) then
      (List.range (t.slotCount part)).map (fun j => ctxId tile (t.firstSlot part + j))
    else [])

/-- Pages of 32 KiB hold the root of a paged buffer (R43). -/
def rootBytes : Nat := tableBytes 0

/-- May firmware prepare the tenant with this buffer table and this root for its stack's page tables? Each is inside the table's region,
aligned, clear of every range in use (R407), and the table holds index 0x1_FFFF (R29, R157). The tenant has not run yet. -/
def State.prepareFits (s : State) (tenant : Nat) (btab root : Word) : Bool :=
  let k := btabRegion btab
  let base := btabBase btab
  let bytes := 32 * btabCount btab
  decide (1 ≤ tenant) && decide (tenant ≤ 0xEFFF)
    && !s.tables.any (fun x => x.1 == tenant) && !(List.range 16).any (fun p => (s.tileAt 0).tenantOf p == tenant)
    && !s.rotations.any (fun r => r.outgoing == tenant)
    && base % 64 == 0 && decide (0x1FFFF < btabCount btab) && decide (btabCount btab ≤ 0x3F000)
    && root.toNat % rootBytes == 0 && s.rangeFree k base bytes && s.rangeFree k root.toNat rootBytes
    && s.rangeSound k base bytes && s.rangeSound k root.toNat rootBytes && !meets k base bytes k root.toNat rootBytes

/-- Firmware prepares a tenant for its first run: its buffer table, with the entry of its stack buffer (R157), and the image of its vector
table (R361). The addresses are firmware's choice (R407). -/
def State.prepare (s : State) (tenant : Nat) (btab root : Word) (image : List (Nat × Word)) : State :=
  if s.prepareFits tenant btab root then
    let k := btabRegion btab
    let bytes := 32 * btabCount btab
    let s := ((s.grantRange k (btabBase btab) bytes).give tenant k (btabBase btab) bytes false)
    let s := ((s.grantRange k root.toNat rootBytes).give tenant k root.toNat rootBytes false)
    let others := s.images.filter (fun x => x.1 != tenant)
    let entries := image.map (fun x => (x.1 % 256, x.2))
    let s := { s with tables := Map.set (fun _ => 0) s.tables tenant btab, images := others ++ [(tenant, entries)] }
    s.withTable 0 tenant (fun s =>
      let gen := (s.entryAt 0 0x1FFFF).gen + 1
      s.setEntry 0 tenant 0x1FFFF
        ⟨wd (2 ^ 63 + 2 ^ 62 + 13 * 2 ^ 56 + k * 2 ^ 50 + gen % 2 ^ 16 * 2 ^ 34 + tenant * 2 ^ 10), root,
          wd (1024 * 504 * 0x10000), 0⟩)
  else s

/-- The package's partition that hosts a tenant, and that of a tenant that is switched out, whose table is kept elsewhere. -/
def State.hostedBy (s : State) (tenant : Nat) : Option Nat :=
  if s.tables.any (fun x => x.1 == tenant) then some 0
  else (List.range 16).find? (fun p => (s.tileAt 0).tenantOf p == tenant && !s.turning p)

/-- May firmware create a buffer of the tenant so: the index is free and not the stack's (R157), the fields are those of R30, and the base or
the root is inside its region, aligned and clear of every range in use (R407)? -/
def State.bufferFits (s : State) (part idx size rights region base : Nat) (paged : Bool) : Bool :=
  let k := if paged then btabRegion (s.btabOf part) else region
  let bytes := if paged then rootBytes else (size + 63) / 64 * 64
  s.indexFree part idx && !s.entryStuck part idx && decide (8 ≤ size) && decide (size ≤ 2 ^ 46) && size % 8 == 0 && decide (rights < 16)
    && decide (region < 32) && s.regionOk region && !(paged && (s.region region).rdx) && base % (if paged then rootBytes else 64) == 0
    && s.rangeFree k base bytes && s.rangeSound k base bytes

/-- Firmware creates a buffer that the tenant's launch image declares, and writes the words that the image holds of an unpaged one; every
other byte reads 0, full (R399, R61). The addresses are firmware's choice (R407). -/
def State.createBuffer (s : State) (tenant idx size rights region base : Nat) (paged : Bool) (words : List (Nat × Word)) : State :=
  match s.hostedBy tenant with
  | none => s
  | some part =>
    if (s.asTenant part tenant).bufferFits part idx size rights region base paged then
      s.withTable part tenant (fun s =>
        let s := if paged then
            (s.grantRange (btabRegion (s.btabOf part)) base rootBytes).give tenant (btabRegion (s.btabOf part)) base rootBytes false
          else (s.grantRange region base ((size + 63) / 64 * 64)).give tenant region base ((size + 63) / 64 * 64) false
        let s := s.openEntry part tenant idx
        let gen := (s.entryAt part idx).gen + 1
        let s := s.setEntry part tenant idx
          ⟨wd (2 ^ 63 + b2n paged * 2 ^ 62 + rights * 2 ^ 56 + region * 2 ^ 50 + gen % 2 ^ 16 * 2 ^ 34 + tenant * 2 ^ 10), wd base
            , wd size, 0⟩
        if paged then s
        else
          (words.filter (fun x => decide (x.1 % 8 = 0) && decide (x.1 + 8 ≤ size))).foldl (fun (s : State) x =>
            let d := s.homeOf region (base + x.1)
            (s.openUnit d tenant part 0 true).deviceWrite d x.2) s)
    else s

/-- Does a page of a region hold the word? -/
def State.pageHolds (s : State) (k addr bytes d : Nat) : Bool :=
  match s.regionAddr k d with
  | some ra => decide (addr ≤ ra) && decide (ra < addr + bytes)
  | none => false

/-- May firmware move a page of a paged buffer to `addr` (R60, R117)? Its leaf stands and is not being moved, nothing that the page holds is
on its way there, and the new page is inside the region, aligned, clear of every range in use (R407) and of retired banks, each of its
lines having COUNT below 2^53. -/
def State.moveFits (s : State) (part idx page addr : Nat) : Bool :=
  let tk := btabRegion (s.btabOf part)
  let e := s.entryAt part idx
  let leaf := s.homeOf tk ((s.walkPath tk e (page * 4096) 4 e.base).getLastD 0)
  let (lvl, pte) := s.walkEnd tk e (page * 4096)
  match s.pteStep tk e.region lvl pte with
  | .leaf old _ =>
    let bytes := pageBytes lvl
    e.valid && e.paged && addr % bytes == 0 && s.rangeFree e.region addr bytes && s.rangeSound e.region addr bytes
      && (List.range (bytes / 64)).all (fun j => decide (lineCount (s.lineCtr (s.homeOf e.region (addr + 64 * j))) < 2 ^ 53))
      && !s.quarantined leaf && !s.homeWaits leaf
      && !(s.net ++ s.refused).any (fun r => s.pageHolds e.region old bytes r.dpa)
  | _ => false

/-- The steps of R60 together: parked references go back, the page is copied with its P and W bits, its poison and its watch records, the
leaf names the new page, and every port forgets the old one. -/
def State.movePage (s : State) (tenant part idx page addr : Nat) : State :=
  let tk := btabRegion (s.btabOf part)
  let e := s.entryAt part idx
  let leaf := (s.walkPath tk e (page * 4096) 4 e.base).getLastD 0
  let (lvl, pte) := s.walkEnd tk e (page * 4096)
  match s.pteStep tk e.region lvl pte with
  | .leaf old _ =>
    let bytes := pageBytes lvl
    let first := page / (bytes / 4096) * (bytes / 4096)
    let s := (s.waits.filter (fun (w : Wait) => s.pageHolds e.region old bytes w.req.dpa)).foldl
      (fun (s : State) w => s.answerWait w .purged) s
    let s := (List.range (bytes / 64)).foldl (fun (s : State) j => s.openSealed (s.homeOf e.region (old + 64 * j)) 0) s
    let s := (List.range (bytes / 8)).foldl (fun (s : State) j =>
      s.carryWord (s.homeOf e.region (old + 8 * j)) (s.homeOf e.region (addr + 8 * j))) s
    let s := s.writeTables tk tenant [(wd leaf, wd (pte.toNat / 2 ^ 48 * 2 ^ 48 + addr))]
    { s.invalidateAll part (some idx) false first (bytes / 4096) with
      ranges := s.ranges.map (fun (r : Range) => if r.region = e.region ∧ r.base = old ∧ r.page then { r with base := addr } else r) }
  | _ => s

/-- Firmware migrates a page (R60, R117): where it goes is firmware's choice (R407). The steps are taken together, once nothing is on its way
to the page (DESIGN CHOICE, log 50); at the end the port wake of R57 is sent. -/
def State.migratePage (s : State) (tenant idx page addr : Nat) : State :=
  match s.hostedBy tenant with
  | none => s
  | some part =>
    if (s.asTenant part tenant).moveFits part idx page addr then
      let s := s.withTable part tenant (fun s => s.movePage tenant part idx page addr)
      s.tiles.foldl (fun (s : State) x => s.rewalk x.1 part idx page) s
    else s

/-- A refused request; DETAIL names no register here (log 18). -/
def State.refuse (s : State) (scope tile : Nat) : State :=
  s.bumpFree.post
    { code := 0x010B, sev := 0, engine := 12, scope := scope, tile := tile, action := 23, detail := Sys2Proof.Config.freeWord s.free }

/-- A tile at OFF, and not fenced, in which the partition has slots: none of them may go to a running tenant (R24). -/
def State.offTile (s : State) (part : Nat) : Option Nat :=
  (List.range 1024).find? (fun n =>
    let t := s.tileAt n
    decide (t.point = .off) && !t.herd.fenced && bit (t.pcfgAt part) 63 && decide (0 < t.slotCount part))

/-- A tenant that is bound to the partition, and whose tables firmware has prepared or kept, comes in (R361). -/
def execSlotRotation (part tenant : Nat) (s : State) : Out :=
  let out := (s.tileAt 0).tenantOf part
  let bound := s.vfbind.any (fun x => bindValid x.2 && bindPart x.2 == part && bindTenant x.2 == tenant)
  if 16 ≤ part ∨ bound = false ∨ out = tenant ∨ s.turning part = true ∨ s.tables.any (fun x => x.1 == tenant) = false then .next s
  else
    match s.offTile part with
    | some n => .next (s.refuse 0 n)
    | none =>
    let r : Rotation :=
      { part := part, outgoing := out, incoming := tenant, left := s.partSlots part, tiles := List.range 1024 }
    let s := r.tiles.foldl (fun (s : State) n =>
      let t := s.tileAt n
      let w := wd ((t.pcfgAt part).toNat / 2 ^ 16 * 2 ^ 16 + tenant % 2 ^ 16)
      s.setTileAt n { t with pcfg := Map.set pcfgReset t.pcfg part w }) s
    .next { s with rotations := s.rotations ++ [r] }

/-- The context as it is saved (R334): most waits issue again, a nap keeps the time that remains, and what its port and Carousel knew of
it goes. `none`: the slot cannot be handed over yet; a READY one must first be chosen by Carousel, and a BORROWED one goes with its
borrower. -/
def Ctx.forSaving (c : Ctx) (now : Nat) : Option Ctx :=
  let c' : Ctx := { c with yield_ := [], after := [], rewalk := none, seen := [], walked := [], hold := none }
  match c.st with
  | .idle => some c'
  | .swapping => some { c' with st := .ready }
  | .ready => none
  | .borrowed => none
  | .blocked w =>
    (match w with
      | .retry => some c'.cancelled
      | .port _ _ _ _ => some c'.cancelled
      | .await _ _ _ => some c'.cancelled
      | .helping _ _ _ => some c'.cancelled
      | .barrier _ => some { c'.cancelled with barWait := true }
      | .nap t => some { c' with st := .blocked (.nap (t - now)) }
      | .claiming _ _ => some c'
      | _ => none)

/-- The bindings that the rotation brings into effect: those of the incoming tenant to the partition; one of the outgoing tenant that
VFBIND has given up ends (R361). -/
def State.bindTurn (s : State) (r : Rotation) : State :=
  let names (w : Word) (tenant : Nat) : Bool := bindValid w && bindPart w == r.part && bindTenant w == tenant
  let kept := s.bound.filter (fun (x : Nat × Word) => !names x.2 r.outgoing || Map.get (fun _ => 0) s.vfbind x.1 == x.2)
  { s with bound := (s.vfbind.filter (fun (x : Nat × Word) => names x.2 r.incoming)).foldl (fun (m : Map Word) x =>
      Map.set (fun _ => 0) m x.1 x.2) kept }

/-- The tables change once the last slot has been handed over. -/
def State.turnTables (s : State) (r : Rotation) : State :=
  let in_ := Map.get (fun _ => 0) s.tables r.incoming
  let tables := Map.erase s.tables r.incoming
  let s := { s with
    btab := Map.set (fun _ => 0) s.btab r.part in_
    tables := if r.outgoing = 0 then tables else Map.set (fun _ => 0) tables r.outgoing (Map.get (fun _ => 0) s.btab r.part) }
  (s.mapTiles (fun _ t => t.invalidate r.part none true 0 0)).bindTurn r

/-- A slot under the incoming tenant: as it was saved, or IDLE with its stack pointers set (R157). -/
def State.fillSlot (s : State) (r : Rotation) (id : Nat) : State :=
  match s.saved.find? (fun x => x.tenant == r.incoming && x.ctx == id) with
  | some x =>
    let c := match x.c.st with
      | .blocked (.nap t) => { x.c with st := .blocked (.nap (s.cycle.toNat + t)) }
      | _ => x.c
    { s with saved := s.saved.erase x }.setCtxAt id { c with fenced := s.codeOld.length }
  | none => s.setCtxAt id { ({} : Ctx).firstStart (tileOf id) (slotOf id) r.incoming with fenced := s.codeOld.length }

/-- One slot is saved as `c`, and the incoming tenant's state is loaded into it. -/
def State.swapSlot (s : State) (r : Rotation) (id : Nat) (c : Ctx) : State :=
  let x : Saved := { tenant := r.outgoing, ctx := id, c := c }
  { s with saved := if r.outgoing = 0 then s.saved else s.saved ++ [x] }.fillSlot r id

/-- Slots leave those that the rotation still has to hand over; after the last one the tables change. -/
def State.slotsTurned (s : State) (r : Rotation) (ids : List Nat) : State :=
  let r' := { r with left := r.left.filter (fun x => !ids.contains x) }
  let s := { s with rotations := s.rotations.map (fun y => if y = r then r' else y) }
  if r'.left = [] then s.turnTables r else s

/-- A slot of the outgoing tenant is swapped once nothing of it is in flight, with the slots that it has borrowed (R173). In a tile that is
fenced or at OFF there is nothing to save, once its frames have been recovered. -/
def execSlotSwap (ctx : Nat) (s : State) : Out :=
  match s.rotations.find? (fun r => r.left.contains ctx) with
  | none => .next s
  | some r =>
    let t := s.tileAt (tileOf ctx)
    let c := s.ctxAt ctx
    if t.running = false then
      (if t.herd.fenced && !t.herd.recovered then .next s else .next ((s.setCtxAt ctx {}).slotsTurned r [ctx]).unstall)
    else if t.clocked = false then .next s
    else
      match c.forSaving s.cycle.toNat with
      | none => .next s
      | some x =>
        if s.quiet ctx = false ∨ c.pend ≠ [] ∨ s.marksDone ctx = false ∨ (s.issuing = true ∧ s.cur = ctx)
            ∨ (c.st ≠ SlotState.swapping ∧ s.sweeps r ctx = false) then .next s
        else
          let t := { t with parked := t.parked.filter (fun n => n != slotOf ctx) }
          let s := if c.st = SlotState.swapping then s else s.swept (tileOf ctx) r.part
          let s := (s.setTileAt (tileOf ctx) t).mapCtxs (fun k y =>
            if tileOf k = tileOf ctx then { y with after := y.after.filter (fun n => n != slotOf ctx) } else y)
          let held := c.borrowed.map (fun sl => ctxId (tileOf ctx) sl)
          let s := held.foldl (fun (s : State) id => s.swapSlot r id (s.ctxAt id)) (s.swapSlot r ctx x)
          .next (s.slotsTurned r (ctx :: held)).unstall

/-! ### The loft changes hands (R82, R176, R309) -/

/-- A command as it is saved: a running one stops after its element. -/
def CCmd.asSaved (c : CCmd) : CCmd := { c with page := none, st := if c.st = .running then .suspended else c.st }

def State.saveTile (s : State) (tile : Nat) (r : Rotation) : SavedTile :=
  let t := s.tileAt tile
  let inOwned (d : Nat) : Bool := (List.range 47).any (fun e => t.lownAt e == r.part && s.inSpace tile e d)
  let cs := (s.saved.filter (fun x => x.tenant == r.outgoing && tileOf x.ctx == tile)).map (fun x => x.c)
  let objs := cs.flatMap (fun c => c.obj.toList)
  let sets := cs.flatMap (fun c => c.qdown.toList ++ c.qup.toList)
  let arr := t.lownAt 46 == r.part
  { tenant := r.outgoing, tile := tile
    acc := if arr then t.acc else [], atype := if arr then t.atype else [], ver := if arr then t.ver else []
    mq := t.mq.filter (fun m => m.part == r.part)
    cq := (t.cq.filter (fun c => c.part == r.part)).map CCmd.asSaved
    deque := t.dequeAt r.part
    qsets := t.qsets.filter (fun x => sets.contains x.1)
    bars := t.bars.filter (fun x => objs.contains x.1)
    vect := t.vect.filter (fun x => x.1 / 256 == r.part)
    loft := s.mem.filter (fun x => inOwned x.1)
    tags := s.tags.filter (fun x => inOwned x.1)
    watches := s.watches.filter (fun (w : Watch) => inOwned w.dpa)
    fmt := t.fmt.filter (fun x => t.lownAt (if x.1 = 32 then 46 else x.1 + 14) == r.part)
    inbox := t.inbox.filter (fun m => m.table == r.part && m.user && m.tenant == r.outgoing) }

/-- What the outgoing tenant had in a tile is gone from it, and its spaces are scrubbed. A saved watch record is armed again when it comes
back, so no message says that it is gone (R77). -/
def State.clearTile (s : State) (tile : Nat) (r : Rotation) (out : SavedTile) : State :=
  let t := s.tileAt tile
  let arr := t.lownAt 46 == r.part
  let kept := if r.outgoing = 0 then [] else out.watches
  let s := { s with watches := s.watches.filter (fun w => !kept.contains w) }.setTileAt tile
    { t with
      acc := if arr then [] else t.acc, atype := if arr then [] else t.atype, ver := if arr then [] else t.ver
      mq := t.mq.filter (fun m => m.part != r.part)
      cq := t.cq.filter (fun c => c.part != r.part)
      deque := Map.erase t.deque r.part
      qsets := t.qsets.filter (fun x => !out.qsets.contains x)
      bars := t.bars.filter (fun x => !out.bars.contains x)
      vect := t.vect.filter (fun x => x.1 / 256 != r.part)
      inbox := t.inbox.filter (fun m => !out.inbox.contains m)
      fetches := t.fetches.filter (fun x => x.1 != r.part)
      walks := t.walks.filter (fun x => x.part != r.part)
      faults := t.faults.filter (fun x => x.part != r.part) }
  ((List.range 47).filter (fun e => t.lownAt e == r.part)).foldl (fun (s : State) e => s.scrub tile e) s

/-- A saved map laid over a map. -/
def overlay {β : Type} [DecidableEq β] (d : Nat → β) (m : Map β) (xs : List (Nat × β)) : Map β :=
  xs.foldl (fun (m : Map β) x => Map.set d m x.1 x.2) m

/-- The incoming tenant's state comes back, in the spaces that its partition owns now. An engine that is out of service ends the commands
that come back (R332), and the barrier units make up for the checks that they have missed. -/
def State.fillTile (s : State) (tile : Nat) (r : Rotation) (x : SavedTile) : State :=
  let t := s.tileAt tile
  let inOwned (d : Nat) : Bool := (List.range 47).any (fun e => t.lownAt e == r.part && s.inSpace tile e d)
  let arr := t.lownAt 46 == r.part
  let fmt := x.fmt.filter (fun y => t.lownAt (if y.1 = 32 then 46 else y.1 + 14) == r.part)
  let s := { s with
    mem := overlay unwritten s.mem (x.loft.filter (fun y => inOwned y.1))
    tags := overlay (fun _ => {}) s.tags (x.tags.filter (fun y => inOwned y.1))
    watches := s.watches ++ x.watches.filter (fun (w : Watch) => inOwned w.dpa)
    savedTiles := s.savedTiles.filter (fun y => !(y.tenant == x.tenant && y.tile == x.tile)) }.setTileAt tile
    { t with
      acc := if arr then x.acc else t.acc, atype := if arr then x.atype else t.atype, ver := if arr then x.ver else t.ver
      mq := t.mq ++ x.mq, cq := t.cq ++ x.cq
      deque := Map.set (fun _ => {}) t.deque r.part x.deque
      qsets := overlay (fun _ => {}) t.qsets x.qsets
      bars := overlay (fun _ => {}) t.bars x.bars
      vect := overlay (fun _ => 0) t.vect x.vect
      fmt := overlay fmtReset t.fmt fmt
      inbox := x.inbox ++ t.inbox }
  let s := if t.copyDown then s.copyOut tile else s
  ((if t.matrixDown then s.matrixOut tile else s).wakeBars tile)

/-- The tile is done; the rotation ends with the last one. -/
def State.tileTurned (s : State) (tile : Nat) (r : Rotation) : State :=
  let r' := { r with tiles := r.tiles.erase tile }
  { s with rotations := if r'.tiles = [] then s.rotations.erase r else s.rotations.map (fun y => if y = r then r' else y) }

/-- Firmware loads the vector table of a tenant that comes into a tile for the first time (R361). -/
def State.loadImage (s : State) (tile : Nat) (r : Rotation) : State :=
  match s.images.find? (fun x => x.1 == r.incoming) with
  | none => s
  | some x =>
    let t := s.tileAt tile
    s.setTileAt tile { t with vect := overlay (fun _ => 0) t.vect (imageVect r.part x.2) }

/-- A tile changes hands. Each of its slots fetches anew what its code banks hold then (R104). -/
def State.handOver (s : State) (tile : Nat) (r : Rotation) : State :=
  let out := s.saveTile tile r
  let s := s.clearTile tile r out
  let s := { s with savedTiles := if r.outgoing = 0 then s.savedTiles else s.savedTiles ++ [out] }
  let s := match s.savedTiles.find? (fun x => x.tenant == r.incoming && x.tile == tile) with
    | some x => s.fillTile tile r x
    | none => s.loadImage tile r
  let s := s.mapCtxs (fun id c => if tileOf id = tile ∧ s.partOf id = r.part then { c with fenced := s.codeOld.length } else c)
  s.tileTurned tile r

/-- Is nothing in flight that names a space of the partition in the tile, nor one of its barrier objects? A command that occupies the
array is stopped at the chunk boundary where it is, and goes with the queue (R291); one whose result is not complete yet is waited for
(R176). -/
def State.handQuiet (s : State) (tile : Nat) (r : Rotation) : Bool :=
  let t := s.tileAt tile
  let inOwned (d : Nat) : Bool := (List.range 47).any (fun e => t.lownAt e == r.part && s.inSpace tile e d)
  !(t.mq.any (fun (m : MCmd) => m.part == r.part && m.running && decide (m.left = 0)))
    && !(t.cq.any (fun (c : CCmd) => c.part == r.part && !c.late.isEmpty))
    && !(s.tiles.any (fun x => x.2.cq.any (fun (c : CCmd) => c.part == r.part && c.late.any (fun l => l.tile == tile))))
    && !(s.net.any (fun q => inOwned q.dpa || (q.part == r.part && dpaTile q.dpa == tile)))
    && !(s.refused.any (fun q => inOwned q.dpa)) && !(s.replies.any (fun q => inOwned q.req.dpa))
    && !(s.waits.any (fun w => inOwned w.req.dpa)) && !(s.releases.any (fun x => x.1 == tile))

/-- One tile changes hands; a tile that is fenced or at OFF has nothing to hand over. -/
def execLoftHandover (tile part : Nat) (s : State) : Out :=
  match s.rotations.find? (fun r => r.part == part && r.left.isEmpty && r.tiles.contains tile) with
  | none => .next s
  | some r =>
    if (s.tileAt tile).running = false then .next (s.tileTurned tile r).unstall
    else if (s.tileAt tile).clocked && s.handQuiet tile r then .next (s.handOver tile r).unstall
    else .next s

end Sys2Proof.Machine
end

