-- ==== Sys2Proof/Machine/EvHerd.lean ====
section
/-! DEFINITION. The Herd Vote: heartbeats (R340, R341), judgements (R342), relays (R343), the count (R344, R345), fencing (R74, R347,
R331), recovery of frames (R348, R330), self-test, appeal and readmission (R352 to R354). -/

namespace Sys2Proof.Machine

open Sys2Proof

/-! ### Neighbours -/

/-- Neighbour of a tile in direction 0 N, 1 E, 2 S, 3 W, within its tower's 8 by 8 tiles. -/
def neighbour (t j : Nat) : Option Nat :=
  let x := t % 8
  let y := t / 8 % 8
  if j = 0 then (if y = 0 then none else some (t - 8))
  else if j = 1 then (if x = 7 then none else some (t + 1))
  else if j = 2 then (if y = 7 then none else some (t + 8))
  else (if x = 0 then none else some (t - 1))

def opposite (j : Nat) : Nat := (j + 2) % 4

/-- Are two tiles of one tower neighbours, or diagonal to each other? -/
def adjacent (a b : Nat) : Bool := [0, 1, 2, 3].any (fun j => neighbour a j == some b)
def diagonal (a b : Nat) : Bool :=
  a / 64 == b / 64 && (a % 8 + 1 == b % 8 || b % 8 + 1 == a % 8)
    && (a / 8 % 8 + 1 == b / 8 % 8 || b / 8 % 8 + 1 == a / 8 % 8)

def State.herd (s : State) (t : Nat) : Herd := (s.tileAt t).herd
def State.setHerd (s : State) (t : Nat) (h : Herd) : State := s.setTileAt t { s.tileAt t with herd := h }
def Herd.nbrAt (h : Herd) (j : Nat) : Neighbour := Map.get (fun _ => {}) h.nbr j
def Herd.setNbr (h : Herd) (j : Nat) (n : Neighbour) : Herd := { h with nbr := Map.set (fun _ => {}) h.nbr j n }

/-- Live neighbours: direction and tile of each that is not fenced (R343). -/
def State.liveNbrs (s : State) (t : Nat) : List (Nat × Nat) :=
  [0, 1, 2, 3].filterMap (fun j =>
    match neighbour t j with
    | some n => if (s.herd n).fenced then none else some (j, n)
    | none => none)

/-- SILENT or BABBLING. -/
def against (b : BitVec 2) : Bool := b == 1 || b == 2

/-- Judgements against needed (R344); 5, more than there can be, below two live neighbours. -/
def neededAgainst (live : Nat) : Nat := if live = 4 then 3 else if live = 3 ∨ live = 2 then 2 else 5

/-- 24 hours of reference time (R21). -/
def dayCycles : Nat := 207360000000000

def State.appealsOf (s : State) (t : Nat) : Nat :=
  ((s.herd t).appeals.filter (fun a => decide (s.cycle.toNat < a + dayCycles))).length

/-- JUDGE field of a tile: 3 for a direction without a neighbour or with a fenced one (R340). A tile that appeals is judged afresh, and
its voters send what they judge (R352). -/
def State.judgeField (s : State) (t : Nat) : Nat :=
  ([0, 1, 2, 3].map (fun j =>
    (match neighbour t j with
      | none => 3
      | some n =>
        if (s.herd n).fenced && !(s.herd n).appealing then 3 else ((s.herd t).nbrAt j).judge.toNat) * 4 ^ j)).foldl (· + ·) 0

/-- VSTAT (R354). -/
def State.vstat (s : State) (t : Nat) : Word :=
  let h := s.herd t
  let live := s.liveNbrs t
  let st := if h.appealing then 3 else if h.fenced then 2 else if live.any (fun x => against (h.nbrAt x.1).theirs) then 1 else 0
  let liven := (live.map (fun x => 2 ^ x.1)).foldl (· + ·) 0
  let jin := ([0, 1, 2, 3].map (fun j => (h.nbrAt j).theirs.toNat * 4 ^ j)).foldl (· + ·) 0
  wd (st * 2 ^ 62 + min (s.appealsOf t) 3 * 2 ^ 60 + liven * 2 ^ 56 + s.judgeField t * 2 ^ 48 + jin * 2 ^ 40
    + h.fcause.toNat * 2 ^ 32 + h.lastSeq.toNat * 2 ^ 16)

/-- Number of the current period (R340). -/
def State.period (s : State) : Nat := s.cycle.toNat / 4096

/-! ### Heartbeats (R340, R341) -/

def pointCode : Point → Nat
  | .n => 0
  | .l1 => 1
  | .l2 => 2
  | .g => 3
  | .off => 4

def emptyRelay : BitVec 22 := BitVec.allOnes 22

/-- Bits [127:32] of a heartbeat. -/
def Heartbeat.bits (hb : Heartbeat) : Nat :=
  hb.seq.toNat * 2 ^ 80 + b2n hb.hung * 2 ^ 79 + hb.point.toNat * 2 ^ 76 + b2n hb.fenced * 2 ^ 75 + b2n hb.appeal * 2 ^ 74
    + hb.reserved.toNat / 2 ^ 20 * 2 ^ 72 + hb.judge.toNat * 2 ^ 64 + hb.relay0.toNat * 2 ^ 42 + hb.relay1.toNat * 2 ^ 20
    + hb.reserved.toNat % 2 ^ 20

/-- One bit of a CRC-32 with the polynomial of IEEE 802.3. -/
def crcBit (c : Nat) (b : Bool) : Nat :=
  let x := c * 2 % 2 ^ 32
  if decide (2 ^ 31 ≤ c) = b then x else x ^^^ 0x04C11DB7

/-- CRC-32 over the bits, the most significant first, from a register of all ones whose complement is taken. The rule gives the polynomial,
and not these (DESIGN CHOICE, log 23). -/
def Heartbeat.check (hb : Heartbeat) : BitVec 32 :=
  ~~~ (BitVec.ofNat 32 ((List.range 96).foldl (fun (c : Nat) j => crcBit c (hb.bits.testBit (95 - j))) (2 ^ 32 - 1)))

/-- Each tile sends in the cycle that begins a period, once. SEQ goes up in a period in which its router is silent too. -/
def execHeartbeatSend (tile : Nat) (s : State) : Out :=
  let t := s.tileAt tile
  let h := t.herd
  if s.cycle.toNat % 4096 ≠ 0 ∨ s.period < h.sent ∨ 1024 ≤ tile
      ∨ Map.get (fun _ => .n) s.infra (tile / 64) = .off then .next s
  else if h.silent then .next (s.setHerd tile { h with sent := s.period + 1, seq := h.seq + 1 })
  else
    let hb : Heartbeat :=
      { seq := h.seq + 1, hung := h.hung
        point := BitVec.ofNat 3 (if h.selfTest then 5 else pointCode t.point)
        fenced := h.fenced, appeal := h.appealing, judge := BitVec.ofNat 8 (s.judgeField tile)
        relay0 := h.relays.headD emptyRelay, relay1 := (h.relays.drop 1).headD emptyRelay }
    let hb := { hb with crc := hb.check }
    let s := s.setHerd tile { h with sent := s.period + 1, seq := h.seq + 1, lastSeq := h.seq + 1, relays := h.relays.drop 2 }
    .next ([0, 1, 2, 3].foldl (fun (s : State) j =>
      match neighbour tile j with
      | none => s
      | some n =>
        let x := s.herd n
        s.setHerd n { x with wires := Map.set (fun _ => none) x.wires (opposite j) (some hb) }) s)

/-- Malformed in one of the ways of R341; `intact` is false where the wires have changed it on its way, so that its CRC fails. -/
def Heartbeat.malformed (hb : Heartbeat) (sender : Nat) (prev : BitVec 16) (intact : Bool) : Bool :=
  !intact || hb.crc != hb.check || hb.reserved != 0 || hb.seq != prev + 1 || decide (6 ≤ hb.point.toNat)
    || [0, 1, 2, 3].any (fun j => neighbour sender j == none && hb.judge.toNat / 4 ^ j % 4 != 3)

/-- A judgement learned at a router that is a voter on the subject or lies diagonal to it: held, and passed on once (R343). A judgement of
3, which no relay carries, ends one that was held. -/
def Herd.learn (h : Herd) (me subj voter j : Nat) : Herd :=
  let key := subj * 1024 + voter
  if subj = me ∨ voter = me ∨ !(adjacent me subj || diagonal me subj) ∨ (Map.get (fun _ => 0) h.held key).toNat = j then h
  else if j = 3 then { h with held := Map.erase h.held key }
  else
    { h with held := Map.set (fun _ => 0) h.held key (BitVec.ofNat 2 j)
             relays := h.relays ++ [BitVec.ofNat 22 (subj * 2 ^ 12 + voter * 2 ^ 2 + j)] }

/-- J = 3 marks an empty entry. -/
def Herd.learnRelay (h : Herd) (me : Nat) (r : BitVec 22) : Herd :=
  if r.toNat % 4 = 3 then h else h.learn me (r.toNat / 2 ^ 12) (r.toNat / 4 % 1024) (r.toNat % 4)

/-- Nothing is held or passed on about a tile any more: it has been fenced, or it is readmitted. -/
def Herd.forget (h : Herd) (subj : Nat) : Herd :=
  { h with
    held := h.held.filter (fun x => x.1 / 1024 != subj)
    relays := h.relays.filter (fun (r : BitVec 22) => r.toNat / 2 ^ 12 != subj) }

def State.forget (s : State) (subj : Nat) : State :=
  s.tiles.foldl (fun (s : State) x => s.setHerd x.1 ((s.herd x.1).forget subj)) s

/-- What a well-formed heartbeat tells: a sender that is fenced, or that this router judges SILENT or BABBLING, casts no vote (R346), and
one that is fenced or SILENT relays nothing (R343). -/
def Herd.hear (h : Herd) (me from_ j : Nat) (hb : Heartbeat) : Herd :=
  let n := h.nbrAt j
  let h := h.setNbr j
    { n with
      heard := true, chung := hb.hung && decide (hb.point.toNat ≤ 2)
      theirs := if hb.fenced then n.theirs else BitVec.ofNat 2 (hb.judge.toNat / 4 ^ opposite j) }
  let h := if hb.fenced || against n.judge then h
    else
      [0, 1, 2, 3].foldl (fun (h : Herd) k =>
        match neighbour from_ k with
        | some subj => if diagonal me subj then h.learn me subj from_ (hb.judge.toNat / 4 ^ k % 4) else h
        | none => h) h
  if hb.fenced || n.judge == 1 then h else (h.learnRelay me hb.relay0).learnRelay me hb.relay1

/-- The heartbeat that stands on the wires of direction `j` is taken. -/
def execHeartbeatReceive (tile j : Nat) (intact : Bool) (s : State) : Out :=
  let h := s.herd tile
  match Map.get (fun _ => none) h.wires j, neighbour tile j with
  | some hb, some from_ =>
    let n := h.nbrAt j
    let bad := hb.malformed from_ n.seq intact
    let h := { h with wires := Map.erase h.wires j }.setNbr j { n with seq := hb.seq }
    .next (s.setHerd tile
      (if bad then h.setNbr j { h.nbrAt j with heard := true, broken := true } else h.hear tile from_ j hb))
  | _, _ => .next s

/-! ### Judgements (R342, R345, R352) -/

/-- The judgement of one neighbour at the end of a period; `crowded`: the link has counted too many packets from it. One against it
returns to OK after 2 good heartbeats in a row, and before that with no row of the table either. While it is fenced the counts rest, so that
an appeal is judged afresh (R352). -/
def Neighbour.judged (n : Neighbour) (fencedOut crowded : Bool) : Neighbour :=
  let n' := { n with heard := false, broken := false, chung := false }
  if fencedOut then { n' with bad := [], missed := 0, hung := 0, good := 0, judge := 3 }
  else
    let bad := (n.broken :: n.bad).take 4
    let missed := if n.heard then 0 else n.missed + 1
    let hung := if n.heard && !n.broken && n.chung then n.hung + 1 else 0
    let good := if n.heard && !n.broken && !n.chung && !crowded then n.good + 1 else 0
    let raw : BitVec 2 :=
      if 2 ≤ (bad.filter (fun b => b)).length ∨ crowded = true then 2
      else if 3 ≤ missed ∨ 3 ≤ hung then 1
      else 0
    { n' with
      bad := bad, missed := missed, hung := hung, good := good
      judge := if against n.judge then (if 2 ≤ good then 0 else if raw = 0 then n.judge else raw) else raw }

/-- The fresh words of a loft (R61, R353). -/
def State.freshLoft (s : State) (tile : Nat) : State :=
  let in_ (d : Nat) : Bool := dpaLoft d && dpaTile d == tile && dpaPkg d == s.package.toNat
  { s with
    mem := s.mem.filter (fun x => !in_ x.1), tags := s.tags.filter (fun x => !in_ x.1)
    badBonds := s.badBonds.filter (fun x => !in_ x.1) }.dropWatches (fun w => in_ w.dpa)

/-- The stack pointers of every slot that a tenant holds in the tile (R157). -/
def State.freshSlots (s : State) (tile : Nat) : State :=
  let t := s.tileAt tile
  (List.range 16).foldl (fun (s : State) p =>
    if t.owns p (t.firstSlot p) && t.tenantOf p != 0 then
      (List.range (t.slotCount p)).foldl (fun (s : State) j =>
        s.setCtxAt (ctxId tile (t.firstSlot p + j)) (({} : Ctx).firstStart tile (t.firstSlot p + j) (t.tenantOf p))) s
    else s) s

/-- Readmission (R353): every slot IDLE, the loft fresh, the accumulators as at reset. -/
def State.readmit (s : State) (tile : Nat) : State :=
  let s := ((s.freshLoft tile).freshSlots tile).forget tile
  let t := s.tileAt tile
  s.setTileAt tile
    { t with
      acc := [], atype := [], ver := [], copyDown := false, matrixDown := false
      herd := { t.herd with
        fenced := false, resetting := false, selfTest := false, testFailed := false, appealing := false, okPeriods := 0, appealPeriods := 0, lonePeriods := 0
        fcause := 0, recovered := true } }

def voteRecord (tile sev action : Nat) (vstat : Word) : RecordSpec :=
  { code := 0x0108, sev := sev, engine := 10, tile := tile, action := action, detail := vstat }

/-- Is the voter SILENT or BABBLING, so that it casts no vote (R346)? It is where a live neighbour of it, but the subject, judges it so
(log 23). A router that sends nothing is. -/
def State.mute (s : State) (subj voter : Nat) : Bool :=
  (s.herd voter).silent || (s.liveNbrs voter).any (fun x => x.2 != subj && against ((s.herd x.2).nbrAt (opposite x.1)).judge)

/-- One period of an appeal (R352); a voter that casts no vote counts as not OK (R344, R346). -/
def State.appealPeriod (s : State) (tile : Nat) : State :=
  let h := s.herd tile
  let live := s.liveNbrs tile
  let ok := (live.filter (fun x => !s.mute tile x.2 && !against (h.nbrAt x.1).theirs && (h.nbrAt x.1).theirs != 3)).length
  let okPeriods := if live.length < 2 * ok then h.okPeriods + 1 else 0
  if 8 ≤ okPeriods then
    let s := s.readmit tile
    (s.post (voteRecord tile 0 17 (s.vstat tile))).unstall
  else if 64 ≤ h.appealPeriods + 1 then
    let s := s.setHerd tile
      { h with
        appealing := false, selfTest := decide (s.appealsOf tile < 3), testSince := s.cycle.toNat, okPeriods := 0, appealPeriods := 0 }
    s.post (voteRecord tile 4 29 (s.vstat tile))
  else s.setHerd tile { h with okPeriods := okPeriods, appealPeriods := h.appealPeriods + 1 }

/-- The accusation of a tile by its only live neighbour (R345). -/
def State.lonePeriod (s : State) (tile : Nat) : State :=
  let h := s.herd tile
  match s.liveNbrs tile with
  | [(j, n)] =>
    if against ((s.herd n).nbrAt (opposite j)).judge then
      let s := s.setHerd tile { h with lonePeriods := h.lonePeriods + 1 }
      if h.lonePeriods + 1 = 16 then s.post (voteRecord tile 0 18 (s.vstat tile)) else s
    else s.setHerd tile { h with lonePeriods := 0 }
  | _ => s.setHerd tile { h with lonePeriods := 0 }

/-- At the end of a period each router judges its neighbours, once. Bit j of `crowd`: its link in direction j has received more than
12,288 packets from the neighbour's compute port in the period (log 34). -/
def execJudgement (tile : Nat) (crowd : BitVec 4) (s : State) : Out :=
  let h := s.herd tile
  if s.period ≤ h.judged ∨ 1024 ≤ tile then .next s
  else
    let h := [0, 1, 2, 3].foldl (fun (h : Herd) j =>
      match neighbour tile j with
      | none => h
      | some n => h.setNbr j ((h.nbrAt j).judged ((s.herd n).fenced && !(s.herd n).appealing) (crowd.getLsbD j))) h
    let s := s.setHerd tile { h with judged := s.period }
    .next (if h.appealing then s.appealPeriod tile else if h.fenced then s else s.lonePeriod tile)

/-! ### Fencing (R344, R347) -/

/-- Judgements against `subj` that voter `v` counts: its own, and the latest it holds of each other voter. -/
def State.countAgainst (s : State) (subj : Nat) (v : Nat × Nat) : Nat :=
  let h := s.herd v.2
  let own := against (h.nbrAt (opposite v.1)).judge
  let others := (s.liveNbrs subj).filter (fun x =>
    x.2 != v.2 && !s.mute subj x.2 && against (Map.get (fun _ => 0) h.held (subj * 1024 + x.2)))
  b2n own + others.length

/-- The voter that fences a tile. -/
def State.fencer (s : State) (subj : Nat) : Option (Nat × Nat) :=
  let live := s.liveNbrs subj
  live.find? (fun v => !s.mute subj v.2 && decide (neededAgainst live.length ≤ s.countAgainst subj v))

/-- FCAUSE of a vote: the judgement of the fencing voter, or of the first voter that is against (log 23). -/
def State.voteCause (s : State) (subj : Nat) (v : Nat × Nat) : BitVec 8 :=
  let judges := (v :: s.liveNbrs subj).map (fun x => ((s.herd x.2).nbrAt (opposite x.1)).judge)
  BitVec.ofNat 8 ((judges.find? against).getD 1).toNat

/-- w1 of the wait-list entry that a reference had (R71). -/
def State.entryW1 (s : State) (r : Req) : Word :=
  ({ req := r, num := 0, shared := false, deadline := none, pkg := s.package } : Wait).words.2.1

def undelivered (r : Req) (action : Nat) (w1 : Word) : RecordSpec :=
  { code := 0x0106, sev := 2, engine := if dpaLoft r.dpa then 4 else 3, tenant := r.tenant, part := r.part
    tile := dpaTile r.dpa, ptr := r.ptr, dpa := wd r.dpa, action := action, detail := w1 }

/-- A reply that the fenced tile had not accepted (R74): a WFC is refilled, a WE stands. A claim's reply leaves its frame in the
frame table (R348). -/
def State.dropReply (s : State) (x : Reply) : State :=
  match x.req.op, x.ans with
  | .wfc, .value v =>
    let r : Req := { id := 0, src := dpaTile x.req.dpa, slot := 513, op := .we, dpa := x.req.dpa, ptr := x.req.ptr, val := v
                     tenant := x.req.tenant, part := 16, key := x.req.key, via := x.req.part }
    ((if s.quarantined r.dpa then s else s.arriveWe r).post (undelivered x.req 4 (s.entryW1 x.req)))
  | .we, .done => s.post (undelivered x.req 5 (s.entryW1 x.req))
  | .mailbox _, .done => s.post (undelivered x.req 5 (s.entryW1 x.req))
  | .claim, .claimed _ =>
    let id := ctxId x.req.src x.req.slot
    s.setCtxAt id { s.ctxAt id with own := x.req.ptr }
  | _, _ => s

/-- A request of the fenced tile that no bank has accepted: the entry that a spawn reserved is void (R239), and one whose claim is dropped
is an entry again, to be moved with the others (DESIGN CHOICE, log 23). -/
def State.dropRequest (s : State) (r : Req) : State :=
  match r.op with
  | .spawn dest part entry => if entry = 0 then s else s.setDeque dest part (((s.tileAt dest).dequeAt part).mark entry .void)
  | .claim =>
    let id := ctxId r.src r.slot
    (match (s.ctxAt id).st with
      | .blocked (.claim stolen) => s.setCtxAt id { s.ctxAt id with st := .blocked (.claiming r.ptr stolen), hold := none }
      | _ => s)
  | _ => s

/-- The compute port that a message left from. -/
def Msg.sender (m : Msg) : Option Nat :=
  match m.origin with
  | .ctx id _ => some (tileOf id)
  | .mcast id => some (tileOf id)
  | .copy tile => some tile
  | _ => none

/-- Steps 1 to 3 of R347: what the tile has sent and no one has accepted, that of contexts which have ended too, and its wait-list entries
and watch records. -/
def State.dropTraffic (s : State) (tile : Nat) : State :=
  let mine (r : Req) : Bool := r.src == tile && decide (r.slot ≠ 513)
  let gone := s.net.filter mine
  let replies := s.replies.filter (fun x => mine x.req)
  let watched := (s.watches.filter (fun w => w.tile == tile && w.package == s.package.toNat)).map (fun w => w.dpa)
  let s := { s with
    net := s.net.filter (fun r => !mine r), refused := s.refused.filter (fun r => !mine r)
    replies := s.replies.filter (fun x => !mine x.req), waits := s.waits.filter (fun w => !mine w.req)
    msgs := s.msgs.filter (fun (m : Msg) => m.sender != some tile)
    refusedMsgs := s.refusedMsgs.filter (fun (m : Msg) => m.sender != some tile)
    heldAnswers := s.heldAnswers.filter (fun x => x.1.sender != some tile)
    marks := s.marks.filter (fun m => tileOf m.ctx != tile)
    watches := s.watches.filter (fun (w : Watch) => !watched.contains w.dpa) }
  let s := watched.foldl (fun (s : State) d => (s.setTag d (fun t => { t with watched := false })).seal d) s
  let s := gone.foldl (fun (s : State) r => s.dropRequest r) s
  (replies.foldl (fun (s : State) x => s.dropReply x) s).pruneRows

/-- Entries parked in the tile's loft are dropped, and their requesters complete with DEAD_TARGET (R12, R75). -/
def State.dropLoft (s : State) (tile : Nat) : State :=
  let there (w : Wait) : Bool := dpaLoft w.req.dpa && dpaTile w.req.dpa == tile && dpaPkg w.req.dpa == s.package.toNat
  let hit := s.waits.filter there
  hit.foldl (fun (s : State) w => s.answer w.req (.failed cDEAD_TARGET))
    ({ s with waits := s.waits.filter (fun w => !there w) }.freshLoft tile)

/-- Steps of a recovery of the tile are added. -/
def State.addRecover (s : State) (tile : Nat) (xs : List Recover) : State :=
  s.setTileAt tile { s.tileAt tile with recover := (s.tileAt tile).recover ++ xs }

/-- A copy command of a lost tile is to fill its completion word; its INDEX is not stated (R309, log 5). -/
def State.killCopy (s : State) (tile : Nat) (c : CCmd) : State :=
  match c.st, c.done with
  | .filled, _ => s
  | _, none => s
  | _, some p =>
    s.bumpFree.addRecover tile
      [{ what := .fill p (copyStatus 1 cDEAD_TARGET (fld (Sys2Proof.Config.freeWord s.free) 47 0)), part := c.part, tenant := c.tenant }]

/-- The object's parent removes it (R170). -/
def State.dropChild (s : State) (tile : Nat) (b : Barrier) : State :=
  let p := (b.ptile.toNat, b.pobj.toNat)
  let old := (s.setBarAt p.1 p.2 ((s.barAt p.1 p.2).loseChild b.reported)).markLost p.1 p.2
  (old.pruneBar 8 p.1 p.2).gangLost old p.1 p.2 tile 0x1FF

/-- A member that waits at its barrier traps GANG_LOST; one that a rotation has taken out does so when it waits again (R334). -/
def State.lostRoot (s : State) (tile id : Nat) : State :=
  match s.handedOver id, (s.ctxAt id).st with
  | none, .blocked (.barrier _) => s.trapAt id cGANG_LOST (wd tile)
  | _, _ => s

/-- A lost root (R331): the live members' objects are rootless, and the members that wait trap GANG_LOST. -/
def State.dropRoot (s : State) (tile : Nat) (b : Barrier) (kids : List (Nat × Nat)) : State :=
  let mark : Option Nat := some (tile + 1024 * s.freshId)
  let s := kids.foldl (fun (s : State) x => s.setBarAt x.1 x.2 { s.barAt x.1 x.2 with rootless := mark }) s.bumpId
  let ids := kids.flatMap (fun x =>
    ((List.range 512).filter (fun sl => (s.barAt x.1 x.2).members.getLsbD sl)).map (fun sl => ctxId x.1 sl))
  let s := ids.foldl (fun (s : State) id => s.lostRoot tile id) s
  match ids with
  | [] => s
  | id :: rest =>
    let low := rest.foldl (fun (m : Nat) x => min m x) id
    s.sendLost low (s.partOf low) b.lostType tile 0x1FF (tileOf low) b.episode.toNat

/-- Step 5 of R347: the barrier objects of the tile. -/
def State.dropBarriers (s : State) (tile : Nat) : State :=
  let bars := ((s.tileAt tile).bars.filter (fun x => x.2.v)).map (fun x => (x.2, (s.treeFrom 4 tile x.1).drop 1))
  let s := s.setTileAt tile { s.tileAt tile with bars := [] }
  bars.foldl (fun (s : State) x =>
    if x.1.rootless.isSome then s else if x.1.root then s.dropRoot tile x.1 x.2 else s.dropChild tile x.1) s

/-- A port that is gone has nothing to report (R53, R57); who waits at it for a page looks again. -/
def State.dropPort (s : State) (tile : Nat) : State :=
  let s := { s.mapHolds (fun h => if h.tile = tile then { h with st := .woken } else h) with pageReqs := s.pageReqs.map (fun (q : PageReq) => { q with ports := q.ports.erase tile }) }
  s.pageReqs.foldl (fun (s : State) q =>
    if q.granted && q.ports.all (fun t => q.reported.contains t) then s.freeRequest q else s) s

/-- The state of a tile's compute side is lost, but for its frame table, the mirror of its deques, what firmware restores, and
the shootdowns that its router acknowledges. -/
def Tile.stopped (t : Tile) : Tile :=
  { t with
    deficit := [], inbox := [], acc := [], atype := [], ver := [], mq := [], cq := [], qsets := [], bcache := [], fetches := []
    pcache := [], walks := [], faults := [], wakes := [], formats := [], rows := [], parked := [] }

/-- Members of the tile are lost to their launches (R366). -/
def State.dropMembers (s : State) (tile : Nat) : State :=
  s.ctxs.foldl (fun (s : State) x => if tileOf x.1 = tile then s.memberGone x.1 (some cDEAD_TARGET) else s) s

/-- The compute side of a tile stops: R347, steps 1 to 6. The completion words of its copy commands fill as the first steps of a recovery,
whose pages they may wait for. -/
def State.stopTile (s : State) (tile : Nat) : State :=
  let cq := (s.tileAt tile).cq
  let s := s.dropTraffic tile
  let s := cq.foldl (fun (s : State) c => s.killCopy tile c) s
  let s := (s.dropMembers tile).dropBarriers tile
  let s := s.setTileAt tile (s.tileAt tile).stopped
  (s.dropLoft tile).dropPort tile

/-- Fenced tiles of a tower. -/
def State.fencedIn (s : State) (tower : Nat) : Nat :=
  ((List.range 64).filter (fun j => (s.herd (tower * 64 + j)).fenced)).length

/-! ### Recovery of frames (R330, R348) -/

/-- Live tiles in the order of choice: neighbours, then the tower, then the package. -/
def State.rescuers (s : State) (tile : Nat) : List Nat :=
  let live (t : Nat) : Bool := t != tile && (s.tileAt t).running
  let ns := ((List.range 1024).filter (fun t => adjacent tile t && live t))
  let tower := ((List.range 64).map (fun j => tile / 64 * 64 + j)).filter (fun t => live t && !ns.contains t)
  ns ++ tower ++ (List.range 1024).filter (fun t => live t && t / 64 != tile / 64 && !ns.contains t)

/-- Where a tile's work is recovered: in the tile itself while it runs (R330), else in the first that is chosen for it. -/
def State.recoverIn (s : State) (tile : Nat) : List Nat :=
  if (s.tileAt tile).running then tile :: s.rescuers tile else s.rescuers tile

/-- Frames that the router's table has of a slot, from the top of its adoption stack down to the g2 of its frame (R348). A frame that
Trapeze has claimed and not adopted yet is the topmost. -/
def Ctx.held (c : Ctx) : List Word :=
  let top := match c.st with
    | .blocked (.adopting _ f _ _ _) => [f]
    | _ => []
  (top ++ (if c.depth = 0 then [] else c.frames.dropLast) ++ [c.own]).filter (fun f => f != 0)

/-- Rank of the house slot that recovers: which one it is, the spec does not say (DESIGN CHOICE, log 26). -/
def houseRank (tile : Nat) : Nat := tile * 1024 + 504

/-- The cas on one frame's state word, for a frame of tile `tile` (and of slot `slot`, where one is named). It answers RST where it did
not fail. -/
def State.recoverWord (s : State) (at_ tile : Nat) (slot : Option Nat) (part tenant : Nat) (f : Word) :
    Except Stop (Option Bool) × State :=
  match s.unitReads at_ part tenant needRWS [padd f 8] with
  | (.error (.cause _ _), s) => (.ok none, s)
  | (.error x, s) => (.error x, s)
  | (.ok ts, s) =>
    let d := (ts.headD { dpa := 8 }).dpa
    let rank := some (houseRank at_)
    if s.gated d rank then (.error .wait, s)
    else if (s.homeStop d true).isSome then (.ok none, s)
    else
      let s := s.openUnit d tenant part f false rank
      let w := s.gval d
      if s.quarantined d || w.p || !bit w.v 63 || !(swState w.v == 1 || swState w.v == 2) || swTile w.v != tile
          || (slot.getD (swSlot w.v)) != swSlot w.v then (.ok none, s)
      else if bit w.v 59 then (.ok (some true), s.deviceWrite d (swUnstarted w.v))
      else (.ok (some false), (s.deviceWrite d (swWith w.v 4)).putFull (d - 8) 8 ⟨f, true⟩)

/-- The record of one recovered frame; `rest` are the frames below it (R165, R374). -/
def frameRecord (r : RecordSpec) (f : Word) (rest : List Word) : RecordSpec :=
  if r.code < 0x100 then { r with frame := f, adopted := !rest.isEmpty, dpa := rest.headD 0 } else { r with frame := f }

/-- The frames of one slot, from the top of its adoption stack down. -/
def framesOf (r : RecordSpec) (slot : Option Nat) (part tenant : Nat) : List Word → List Recover
  | [] => []
  | f :: fs =>
    { what := .frame f slot (frameRecord r f fs), part := part, tenant := tenant } :: framesOf r slot part tenant fs

/-- What a slot of a fenced tile leaves to recover. An entry that its deque unit had taken, and not claimed, is moved as the others are. -/
def State.slotItems (s : State) (tile id : Nat) : List Recover :=
  let c := s.ctxAt id
  let part := s.partOf id
  let rec_ : RecordSpec :=
    { code := 0x0107, sev := 4, engine := 10, tenant := c.tenant.toNat, part := part, ctx := some id, stage := some c.stage.toNat
      action := 8, detail := s.vstat tile }
  match c.st with
  | .blocked (.claiming f _) => [{ what := .entry f none, part := part, tenant := s.tenantFor id }]
  | st =>
    if c.held = [] then
      (if st ≠ .idle ∧ (c.handler || c.gang) = true then [{ what := .lost rec_, part := part, tenant := c.tenant.toNat }] else [])
    else
      let tenant := match st with
        | .blocked (.claim _) => s.tenantFor id
        | _ => c.tenant.toNat
      framesOf { rec_ with tenant := tenant } none part tenant c.held

/-- The recovery of a fenced tile: the copy commands' words, which stand there already, and then the slots. -/
def State.startRecovery (s : State) (tile : Nat) : State :=
  let ids := (s.ctxs.filter (fun x => tileOf x.1 == tile)).map (fun x => x.1)
  s.addRecover tile (ids.flatMap (s.slotItems tile))

/-- A step of a recovery in tile `at_` stops for a page, or for its home. -/
def State.recoverWaits (s : State) (tile at_ : Nat) (x : Recover) (rest : List Recover) (e : Stop) : State :=
  match e with
  | .page f queued =>
    let s := s.wantPage at_ f queued
    s.setTileAt tile { s.tileAt tile with recover := { x with hold := f.held at_ } :: rest }
  | _ => s

/-- A frame is pushed onto the partition's deque in a tile: the word of the ring, and the entry (R158, R348). -/
def State.pushEntry (s : State) (at_ : Nat) (x : Recover) (f : Word) (lost : Bool) : Except Stop Unit × State :=
  let d := (s.tileAt at_).dequeAt x.part
  let p := d.place d.tail
  match s.ringPlace at_ x.part x.tenant p lost with
  | (.error e, s) => (.error e, s)
  | (.ok place, s) => (.ok (), ((s.setDeque at_ x.part (d.push s.freshId f)).bumpId).ringStore at_ x.part x.tenant p f place)

/-- The first step of a tile's recovery, in the tiles `me :: others`. -/
def State.rescue (s : State) (tile me : Nat) (others : List Nat) (x : Recover) (rest : List Recover) : State :=
  let next (s : State) : State := s.setTileAt tile { s.tileAt tile with recover := rest }
  let lost := Hold.lost x.hold
  match x.what with
  | .lost r => (next s).post r
  | .frame f slot r =>
    if lost then next s
    else
      (match s.recoverWord me tile slot x.part x.tenant f with
        | (.error e, s) => s.recoverWaits tile me x rest e
        | (.ok none, s) => next s
        | (.ok (some true), s) =>
          s.setTileAt tile { s.tileAt tile with
            recover := { x with what := .entry f (some { r with action := 9 }), hold := none } :: rest }
        | (.ok (some false), s) => (next s).post { r with action := 8 })
  | .entry f r =>
    (match (me :: others).find? (fun t => decide (((s.tileAt t).dequeAt x.part).count < 4096)) with
      | none => s
      | some t =>
        match s.pushEntry t x f (lost && x.hold.any (fun h => h.tile == t)) with
        | (.error e, s) => s.recoverWaits tile t x rest e
        | (.ok _, s) => (match r with | some r => (next s).post r | none => next s))
  | .fill p status =>
    if lost then next s
    else
      (match s.unitReads me x.part x.tenant needWS [p] with
        | (.error (.cause _ _), s) => next s
        | (.error e, s) => s.recoverWaits tile me x rest e
        | (.ok ts, s) =>
          let d := (ts.headD { dpa := 0 }).dpa
          if s.gated d (some (houseRank me)) then s else next (s.tryFill d x.tenant x.part p status (some (houseRank me))).2)

/-- The deques of a tile whose frames have been recovered: the visible entries move, and the reserved ones are void (R239). -/
def State.emptyDeques (s : State) (tile : Nat) : State :=
  let t := s.tileAt tile
  let moved : List Recover := t.deque.flatMap (fun x =>
    (x.2.entries.filter (fun e => decide (e.st = .visible))).map (fun e =>
      { what := .entry e.frame none, part := x.1, tenant := s.dequeTenant tile x.1 }))
  s.setTileAt tile
    { t with
      recover := moved
      deque := t.deque.foldl (fun (m : Map Deque) x => Map.set (fun _ => {}) m x.1 { base := x.2.base }) [] }

/-- A tenant that runs again, and has state saved of a fenced tile: it cannot come back into it. -/
def State.stranded (s : State) (tile : Nat) : Option (Nat × Nat) :=
  (List.range 16).findSome? (fun p =>
    let tenant := (s.tileAt tile).tenantOf p
    if !s.turning p && (s.saved.any (fun x => x.tenant == tenant && tileOf x.ctx == tile)
      || s.savedTiles.any (fun x => x.tenant == tenant && x.tile == tile)) then some (p, tenant) else none)

/-- It is lost as it would have been when the tile was fenced (R331, R335, R347, R348): its members leave their gangs, its barrier objects
are removed, its commands end and its frames are recovered. The spec does not speak of the state of a tile that a rotation has saved
(DESIGN CHOICE, log 23). -/
def State.loseSaved (s : State) (tile part tenant : Nat) : State :=
  let cs := s.saved.filter (fun x => x.tenant == tenant && tileOf x.ctx == tile)
  let xs := s.savedTiles.filter (fun x => x.tenant == tenant && x.tile == tile)
  let s := { s with
    saved := s.saved.filter (fun x => !(x.tenant == tenant && tileOf x.ctx == tile))
    savedTiles := s.savedTiles.filter (fun x => !(x.tenant == tenant && x.tile == tile)) }
  let s := cs.foldl (fun (s : State) x => s.setCtxAt x.ctx x.c) s
  let t := s.tileAt tile
  let s := s.setTileAt tile
    { t with
      bars := xs.foldl (fun (m : Map Barrier) x => overlay (fun _ => {}) m x.bars) t.bars
      deque := xs.foldl (fun (m : Map Deque) x => Map.set (fun _ => {}) m part x.deque) t.deque
      herd := { t.herd with recovered := false } }
  let s := (xs.flatMap (fun x => x.cq)).foldl (fun (s : State) c => s.killCopy tile c) s
  ((s.dropMembers tile).dropBarriers tile).addRecover tile (cs.flatMap (fun x => s.slotItems tile x.ctx))

/-- Every step has been taken. -/
def State.recovered (s : State) (tile : Nat) : State :=
  let t := s.tileAt tile
  { s.setTileAt tile { t with herd := { t.herd with recovered := true } } with ctxs := s.ctxs.filter (fun x => tileOf x.1 != tile) }

/-- Firmware recovers a tile's frames: the next step; then the entries of the deques. -/
def execFrameRecovery (tile : Nat) (s : State) : Out :=
  let t := s.tileAt tile
  match t.recover with
  | x :: rest =>
    (match s.recoverIn tile with
      | [] => .next s
      | me :: others =>
        if (s.tileAt me).clocked = false ∨ (Hold.waiting x.hold && x.hold.any (fun h => (me :: others).contains h.tile)) = true then .next s
        else .next (s.rescue tile me others x rest).unstall)
  | [] =>
    if t.herd.fenced = false then .next s
    else if t.deque.any (fun x => !x.2.entries.isEmpty) then .next (s.emptyDeques tile)
    else
      match s.stranded tile with
      | some (part, tenant) => .next (s.loseSaved tile part tenant).unstall
      | none => if t.herd.recovered then .next s else .next (s.recovered tile).unstall

/-! ### Fencing a tile (R344, R345, R347) -/

def State.fenceTile (s : State) (tile : Nat) (cause : BitVec 8) : State :=
  let h := s.herd tile
  let s := s.setHerd tile
    { h with fenced := true, selfTest := true, testFailed := false, testSince := s.cycle.toNat, appealing := false, okPeriods := 0
             appealPeriods := 0, lonePeriods := 0, fcause := cause, recovered := false }
  let s := ((s.stopTile tile).forget tile).startRecovery tile
  let s := s.post
    { code := 0x0107, sev := 4, engine := 10, tile := tile, action := 16, detail := s.vstat tile }
  let s := if s.fencedIn (tile / 64) = 9 then
      s.post { voteRecord (tile / 64 * 64) 4 19 (s.vstat tile) with scope := 1 }
    else s
  s.unstall

/-- Has the device an owner (R358)? In HANDOVER it has the one that it had (R359). -/
def State.owned (s : State) : Bool := s.rm.state == 1 || s.rm.state == 2

/-- A tile is fenced by vote, or by firmware for the owner where no vote is possible (R345). -/
def execFence (tile : Nat) (s : State) : Out :=
  let h := s.herd tile
  if h.fenced ∨ 1024 ≤ tile then .next s
  else
    match s.fencer tile with
    | some v => .next (s.fenceTile tile (s.voteCause tile v))
    | none =>
      if (s.liveNbrs tile).length < 2 ∧ 16 ≤ h.lonePeriods ∧ s.owned = true then .next (s.fenceTile tile 3) else .next s

/-! ### Self-test and appeal (R352) -/

/-- Have the 2^22 reference cycles of the self-test passed? -/
def State.testOver (s : State) (tile : Nat) : Bool :=
  (s.herd tile).selfTest && decide ((s.herd tile).testSince + 2 ^ 22 ≤ s.cycle.toNat)

/-- A self-test that has not passed in its time has failed. That of a tile reset is followed by the readmission; where it fails, the tile
stays fenced as after any other (R381; log 23). -/
def execSelfTestEnd (tile : Nat) (passed : Bool) (s : State) : Out :=
  let h := s.herd tile
  if h.selfTest = false ∨ (h.fenced = false ∧ h.resetting = false) ∨ h.recovered = false then .next s
  else if passed = false ∨ s.testOver tile = true then
    let t := s.tileAt tile
    let s := s.setTileAt tile
      { t.toPoint .off s.cycle.toNat with herd := { h with fenced := true, resetting := false, selfTest := false, testFailed := true } }
    .next (s.post (voteRecord tile 4 24 (s.vstat tile)))
  else if h.resetting then
    let s := s.readmit tile
    .next (s.post (voteRecord tile 0 17 (s.vstat tile))).unstall
  else if 3 ≤ s.appealsOf tile then .next (s.setHerd tile { h with selfTest := false })
  else
    .next (s.setHerd tile
      { h with selfTest := false, appealing := true, appeals := h.appeals ++ [s.cycle.toNat], okPeriods := 0, appealPeriods := 0 })

end Sys2Proof.Machine
end

