-- ==== Sys2Proof/Machine/EvPower.lean ====
section
/-! DEFINITION. Operating points (R22 to R26), uncorrectable context state (R330), DRAM parity, sparing and retirement (R336 to
R338), links (R339) and fabric channels (R370). -/

namespace Sys2Proof.Machine

open Sys2Proof

/-! ### Operating points -/

def pointOf (n : Nat) : Option Point :=
  if n = 0 then some .n else if n = 1 then some .l1 else if n = 2 then some .l2 else if n = 3 then some .g
  else if n = 4 then some .off else none

/-- Does a running tenant have slots in the tile? -/
def Tile.allocated (t : Tile) : Bool := (List.range 16).any (fun p => bit (t.pcfgAt p) 63 && t.tenantOf p != 0)

/-- May the tile island go to OFF (R24)? -/
def Tile.mayStop (t : Tile) : Bool := !t.allocated || (t.herd.fenced && t.herd.testFailed && t.herd.recovered)

/-- Context, accumulator and loft state is lost. -/
def State.powerDown (s : State) (tile : Nat) : State :=
  let s := s.stopTile tile
  let t := s.tileAt tile
  let s := s.setTileAt tile { t.toPoint .off s.cycle.toNat with deque := [], copyDown := false, matrixDown := false }
  { s with ctxs := s.ctxs.filter (fun x => tileOf x.1 != tile) }

/-- Does a region in use map words to the vaults of a tower of package `pkg` (R24)? -/
def Region.inTower (r : Region) (pkg tower : Nat) : Bool :=
  if r.scope = 0 then r.home / 64 == tower
  else if r.scope = 1 then r.home % 16 == tower
  else if r.scope = 2 then true
  else decide (r.pkgBase ≤ pkg) && decide (pkg < r.pkgBase + 2 ^ r.plog)

/-- May the island of a tower's base logic, or Midway's, go to OFF? -/
def State.infraMayStop (s : State) (k : Nat) : Bool :=
  if k < 16 then
    (List.range 64).all (fun j => decide ((s.tileAt (k * 64 + j)).point = .off))
      && (List.range 32).all (fun n => !((s.region n).okFor n && (s.region n).inTower s.package.toNat k))
  else (List.range 16).all (fun j => decide (s.infraAt j = .off))

/-- The island is at the point from now on; nothing is lost or repeated (R23): what has waited at the router of a tile that returns from G
is there. -/
def State.atPoint (s : State) (tile : Nat) (p : Point) : State :=
  let s := s.setTileAt tile ((s.tileAt tile).toPoint p s.cycle.toNat)
  (if p = .g then s else s.releaseAnswers tile).wakeBars tile

/-- The owner, a host or the management controller, asks for a point of island `tile`: a tile's, 1024 + w for tower w, 1040 for Midway.
Only the owner sets operating points (R360). -/
def execOperatingPointChange (tile point : Nat) (s : State) : Out :=
  match pointOf point with
  | none => .next s
  | some p =>
    if 1041 ≤ tile ∨ s.owned = false then .next s
    else if 1024 ≤ tile then
      let k := tile - 1024
      if (p = .n ∧ (k = 16 ∨ s.infraAt 16 ≠ .off)) ∨ (p = .off ∧ s.infraMayStop k = true) then .next { s with infra := Map.set (fun _ => .n) s.infra k p }
      else .next (if k < 16 then s.refuse 1 (64 * k) else s.refuse 2 0)
    else
      let t := s.tileAt tile
      if p = .off then (if t.mayStop then .next (s.powerDown tile).unstall else .next (s.refuse 0 tile))
      else if s.infraAt (tile / 64) = .off then .next (s.refuse 0 tile)
      else .next (s.atPoint tile p).unstall

/-- Firmware changes the point of one tile island, with its own record, which names the tile (DESIGN CHOICE, log 45). -/
def State.throttleTile (s : State) (p : Point) (tile : Nat) : State :=
  let old := pointCode (s.tileAt tile).point
  (s.atPoint tile p).post
    { code := 0x0109, sev := 0, engine := 15, tile := tile, action := 20, detail := wd (old + pointCode p * 8) }

/-- One point for every tile island that has user slots of running tenants (R25). -/
def State.throttle (s : State) (p : Point) : State :=
  let hit := (s.tiles.filter (fun x =>
    x.2.allocated && decide (x.2.point ≠ p) && decide (x.2.point ≠ .off))).map (fun x => x.1)
  hit.foldl (fun (s : State) n => s.throttleTile p n) s

/-- A tile island without such a slot goes to G on its own: the lowest that is not there yet (DESIGN CHOICE, log 45). -/
def State.throttleIdle (s : State) : State :=
  match (List.range 1024).find? (fun n =>
      let t := s.tileAt n
      !t.allocated && decide (t.point ≠ .g) && decide (t.point ≠ .off)) with
  | some n => s.throttleTile .g n
  | none => s

def State.throttleTo (s : State) (point : Nat) : State :=
  match pointOf point with
  | some .n => (s.throttle .n).unstall
  | some .l1 => (s.throttle .l1).unstall
  | some .l2 => (s.throttle .l2).unstall
  | some .g => s.throttleIdle
  | _ => s

/-- Firmware holds the package's power below PWRLIM. -/
def execPowerThrottle (point : Nat) (s : State) : Out := .next (s.throttleTo point)
/-- Firmware throttles at 100 °C. -/
def execThermalThrottle (point : Nat) (s : State) : Out := .next (s.throttleTo point)

/-! ### Context state (R330) -/

/-- The context ends as by an escalated trap, and each frame that it holds is to be recovered in its tile. -/
def State.stateError (s : State) (id : Nat) : State :=
  let c := s.ctxAt id
  let detail := wd (cPOISON_CONSUMED + fld c.epc 17 0 * 2 ^ 8 + 2 ^ 26 + 2 ^ 28)
  let rec_ : RecordSpec :=
    { s.endRecord id cPOISON_CONSUMED 0 c.tval detail 8 with adopted := false, dpa := 0, stage := some c.stage.toNat }
  let s := s.cancelOf id
  let s := if c.held = [] then s.post rec_
    else s.addRecover (tileOf id) (framesOf rec_ (some (slotOf id)) (s.partOf id) c.tenant.toNat c.held)
  ((if c.gang then s.leaveGang id true else s).idleSlot id).unstall

def execContextStateError (ctx : Nat) (s : State) : Out :=
  let c := s.ctxAt ctx
  if c.st = .idle ∨ c.st = .swapping ∨ c.st = .borrowed ∨ (s.tileAt (tileOf ctx)).running = false then .next s
  else if s.issuing && s.cur == ctx then .next { s.stateError ctx with issuing := false }
  else .next (s.stateError ctx)

/-! ### DRAM (R336 to R338) -/

/-- Bytes of a bank, and of the row that one sparing step copies (log 25). -/
def bankBytes : Nat := 0x1800000
def rowBytes : Nat := 8192

def State.spareAt (s : State) (tile : Nat) : Spare := Map.get (fun _ => {}) s.spares tile
def State.setSpare (s : State) (tile : Nat) (x : Spare) : State := { s with spares := Map.set (fun _ => {}) s.spares tile x }

/-- A bank is retired in place from an offset on: parked readers receive poison. -/
def State.retireFrom (s : State) (tile bank from_ : Nat) : State :=
  let x := s.spareAt tile
  let s := s.setSpare tile
    { x with
      retired := x.retired ++ [(bank, from_)], bank := if x.bank = some bank then none else x.bank
      used := x.used || x.bank == some bank }
  let q : Quarantine := { tile := tile, bank := bank, lo := from_, len := bankBytes - from_, level := 0 }
  (s.wakePoisoned q s.waits).post
    { code := 0x0104, sev := 4, engine := 3, tile := tile, action := 12, detail := wd bank }

/-- A bank fails: it is spared, or retired in place where the spare is in use (R337, R338). -/
def State.bankFails (s : State) (tile bank : Nat) : State :=
  let x := s.spareAt tile
  if x.retired.any (fun y => y.1 == bank) then s
  else if x.bank = some bank then s.retireFrom tile bank (x.bnd * rowBytes)
  else if x.used || x.bank.isSome then s.retireFrom tile bank 0
  else s.setSpare tile { x with bank := some bank, bnd := 0 }

/-- A parity alert; `lines` are the lines that a command touched whose third replay failed. -/
def execDramParityAlert (tile bank index : Nat) (lines : List Nat) (s : State) : Out :=
  if 1024 ≤ tile ∨ 32 ≤ bank then .next s
  else
    let s := s.post
      { code := 0x0103, sev := 1, engine := 3, tile := tile, action := 2, detail := wd (bank + index % 64 * 2 ^ 8) }
    if lines = [] then .next s
    else
      let line (n : Nat) : Nat := mkDpa false s.package.toNat tile bank (n * 64 % bankBytes)
      let s := lines.foldl (fun (s : State) n => s.spoilLine (line n) false 0xFFFF 16 0) s
      .next (s.bankFails tile bank).unstall

/-- ECC corrects an error: it is counted. A bank with more than 256 of them in 24 hours is spared (R337). -/
def State.correctedError (s : State) (tile bank : Nat) : State :=
  if 1024 ≤ tile ∨ 32 < bank then s
  else
    let now := s.cycle.toNat
    let x := s.spareAt tile
    let all := x.corrected.filter (fun y => decide (now < y.2 + dayCycles)) ++ [(bank, now)]
    if bank < 32 ∧ x.bank ≠ some bank ∧ 256 < (all.filter (fun y => y.1 == bank)).length then
      ((s.setSpare tile { x with corrected := all.filter (fun y => y.1 != bank) }).bankFails tile bank).unstall
    else s.setSpare tile { x with corrected := all }

/-- Corrected errors above the threshold, or firmware's request. -/
def execSparingStart (tile bank : Nat) (s : State) : Out :=
  if 1024 ≤ tile ∨ 32 ≤ bank ∨ (s.spareAt tile).bank.isSome = true ∨ (s.spareAt tile).used = true then .next s
  else .next (s.bankFails tile bank)

/-- One row is copied: its lines that cannot be read are written full and poisoned. -/
def State.copyRow (s : State) (tile bank row : Nat) : State :=
  (List.range (rowBytes / 64)).foldl (fun (s : State) j =>
    let line := mkDpa false s.package.toNat tile bank (row * rowBytes + 64 * j)
    if s.badLines.contains (line, false) then s.spoilLine line false 0xFFFF 16 0 else s) s

def execSparingRowCopy (tile : Nat) (s : State) : Out :=
  let x := s.spareAt tile
  match x.bank with
  | none => .next s
  | some b =>
    let s := s.copyRow tile b x.bnd
    if x.bnd + 1 < bankBytes / rowBytes then .next (s.setSpare tile { x with bnd := x.bnd + 1 }).unstall
    else
      .next ((s.setSpare tile { x with bank := none, bnd := 0, used := true }).post
        { code := 0x0104, sev := 4, engine := 3, tile := tile, action := 11, detail := wd b }).unstall

/-- A bank that fails while the spare is in use. -/
def execBankRetire (tile bank : Nat) (s : State) : Out :=
  let x := s.spareAt tile
  if 1024 ≤ tile ∨ 32 ≤ bank ∨ (x.used = false ∧ x.bank = none) then .next s else .next (s.bankFails tile bank).unstall

/-! ### Links (R339, R370) -/

/-- The gateway tile of Midway port m = tower × 16 + gy × 4 + gx (R14, R15). -/
def gateway (m : Nat) : Nat := m / 16 * 64 + (2 * (m / 4 % 4) + 1) * 8 + 2 * (m % 4) + 1

/-- A flit is sent again; after 16 resends the link retrains at half width. Links below 4096 are the mesh links of tile link / 4 (log 18);
4096 + m is Midway port m. -/
def execFlitResend (link : Nat) (fails : Bool) (s : State) : Out :=
  if fails then
    if link < 4096 then
      .next (s.post { code := 0x0105, sev := 1, engine := 8, tile := link / 4, action := 15, detail := wd link })
    else
      let m := (link - 4096) % 256
      .next (s.post { code := 0x0105, sev := 1, engine := 9, tile := gateway m, action := 15, detail := wd m })
  else .next s

/-- A packet that no one has acknowledged is sent again, and a duplicate is suppressed: nothing changes. -/
def execEndToEndResend (_k : Nat) (s : State) : Out := .next s

/-- The retirement of a channel, as its packets see it: the old ones complete first, and the held ones go again in order. -/
def execChannelRetire (chan : Nat) (s : State) : Out :=
  let old := (Map.get (fun _ => {}) s.channels chan : Channel).mapgen
  .next ({ s with channels := Map.set (fun _ => {}) s.channels chan { mapgen := old + 1 } }.post
    { code := 0x0101, sev := 0, engine := 14, action := 0, detail := wd (old.toNat + (old + 1).toNat * 2 ^ 8) })

end Sys2Proof.Machine
end

