-- ==== Sys2Proof/Machine/EvHost.lean ====
section
/-! DEFINITION. The host side: device memory through BAR2 (R356), management registers (R357, R360), ownership (R358, R359), binding,
teardown and attestation (R361, R362, R373), interrupts (R367, R369) and error queues (R377 to R379). -/

namespace Sys2Proof.Machine

open Sys2Proof

/-- Reference cycles in a second, a microsecond and 100 ms (R21). -/
def secondCycles : Nat := 2400000000
def microCycles : Nat := 2400
def beatCycles : Nat := 240000000

/-! ### BAR2 (R356) -/

/-- The pointer that a BAR2 offset maps to, and its alias. -/
def State.barPtr (s : State) (fn : Nat) (off : Word) : Word := wd (fld (s.fnAt fn).baridx 17 0 * 2 ^ 46 + fld off 39 0)
def barAlias (off : Word) : Nat := fld off 41 40

/-- A master's write is discarded, with a record: the master in [63:62] of DETAIL, the offset below it (log 18). -/
def State.discardBy (s : State) (master fn : Nat) (off : Word) : State :=
  s.post { code := 0x010C, sev := 0, engine := 13, tenant := hostTenant fn, action := 24
           detail := wd (master * 2 ^ 62 + fld off 41 0) }

/-- The write is that of the host of the function's link. -/
def State.hostDiscard (s : State) (fn : Nat) (off : Word) : State := s.discardBy (fn / 64) fn off

def widthOk (n : Nat) : Bool := n == 1 || n == 2 || n == 4 || n == 8

/-- The access of a function that has a BAR2, through one of the aliases that the event serves. -/
def State.barAccess (s : State) (fn : Nat) (ok : Bool) (k : Out) : Out :=
  if s.present fn && decide (fn < 128) && ok then k else .next s

/-- The access waits: for its page, for its home, or behind an earlier access of its function (R54, R356; log 18). -/
def State.barStays (s : State) (fn : Nat) (ev : BarAccess) (hold : Option Hold) : State :=
  if s.barWaits.any (fun w => w.fn == fn && w.ev == ev) then
    { s with barWaits := s.barWaits.map (fun (w : BarWait) => if w.fn = fn ∧ w.ev = ev then { w with hold := hold } else w) }
  else { s with barWaits := s.barWaits ++ [{ fn := fn, ev := ev, hold := hold }] }

/-- It waits no longer. -/
def State.barGoes (s : State) (fn : Nat) (ev : BarAccess) : State :=
  { s with barWaits := s.barWaits.filter (fun (w : BarWait) => !(w.fn == fn && w.ev == ev)) }

/-- The checks of R32 under the host tenant, and the home; the accesses of a function are performed in their order (R356). -/
def State.barReach (s : State) (fn : Nat) (ev : BarAccess) (off : Word) (width : Nat) (need : Need) (changes : Bool) (fail : State → Out)
    (k : State → Nat → Out) : Out :=
  let first := s.barWaits.find? (fun w => w.fn == fn)
  let hold := first.bind (fun w => w.hold)
  let p := s.barPtr fn off
  if first.any (fun w => w.ev != ev) then
    .next (if s.barWaits.any (fun w => w.fn == fn && w.ev == ev) then s else s.barStays fn ev none)
  else if Hold.waiting hold then .next s
  else if Hold.lost hold then fail (s.barGoes fn ev)
  else
    let s := s.portRead 0 (hostPartOf fn) p
    match s.reach 0 (hostPartOf fn) (hostTenant fn) p width need with
    | .error (.page f queued) => .next ((s.wantPage 0 f queued).barStays fn ev (f.held 0))
    | .error x => fail ((s.noteStop 0 (hostPartOf fn) (hostTenant fn) x).barGoes fn ev)
    | .ok t =>
      if s.gated t.dpa then .next (s.barStays fn ev none)
      else
        let s := s.barGoes fn ev
        if (s.homeStop t.dpa changes).isSome then fail s
        else
          let s := s.openUnit t.dpa (hostTenant fn) (hostPartOf fn) p changes
          if changes && s.quarantined t.dpa then fail s else k s t.dpa

/-- A write through the plain alias; one through the status alias is discarded. -/
def execBar2PlainWrite (fn : Nat) (off : Word) (width : Nat) (value : Word) (s : State) : Out :=
  s.barAccess fn (widthOk width && (barAlias off == 0 || barAlias off == 2)) <|
    if barAlias off = 2 then .next s
    else
      s.barReach fn (.plainWrite off width value) off width needW true (fun s => .next (s.hostDiscard fn off).unstall) fun s d =>
        .next ((s.putValue d width ⟨value, false⟩).wroteEvent d).unstall

def State.hostAnswer (s : State) (v : Word) (bad : Bool) : Out := .next { s with hostRead := some (v, bad) }.unstall

/-- A read that fails its checks is discarded; what it answers is not stated (log 5). -/
def State.hostFails (s : State) (fn : Nat) (off : Word) : Out :=
  let w := Sys2Proof.Config.freeWord s.free
  (s.bumpFree.hostDiscard fn off).hostAnswer w (bit (Sys2Proof.Config.freeWord (s.free + 1)) 0)

/-- A read through the plain alias, or through the fill alias, which reads as all ones. -/
def execBar2PlainRead (fn : Nat) (off : Word) (width : Nat) (s : State) : Out :=
  s.barAccess fn (widthOk width && (barAlias off == 0 || barAlias off == 1)) <|
    if barAlias off = 1 then s.hostAnswer (BitVec.allOnes 64) false
    else
      s.barReach fn (.plainRead off width) off width needR false (fun s => s.hostFails fn off) fun s d =>
        let (v, s) := s.readAt d
        if v.p then s.hostAnswer (BitVec.allOnes 64) true else s.hostAnswer (loadBytes v.v d width false) false

/-- A write through the fill alias sets the word full; earlier BAR2 writes have been performed (R356). -/
def execBar2FillWrite (fn : Nat) (off : Word) (width : Nat) (value : Word) (s : State) : Out :=
  s.barAccess fn (widthOk width && barAlias off == 1) <|
    if width ≠ 8 then .next s
    else
      s.barReach fn (.fillWrite off width value) off 8 needWS true (fun s => .next (s.hostDiscard fn off).unstall) fun s d =>
        .next (s.putFull d 8 ⟨value, false⟩).unstall

/-- P in bit 0 and poison in bit 1. -/
def execBar2StatusRead (fn : Nat) (off : Word) (s : State) : Out :=
  s.barAccess fn (barAlias off == 2) <|
    s.barReach fn (.statusRead off) (wd (off.toNat / 8 * 8)) 8 needR false (fun s => s.hostFails fn off) fun s d =>
      let (v, s) := s.readAt d
      s.hostAnswer (wd (b2n (s.fullAt d) + 2 * b2n v.p)) false

def execBar2ReservedAlias (fn : Nat) (off : Word) (write : Bool) (s : State) : Out :=
  s.barAccess fn (barAlias off == 3) <|
    if write then .next (s.hostDiscard fn off) else s.hostAnswer (BitVec.allOnes 64) false

/-! ### Ownership (R358, R359) -/

def State.setRm (s : State) (r : Ringmaster) : State := { s with rm := r }

/-- Does the master own the device? -/
def State.owns (s : State) (master : Nat) : Bool :=
  decide (master < 3) && (s.rm.state == 1 || s.rm.state == 2) && s.rm.owner.toNat == master

def Ringmaster.elapsed (r : Ringmaster) (now n : Nat) : Bool := decide (r.since + n ≤ now)

/-- Of the claims of one cycle the lowest master's counts, whichever comes first. -/
def execRmownClaim (master : Nat) (s : State) : Out :=
  let r := s.rm
  if r.state = 0 then
    s.when (decide (master < 3))
      (s.setRm
        { r with
          state := 1, owner := BitVec.ofNat 2 master, target := 3, epoch := r.epoch + 1, claimed := some s.cycle.toNat })
  else
    s.when (r.state == 1 && r.claimed == some s.cycle.toNat && decide (master < r.owner.toNat))
      (s.setRm { r with owner := BitVec.ofNat 2 master })

def execRmownHandover (master target : Nat) (s : State) : Out :=
  s.when (s.rm.state == 1 && s.owns master && decide (target < 3))
    (s.setRm { s.rm with state := 2, target := BitVec.ofNat 2 target, since := s.cycle.toNat, claimed := none })

/-- EPOCH counts changes of OWNER. -/
def execRmownAccept (master : Nat) (s : State) : Out :=
  let r := s.rm
  s.when (r.state == 2 && decide (master < 3) && r.target.toNat == master && !r.elapsed s.cycle.toNat secondCycles)
    (s.setRm
      { r with state := 1, owner := r.target, target := 3, epoch := if r.owner = r.target then r.epoch else r.epoch + 1 })

def execRmownCancel (master : Nat) (s : State) : Out :=
  s.when (s.rm.state == 2 && s.owns master) (s.setRm { s.rm with state := 1, target := 3 })

def execHandoverTimeout (s : State) : Out :=
  s.when (s.rm.state == 2 && s.rm.elapsed s.cycle.toNat secondCycles) (s.setRm { s.rm with state := 1, target := 3 })

def execI3cHeartbeat (s : State) : Out := .next (s.setRm { s.rm with beat := s.cycle.toNat })

/-- The owner's link goes down, or the controller has missed 3 heartbeats. -/
def execOwnerLost (s : State) : Out :=
  let r := s.rm
  s.when ((r.state == 1 || r.state == 2) && (r.owner != 2 || decide (r.beat + 3 * beatCycles ≤ s.cycle.toNat)))
    (s.setRm { r with state := 3, target := 3, since := s.cycle.toNat, claimed := none })

def execOwnerReturn (s : State) : Out :=
  s.when (s.rm.state == 3 && !s.rm.elapsed s.cycle.toNat (2 * secondCycles)) (s.setRm { s.rm with state := 1 })

def execElectionTimeout (s : State) : Out :=
  s.when (s.rm.state == 3 && s.rm.elapsed s.cycle.toNat (2 * secondCycles))
    (s.setRm { s.rm with state := 0, owner := 3, target := 3, epoch := s.rm.epoch + 1 })

/-! ### Management registers (R357, R360) -/

/-- Can the master reach the function's window, of 1 MiB? Link l's host reaches its own functions, the controller link 0's PF below 0x3000. -/
def State.window (s : State) (master fn off : Nat) : Bool :=
  s.present fn && decide (fn < 128) && decide (off < 0x100000)
    && (if master < 2 then fn / 64 == master else master == 2 && fn == 0 && decide (off < 0x3000))

/-- A write of a master that is not the owner is discarded and counted (R360). -/
def State.notOwner (s : State) (master fn off : Nat) : State :=
  { s with discards := s.discards + 1, discarded := (master, fn, off) }

/-- A second of reference time ends: one record for the writes discarded in it, which names the last of them (DESIGN CHOICE, log 18). -/
def State.discardSecond (s : State) : State :=
  if s.discards = 0 then s
  else
    { s with discards := 0 }.post
      { code := 0x010C, sev := 0, engine := 13, tenant := hostTenant s.discarded.2.1, action := 24, count := s.discards
        detail := wd (s.discarded.1 * 2 ^ 62 + s.discarded.2.2) }

/-- A cycle of the reference clock passes (R21): the banks' arrivals of the next one are ranked anew (R65), a bank serves an entry of its
cascade (R66), and the look at the deadlines is over (R70). -/
def State.tick (s : State) : State :=
  let s := { s with cycle := s.cycle + 1, served := [] }
  let s := (if s.looked then { s with looked := false }.unstall else s).wakeCycle
  if s.cycle.toNat % secondCycles = 0 then s.discardSecond else s

/-! Reads (R354, R357, R358, R380). -/

/-- RMOWN. -/
def Ringmaster.word (r : Ringmaster) : Word :=
  wd (r.state.toNat * 2 ^ 62 + r.owner.toNat * 2 ^ 60 + r.target.toNat * 2 ^ 58 + r.epoch.toNat)

/-- A register of a function's window; an offset that the table does not list, one that is no multiple of 8 among them, reads as 0. -/
def State.readReg (s : State) (fn off : Nat) : Word :=
  let f := s.fnAt fn
  let pf := fn % 64 == 0
  if off % 8 ≠ 0 then 0
  else if pf && off == 0 then s.rm.word
  else if pf && off == 8 then s.rstcause
  else if off = 0x10 then f.baridx
  else if off = 0x18 then f.lqbase
  else if off = 0x20 then f.lqcfg
  else if off = 0x28 then f.icoal
  else if off = 0x30 then f.eqbase
  else if off = 0x38 then f.eqcfg
  else if off = 0x40 then wd f.eqhead.toNat
  else if off = 0x48 then wd f.eqtail.toNat
  else if pf && off == 0x50 then s.pwrlim
  else if pf && decide (0x408 ≤ off) && decide (off < 0x600) then Map.get (fun _ => 0) s.vfbind (fn + (off - 0x400) / 8)
  else if pf && decide (0x1000 ≤ off) && decide (off < 0x3000) then s.vstat ((off - 0x1000) / 8)
  else if 0x80000 ≤ off ∧ off < 0x80000 + 16 * vectors fn then
    wd ((f.entry ((off - 0x80000) / 16)).toNat / 2 ^ (8 * (off % 16)) % 2 ^ 64)
  else if 0x90000 ≤ off ∧ off < 0x90000 + vectors fn / 8 then
    wd (((List.range 64).filter (fun j => Map.get (fun _ => false) f.pba ((off - 0x90000) * 8 + j))).foldl (fun (n : Nat) j =>
      n + 2 ^ j) 0)
  else 0

/-- A master reads a register: every one, whoever owns the device (R360). -/
def State.mgmtRead (s : State) (master fn off : Nat) : State :=
  if s.window master fn off then { s with hostRead := some (s.readReg fn off, false) } else s

/-- The words of the MSI-X table and its vector control: unmasking a vector with its PBA bit set sends its message (R367). -/
def State.writeMsix (s : State) (fn vec : Nat) (high : Bool) (v : Word) : State :=
  let f := s.fnAt fn
  let old := f.entry vec
  let new : BitVec 128 := BitVec.ofNat 128
    (if high then old.toNat % 2 ^ 64 + v.toNat * 2 ^ 64 else old.toNat / 2 ^ 64 * 2 ^ 64 + v.toNat)
  let s := s.setFn fn { f with msix := Map.set msixReset f.msix vec new }
  let f := s.fnAt fn
  if !f.masked vec && Map.get (fun _ => false) f.pba vec then
    { s with msixSent := s.msixSent ++ [f.entry vec] }.setFn fn { f with pba := Map.erase f.pba vec }
  else s

/-- COUNT 0 is stored as 1 (R369). -/
def icoalOf (v : Word) : Word := if fld v 31 16 = 0 then wd (fld v 15 0 + 2 ^ 16) else wd (fld v 31 0)

/-- Registers marked "function", by offset; `none` for an offset that is none of them. -/
def Fn.write (f : Fn) (off : Nat) (v : Word) : Option Fn :=
  if off = 0x10 then some { f with baridx := wd (fld v 17 0) }
  else if off = 0x18 then some { f with lqbase := v, lqhold := none }
  else if off = 0x20 then
    let next := if bit v 63 && !bit f.lqcfg 63 then 0 else f.lqnext
    some { f with lqcfg := v &&& 0x8F00000000000000, lqnext := next, lqhold := none }
  else if off = 0x28 then some { f with icoal := icoalOf v }
  else if off = 0x30 then some { f with eqbase := v, eqhold := none }
  else if off = 0x38 then some { f with eqcfg := v &&& 0xFFFF000000000000, eqhold := none }
  else none

/-- Registers of a window that this event does not write: read-only ones, and those with rows of their own. -/
def quietOffset (pf : Bool) (off : Nat) : Bool :=
  off == 0x40 || off == 0x48 || (decide (0x90000 ≤ off) && decide (off < 0x90000 + (if pf then 32 else 4)))
    || (pf && (off == 0 || off == 8 || (decide (0x408 ≤ off) && decide (off < 0x600))
      || (decide (0x1000 ≤ off) && decide (off < 0x3000))))

/-- The launcher starts at record 0 when a queue is enabled; the controller's writes to registers marked "function" are discarded
(log 18). -/
def execMgmtRegisterWrite (master fn off : Nat) (value : Word) (s : State) : Out :=
  let pf := fn % 64 == 0
  if s.window master fn off = false then .next s
  else if off % 8 ≠ 0 then .next (s.discardBy master fn (wd off))
  else if quietOffset pf off then .next s
  else if pf && off == 0x50 then
    (if s.owns master = false then .next (s.notOwner master fn off)
    else if 1 ≤ fld value 15 0 ∧ fld value 15 0 ≤ 3600 then .next { s with pwrlim := wd (fld value 15 0) }
    else .next (s.discardBy master fn (wd off)))
  else
    let table := decide (0x80000 ≤ off) && decide (off < 0x80000 + 16 * vectors fn)
    match (if master = 2 then none else (s.fnAt fn).write off value) with
    | some f => .next (s.setFn fn f)
    | none =>
      if table && master != 2 then .next (s.writeMsix fn ((off - 0x80000) / 16) (decide (off % 16 = 8)) value)
      else .next (s.discardBy master fn (wd off))

/-- The owner binds VF `vf` = 64l + v. -/
def execVfbindWrite (master vf : Nat) (value : Word) (s : State) : Out :=
  let off := 0x400 + 8 * (vf % 64)
  if s.window master (vf / 64 * 64) off = false ∨ vf % 64 = 0 ∨ 128 ≤ vf then .next s
  else if s.owns master = false then .next (s.notOwner master (vf / 64 * 64) off)
  else if bit value 63 ∧ (bindTenant value = 0 ∨ 0xEFFF < bindTenant value) then .next (s.discardBy master (vf / 64 * 64) (wd off))
  else .next { s with vfbind := Map.set (fun _ => 0) s.vfbind vf (value &&& 0x80000000000FFFFF) }

/-! ### Teardown (R362, R75, R120, R127, R309) -/

/-- Every slot of the tenant is cleared, with what rotation had saved of it. -/
def State.dropSlots (s : State) (tenant part : Nat) : State :=
  let mine (id : Nat) (c : Ctx) : Bool := c.tenant.toNat == tenant && s.partOf id == part
  let ids := (s.ctxs.filter (fun x => mine x.1 x.2)).map (fun x => x.1)
  { s with
    ctxs := s.ctxs.filter (fun x => !ids.contains x.1)
    issuing := s.issuing && !ids.contains s.cur
    saved := s.saved.filter (fun x => x.tenant != tenant)
    savedTiles := s.savedTiles.filter (fun x => x.tenant != tenant)
    tables := Map.erase s.tables tenant
    marks := s.marks.filter (fun m => m.tenant != tenant) }

/-- What a tile holds of a tenant that runs in the partition. -/
def State.dropTile (s : State) (tile part tenant : Nat) : State :=
  let t := s.tileAt tile
  let s := s.setTileAt tile
    { t with
      mq := t.mq.filter (fun m => m.tenant != tenant), cq := t.cq.filter (fun c => c.tenant != tenant)
      inbox := t.inbox.filter (fun m => !(m.user && m.tenant == tenant)) }
  if t.tenantOf part = tenant then
    let r : Rotation := { part := part, outgoing := tenant, incoming := 0, left := [] }
    let t := s.tileAt tile
    let objs := t.bars.filter (fun x =>
      (List.range 512).any (fun sl => x.2.members.getLsbD sl && t.partOf sl == part))
    let s := s.clearTile tile r { s.saveTile tile r with bars := objs, watches := [] }
    let t := s.tileAt tile
    s.setTileAt tile
      { t with pcfg := Map.set pcfgReset t.pcfg part (wd ((t.pcfgAt part).toNat / 2 ^ 16 * 2 ^ 16)) }
  else s

/-- The tenant leaves each window that it shares, whatever its partition was when it joined. -/
def State.dropWindows (s : State) (tenant : Nat) : State :=
  let shared := s.windows.flatMap (fun w => (w.sharers.filter (fun y => y.1 == tenant)).map (fun y => (w.slot, y.2)))
  shared.foldl (fun (s : State) x =>
    match s.windows.find? (fun w => w.slot == x.1) with
    | some w => s.withTable x.2.1 tenant (fun s => s.dropSharer w tenant x.2.1 x.2.2)
    | none => s) s

/-- Its keys are drained: those of its sessions, and its own in whatever slot (R119, R120). -/
def State.drainKeys (s : State) (tenant : Nat) : State :=
  ((List.range 400).map (· + 1)).foldl (fun (s : State) k =>
    let w := s.kslotAt k
    if fld w 63 62 = 1 ∧ fld w 61 60 ≠ 1 ∧ fld w 59 44 = tenant then s.drainKey k else s) s

/-- Its watch records go, and W with them (R77). -/
def State.dropWatched (s : State) (tenant : Nat) : State :=
  let mine (w : Watch) : Bool := w.tenant == tenant
  let words := (s.watches.filter mine).map (fun w => w.dpa)
  words.foldl (fun (s : State) d => (s.setTag d (fun t => { t with watched := false })).seal d) (s.dropWatches mine)

/-- Launch records of the function (R362). One whose gangs have started is dropped with them (log 18). -/
def State.dropLaunches (s : State) (fn tenant : Nat) : State :=
  let s := { s with launches := s.launches.map (fun (l : Launch) =>
    if l.fn = fn ∧ l.gang = 0 ∧ l.kind = 0 then { l with discarded := true } else l) }
  { s with launches := s.launches.filter (fun (l : Launch) => !(l.tenant == tenant && decide (0 < l.gang) && !l.discarded)) }

/-- A record waits in a queue's buffer; of 256, the oldest of the lowest severity is discarded (R379). -/
def recordSev (r : Record) : Nat := fld r.w0 47 45

def dropLowest (rs : List Record) : List Record :=
  let low := rs.foldl (fun (m : Nat) r => min m (recordSev r)) 7
  match rs.find? (fun r => recordSev r == low) with
  | some r => rs.erase r
  | none => rs

def Fn.hold (f : Fn) (r : Record) : Fn :=
  if 256 ≤ f.buffer.length then { f with buffer := dropLowest f.buffer ++ [r], lost := f.lost + 1 }
  else { f with buffer := f.buffer ++ [r] }

/-- A tenant ends: its slots, references, engine commands, keys and shares, and what firmware has given it (R362, R407). A re-key that it
has asked for goes on for the window's other sharers, without a completion word. -/
def State.endTenant (s : State) (fn tenant part : Nat) : State :=
  let hosted := (s.tileAt 0).tenantOf part == tenant
  let s := ((s.dropWatched tenant).dropRefs tenant).dropWindows tenant
  let s := (s.tiles.map (fun x => x.1)).foldl (fun (s : State) n => s.dropTile n part tenant) (s.dropSlots tenant part)
  let s := if hosted then
      { s with btab := Map.set (fun _ => 0) s.btab part 0 }.mapTiles (fun _ t => t.invalidate part none true 0 0)
    else s
  let s := (s.drainKeys tenant).dropLaunches fn tenant
  { s with
    rekeys := s.rekeys.map (fun (r : Rekey) => if r.tenant = tenant then { r with done := none } else r)
    ranges := s.ranges.filter (fun r => r.tenant != tenant)
    images := s.images.filter (fun x => x.1 != tenant)
    attested := Map.set (fun _ => false) s.attested part false }

/-- The host tenant of a VF goes with it: its references are dropped, it leaves its windows, and its key drains (R120, R127). -/
def State.endHost (s : State) (fn : Nat) : State :=
  let t := hostTenant fn
  let s := (((s.dropWatched t).dropRefs t).dropWindows t).drainKeys t
  { s with
    barWaits := s.barWaits.filter (fun w => w.fn != fn)
    launches := s.launches.map (fun (l : Launch) => if l.fn = fn then { l with hold := none } else l) }

/-- One VF is torn down: the tenant of its binding in effect ends, and one that VFBIND names for it since; one record says so (R361,
R362). -/
def State.tearDown (s : State) (link v : Nat) : State :=
  let fn := 64 * link + v
  let b := s.bindOf fn
  let new := Map.get (fun _ => 0) s.vfbind fn
  if bindValid b = false ∧ bindValid new = false then s
  else
    let first := if bindValid b then b else new
    let s := s.endTenant fn (bindTenant first) (bindPart first)
    let s := if bindValid new ∧ bindTenant new ≠ bindTenant first then s.endTenant fn (bindTenant new) (bindPart new) else s
    let s := (s.fnAt fn).buffer.foldl (fun (s : State) r => s.setFn (64 * link) ((s.fnAt (64 * link)).hold r)) s
    let s := (s.setFn fn { s.fnAt fn with buffer := [], lqhold := none, eqhold := none }).endHost fn
    { s with bound := Map.erase s.bound fn, teardowns := s.teardowns ++ [link] }.post
      { code := 0x010D, sev := 3, engine := 11, tenant := bindTenant first, part := bindPart first, action := 28, detail := wd v }

/-- The teardown of a PF's VFs falls between two rotations (log 18). -/
def execVfEnableClear (link : Nat) (s : State) : Out :=
  let parts := (List.range 64).flatMap (fun v =>
    [bindPart (s.bindOf (64 * link + v)), bindPart (Map.get (fun _ => 0) s.vfbind (64 * link + v))])
  if 2 ≤ link ∨ Map.get (fun _ => false) s.vfEnable link = false ∨ parts.any s.turning = true then .next s
  else
    let s := (List.range 64).foldl (fun (s : State) v => if v = 0 then s else s.tearDown link v) s
    .next ({ s with vfEnable := Map.set (fun _ => false) s.vfEnable link false }).unstall

/-- Refused until the teardown records have been posted. -/
def execVfEnableSet (link : Nat) (s : State) : Out :=
  s.when (decide (link < 2) && !s.teardowns.contains link)
    { s with vfEnable := Map.set (fun _ => false) s.vfEnable link true }

/-! ### Attestation (R373, R119, R120) -/

/-- 256 bits that the spec does not state. -/
def freeBits (n : Nat) : BitVec 256 :=
  Sys2Proof.Config.freeWord n ++ Sys2Proof.Config.freeWord (n + 1) ++ Sys2Proof.Config.freeWord (n + 2) ++ Sys2Proof.Config.freeWord (n + 3)

/-- The report on the tenant that is bound to a partition, for the nonce that its verifier sends (R373). The digests of the configuration
records and of the launch image, and the ephemeral key, are free values (log 5). -/
def State.report (s : State) (part : Nat) (nonce : BitVec 256) : State :=
  match s.vfbind.find? (fun x => bindValid x.2 && bindPart x.2 == part) with
  | none => s
  | some x =>
    let n := s.free
    let r : Report :=
      { nonce := nonce, romDigest := Sys2Proof.Config.romDigest, fwDigest := s.image.digest, cfgDigest := freeBits n
        tenant := BitVec.ofNat 16 (bindTenant x.2), part := BitVec.ofNat 4 part, imageDigest := freeBits (n + 4)
        key := freeBits (n + 8) ++ freeBits (n + 12) }
    if part < 16 then { s with free := n + 16, reports := Map.set (fun _ => none) s.reports part (some r) } else s

/-- The verifier of the tenant bound to the partition accepts its report: the session key takes the lowest EMPTY slot (log 18), the tenant
key is created, and the tenant's pages are granted fresh. No record has been accepted on the session slot: the sequence number to exceed
is 0, so that a record numbered 0 is rejected; the spec does not say so (DESIGN CHOICE, log 46). -/
def execAttestation (part : Nat) (s : State) : Out :=
  let bound := s.vfbind.find? (fun x => bindValid x.2 && bindPart x.2 == part)
  let free := (List.range 256).find? (fun k => k != 0 && s.kslotAt k == 0)
  match bound, free with
  | some x, some k =>
    if 16 ≤ part ∨ s.kslotAt (256 + part) ≠ 0 then .next s
    else
      let key (type : Nat) : Word := wd (2 ^ 62 + type * 2 ^ 60 + bindTenant x.2 * 2 ^ 44)
      let s := ((s.setKslot k (key 2)).setKslot (256 + part) (key 0)).nextKey (bindTenant x.2)
      let s := s.freshTenant part (bindTenant x.2)
      .next { s with
        sessions := Map.set (fun _ => 0) s.sessions k 0, attested := Map.set (fun _ => false) s.attested part true }
  | _, _ => .next s

/-! ### Error queues (R377 to R379) -/

/-- EQHEAD, a counter modulo 2^32 as TAIL is; a value above TAIL is discarded. -/
def execEqheadWrite (fn : Nat) (value : Word) (s : State) : Out :=
  let f := s.fnAt fn
  let v := BitVec.ofNat 32 (fld value 31 0)
  if s.present fn = false ∨ 128 ≤ fn then .next s
  else if 0 < (v - f.eqtail).toInt then .next (s.hostDiscard fn 0x40)
  else .next (s.setFn fn { f with eqhead := v })

/-- Does the record go to every PF, whoever its tenant is? -/
def Record.wide (r : Record) : Bool := bit r.w1 63 || fld r.w0 39 24 == 0xFFFF || decide (0 < fld r.w0 21 20)

/-- Function whose tenant a record names. -/
def State.recordFn (s : State) (r : Record) : Option Nat :=
  let tenant := fld r.w0 39 24
  if 0xF000 ≤ tenant then (if tenant - 0xF000 < 128 then some (tenant - 0xF000) else none) else s.fnOf tenant

/-- Queues that a record goes to. One that goes to every PF and names a tenant goes to the tenant's function too: the examples of
27_program_poisoned_reduction and of R376 send it there (DEDUCED, log 18). -/
def State.routes (s : State) (r : Record) : List Nat :=
  match s.recordFn r with
  | none => [0, 64]
  | some f => if r.wide then [0, 64] ++ (if f % 64 = 0 then [] else [f]) else if f % 64 = 0 then [f] else [f, f / 64 * 64]

/-- Does a queue raise an interrupt for the record: of those of every PF, the owner's only (R377)? -/
def State.raises (s : State) (fn : Nat) (r : Record) : Bool := !r.wide || (fn % 64 == 0 && s.owns (fn / 64))

/-- A queue's waiting records are written while the ring has room: w1 to w7, then w0 set full. Each counts one interrupt event. A ring
that fails its checks takes none until its registers are written again (log 18). -/
def State.writeRecords (s : State) (fn : Nat) : Nat → State
  | 0 => s
  | n + 1 =>
    let f := s.fnAt fn
    match f.buffer with
    | [] => s
    | r :: rest =>
      let size := 2 ^ fld f.eqcfg 62 59
      if bit f.eqcfg 63 = false ∨ size ≤ (f.eqtail - f.eqhead).toNat ∨ f.eqhold.any (fun h => decide (h.st ≠ .woken)) = true then s
      else
        let base := padd f.eqbase (wd (64 * (f.eqtail.toNat % size)))
        let stop (s : State) (h : Option Hold) : State := s.setFn fn { s.fnAt fn with eqhold := h }
        match s.unitReads 0 (hostPartOf fn) (hostTenant fn) needWS (wordsFrom base 8) with
        | (.error (.page x queued), s) => stop (s.wantPage 0 x queued) (x.held 0)
        | (.error .wait, s) => s
        | (.error (.cause _ p), s) =>
          stop s (some { tile := 0, part := hostPartOf fn, idx := ptrIdx p, page := ptrOff p / 4096, st := .failed })
        | (.ok ts, s) =>
          let at_ (j : Nat) : Nat := (ts.getD j { dpa := 0 }).dpa
          if ts.any (fun t => s.gated t.dpa) then s
          else
            let opened := ts.foldl (fun (s : State) t => s.openUnit t.dpa (hostTenant fn) (hostPartOf fn) base true) s
            if ts.any (fun t => (opened.homeStop t.dpa true).isSome) then opened
            else
              let s := opened
              let w0 := if f.lost = 0 then r.w0 else r.w0 ||| wd (2 ^ 23)
              let ws := [w0, r.w1, r.w2, r.w3, r.w4, r.w5, r.w6, r.w7]
              let s := (List.range 7).foldl (fun (s : State) j =>
                s.deviceWrite (at_ (j + 1)) (ws.getD (j + 1) 0)) s
              let s := s.fillDone (at_ 0) (hostTenant fn) (hostPartOf fn) base w0
              let s := s.setFn fn { s.fnAt fn with buffer := rest, lost := 0, eqtail := f.eqtail + 1, eqhold := none }
              let s := if s.raises fn r then s.countEvent fn (fld f.eqcfg 58 51) else s
              s.writeRecords fn n

/-- A record joins a queue; one whose severity is below MINSEV is counted only. -/
def State.queueRecord (s : State) (fn : Nat) (r : Record) : State :=
  let f := s.fnAt fn
  if recordSev r < fld f.eqcfg 50 48 then s.setFn fn { f with below := f.below + 1 } else s.setFn fn (f.hold r)

/-- The record that is written next: of those of the oldest cycle, once it is over, the first of the lowest tile (R379). -/
def State.nextRecord (s : State) : Option Record :=
  match s.records with
  | [] => none
  | r :: rest =>
    let same := (r :: rest).filter (fun x => x.w5 == r.w5)
    let low := same.foldl (fun (m : Nat) x => min m (fld x.w1 21 12)) (fld r.w1 21 12)
    if r.w5 = s.cycle then none else same.find? (fun x => fld x.w1 21 12 == low)

/-- The next posted record goes to its queues, that of a torn-down VF to its PF (R362), and every queue writes what it has room for. -/
def execErrorRecordWrite (s : State) : Out :=
  let flush (s : State) (fn : Nat) : State := s.writeRecords fn 256
  match s.nextRecord with
  | none => .next ((s.fns.map (fun x => x.1)).foldl flush s).unstall
  | some r =>
    let link := if fld r.w0 63 48 = 0x010D then s.teardowns.head? else none
    let qs := match link with
      | some l => [64 * l]
      | none => s.routes r
    let s := qs.foldl (fun (s : State) fn => s.queueRecord fn r) { s with records := s.records.erase r }
    let s := if link.isSome then { s with teardowns := s.teardowns.drop 1 } else s
    .next ((s.fns.map (fun x => x.1)).foldl flush s).unstall

/-! ### Interrupts (R367, R369) -/

/-- TIME has elapsed since the vector's first pending event. -/
def execIcoalTimer (fn vec : Nat) (s : State) : Out :=
  let f := s.fnAt fn
  let t := fld f.icoal 15 0
  if vec < vectors fn ∧ 0 < Map.get (fun _ => 0) f.pending vec ∧ t ≠ 0
      ∧ Map.get (fun _ => 0) f.since vec + t * microCycles ≤ s.cycle.toNat then .next (s.sendVector fn vec)
  else .next s

/-- The host unmasks a vector. -/
def execMsixUnmask (fn vec : Nat) (s : State) : Out :=
  if s.present fn && decide (fn < 128) && decide (vec < vectors fn) then
    .next (s.writeMsix fn vec true (wd (((s.fnAt fn).entry vec).toNat / 2 ^ 64 % 2 ^ 32)))
  else .next s

end Sys2Proof.Machine
end

