-- ==== Sys2Proof/Machine/EvReset.lean ====
section
/-! DEFINITION. Resets: of the package and of one tile (R380, R381), and the boot check (R372). -/

namespace Sys2Proof.Machine

open Sys2Proof

/-- RSTCAUSE after a package reset: CAUSE, PREV and COUNT change (R380). -/
def nextCause (old : Word) (cause : Nat) : Word :=
  wd (cause * 2 ^ 56 + fld old 63 56 * 2 ^ 48 + min (fld old 47 32 + 1) 0xFFFF * 2 ^ 32 + fld old 31 16 * 2 ^ 16)

/-- RSTCAUSE after a tile reset. -/
def nextTileCause (old : Word) (tile cause : Nat) : Word :=
  wd (fld old 63 32 * 2 ^ 32 + tile % 1024 * 2 ^ 22 + cause % 64 * 2 ^ 16)

/-- The record of a reset, with the time of its detection (R374, R381). -/
def resetSpec (scope tile : Nat) (rst : Word) : RecordSpec :=
  { code := 0x010F, sev := 5, engine := 12, scope := scope, tile := tile, action := 25, detail := rst }

/-- A package reset: everything is as State.reset has it, but for the package's domain, RSTCAUSE, SROOT, the spare banks, COUNT of each
line, the boot store, what hosts have received, and the model's own counters and agenda. -/
def State.packageReset (s : State) (cause : Nat) : State :=
  let rst := nextCause s.rstcause cause
  let rec_ := (s.post (resetSpec 2 0 rst)).records.drop s.records.length
  { State.reset with
    agenda := s.agenda, fresh := s.fresh, free := s.free, package := s.package, domain := s.domain, members := s.members
    sroot := s.sroot, rstcause := rst, spares := s.spares, hostRead := s.hostRead, msixSent := s.msixSent, records := rec_
    image := s.image, prevImage := s.prevImage, rollback := s.rollback
    ctr := (s.ctr.map (fun (x : Nat × BitVec 56) => (x.1, BitVec.ofNat 56 (2 ^ 55 + lineCount x.2)))).filter
      (fun x => x.2 != freshLine x.1) }

def execPowerOn (s : State) : Out := .next (s.packageReset 0)
/-- A fundamental reset from the owner's link. -/
def execPcieFundamentalReset (link : Nat) (s : State) : Out := s.when (decide (link < 2) && s.owns link) (s.packageReset 1)
def execOwnerResetRequest (master : Nat) (s : State) : Out := s.when (s.owns master) (s.packageReset 2)
def execMcResetRequest (s : State) : Out := .next (s.packageReset 3)
def execThermalReset (s : State) : Out := .next (s.packageReset 4)
def execSupplyFault (s : State) : Out := .next (s.packageReset 5)
def execFirmwareWatchdog (s : State) : Out := .next (s.packageReset 7)

/-- A firmware image is put into the boot store; the one that was there is the previous one. -/
def State.storeImage (s : State) (x : ImageHeader) : State := { s with image := x, prevImage := s.image }

/-- The boot ROM's check of the image's header: the signature, whose outcome is `accepted` (log 14), and the rollback index. An image that
fails is not run, and the previous one boots with cause 6. -/
def execFirmwareBoot (accepted : Bool) (s : State) : Out :=
  if s.booted then .next s
  else if accepted && decide (s.rollback.toNat ≤ s.image.rollback.toNat) then .next { s with booted := true }
  else .next { s.packageReset 6 with booted := true, image := s.prevImage }

/-- A tile reset acts as the readmission of R353 and touches no other tile. Cause 8: a fault in a house slot while it handles an
escalation (R318); cause 9: the owner's request for a tile that three appeals have left fenced (R352). -/
def State.mayResetTile (s : State) (tile cause : Nat) : Bool :=
  let h := s.herd tile
  decide (tile < 1024) &&
    (if cause = 8 then s.houseFault tile
    else cause == 9 && h.fenced && h.recovered && !h.selfTest && !h.appealing && !h.testFailed && decide (3 ≤ h.appeals.length) && s.owned)

/-- The tile's state is lost and its self-test begins; the readmission follows it (R381). -/
def State.resetTile (s : State) (tile cause : Nat) : State :=
  let rst := nextTileCause s.rstcause tile cause
  let s := s.dropMembers tile
  let t := (s.tileAt tile).stopped
  let t := if t.point = .off then t.toPoint .n s.cycle.toNat else t
  let s := (s.setTileAt tile
    { t with
      bars := [], recover := []
      herd := { t.herd with resetting := true, selfTest := true, testSince := s.cycle.toNat } }).dropLoft tile
  let s := { s with
    rstcause := rst, issuing := s.issuing && tileOf s.cur != tile
    ctxs := s.ctxs.filter (fun x => tileOf x.1 != tile) }
  (s.post (resetSpec 0 tile rst)).unstall

def execTileReset (tile cause : Nat) (s : State) : Out := s.when (s.mayResetTile tile cause) (s.resetTile tile cause)

end Sys2Proof.Machine
end

