-- ==== Sys2Proof/Machine/Dispatch.lean ====
section
/-! DEFINITION. One arm per step of the device: the meaning of each row of the opcode table. -/

namespace Sys2Proof.Machine

open Sys2Proof (Instr)

def exec (i : Instr) (s : State) : Host.Outcome State Fault Refusal :=
  match i with
  | .mvN x y => Sys2Proof.Machine.execMvN x y s
  | .liN x imm => Sys2Proof.Machine.execLiN x imm s
  | .addN x y => Sys2Proof.Machine.execAddN x y s
  | .addiN x imm => Sys2Proof.Machine.execAddiN x imm s
  | .subN x y => Sys2Proof.Machine.execSubN x y s
  | .shliN x imm => Sys2Proof.Machine.execShliN x imm s
  | .andN x y => Sys2Proof.Machine.execAndN x y s
  | .shriN x imm => Sys2Proof.Machine.execShriN x imm s
  | .orN x y => Sys2Proof.Machine.execOrN x y s
  | .sraiN x imm => Sys2Proof.Machine.execSraiN x imm s
  | .xorN x y => Sys2Proof.Machine.execXorN x y s
  | .andiN x imm => Sys2Proof.Machine.execAndiN x imm s
  | .ldN x y => Sys2Proof.Machine.execLdN x y s
  | .ldspN x imm => Sys2Proof.Machine.execLdspN x imm s
  | .stN x y => Sys2Proof.Machine.execStN x y s
  | .stspN x imm => Sys2Proof.Machine.execStspN x imm s
  | .beqzN x off => Sys2Proof.Machine.execBeqzN x off s
  | .bnezN x off => Sys2Proof.Machine.execBnezN x off s
  | .jN off => Sys2Proof.Machine.execJN off s
  | .jrN x => Sys2Proof.Machine.execJrN x s
  | .callrN x => Sys2Proof.Machine.execCallrN x s
  | .retN => Sys2Proof.Machine.execRetN s
  | .nopN => Sys2Proof.Machine.execNopN s
  | .addspN imm => Sys2Proof.Machine.execAddspN imm s
  | .add d a b => Sys2Proof.Machine.execAdd d a b s
  | .sub d a b => Sys2Proof.Machine.execSub d a b s
  | .and d a b => Sys2Proof.Machine.execAnd d a b s
  | .or d a b => Sys2Proof.Machine.execOr d a b s
  | .xor d a b => Sys2Proof.Machine.execXor d a b s
  | .andn d a b => Sys2Proof.Machine.execAndn d a b s
  | .shl d a b => Sys2Proof.Machine.execShl d a b s
  | .shr d a b => Sys2Proof.Machine.execShr d a b s
  | .sra d a b => Sys2Proof.Machine.execSra d a b s
  | .mul d a b => Sys2Proof.Machine.execMul d a b s
  | .mulh d a b => Sys2Proof.Machine.execMulh d a b s
  | .mulhu d a b => Sys2Proof.Machine.execMulhu d a b s
  | .div d a b => Sys2Proof.Machine.execDiv d a b s
  | .divu d a b => Sys2Proof.Machine.execDivu d a b s
  | .rem d a b => Sys2Proof.Machine.execRem d a b s
  | .remu d a b => Sys2Proof.Machine.execRemu d a b s
  | .slt d a b => Sys2Proof.Machine.execSlt d a b s
  | .sltu d a b => Sys2Proof.Machine.execSltu d a b s
  | .min d a b => Sys2Proof.Machine.execMin d a b s
  | .max d a b => Sys2Proof.Machine.execMax d a b s
  | .clz d a => Sys2Proof.Machine.execClz d a s
  | .popc d a => Sys2Proof.Machine.execPopc d a s
  | .addi d a imm => Sys2Proof.Machine.execAddi d a imm s
  | .andi d a imm => Sys2Proof.Machine.execAndi d a imm s
  | .ori d a imm => Sys2Proof.Machine.execOri d a imm s
  | .xori d a imm => Sys2Proof.Machine.execXori d a imm s
  | .slti d a imm => Sys2Proof.Machine.execSlti d a imm s
  | .sltui d a imm => Sys2Proof.Machine.execSltui d a imm s
  | .shli d a imm => Sys2Proof.Machine.execShli d a imm s
  | .shri d a imm => Sys2Proof.Machine.execShri d a imm s
  | .srai d a imm => Sys2Proof.Machine.execSrai d a imm s
  | .addFp32 d a b => Sys2Proof.Machine.execAddFp32 d a b s
  | .subFp32 d a b => Sys2Proof.Machine.execSubFp32 d a b s
  | .mulFp32 d a b => Sys2Proof.Machine.execMulFp32 d a b s
  | .divFp32 d a b => Sys2Proof.Machine.execDivFp32 d a b s
  | .sqrtFp32 d a => Sys2Proof.Machine.execSqrtFp32 d a s
  | .minFp32 d a b => Sys2Proof.Machine.execMinFp32 d a b s
  | .maxFp32 d a b => Sys2Proof.Machine.execMaxFp32 d a b s
  | .fmaFp32 d a b c => Sys2Proof.Machine.execFmaFp32 d a b c s
  | .seqFp32 d a b => Sys2Proof.Machine.execSeqFp32 d a b s
  | .sltFp32 d a b => Sys2Proof.Machine.execSltFp32 d a b s
  | .cvtI32Fp32 d a => Sys2Proof.Machine.execCvtI32Fp32 d a s
  | .cvtFp32I32 d a => Sys2Proof.Machine.execCvtFp32I32 d a s
  | .lui d imm => Sys2Proof.Machine.execLui d imm s
  | .lpc d imm => Sys2Proof.Machine.execLpc d imm s
  | .pmk d a b => Sys2Proof.Machine.execPmk d a b s
  | .pidx d a => Sys2Proof.Machine.execPidx d a s
  | .poff d a => Sys2Proof.Machine.execPoff d a s
  | .padd d a b => Sys2Proof.Machine.execPadd d a b s
  | .bfx d a b imm => Sys2Proof.Machine.execBfx d a b imm s
  | .bfxu d a b imm => Sys2Proof.Machine.execBfxu d a b imm s
  | .bfi d a b imm => Sys2Proof.Machine.execBfi d a b imm s
  | .brEq a b off => Sys2Proof.Machine.execBrEq a b off s
  | .brNe a b off => Sys2Proof.Machine.execBrNe a b off s
  | .brLt a b off => Sys2Proof.Machine.execBrLt a b off s
  | .brGe a b off => Sys2Proof.Machine.execBrGe a b off s
  | .brLtu a b off => Sys2Proof.Machine.execBrLtu a b off s
  | .brGeu a b off => Sys2Proof.Machine.execBrGeu a b off s
  | .brLtz a off => Sys2Proof.Machine.execBrLtz a off s
  | .brGez a off => Sys2Proof.Machine.execBrGez a off s
  | .jmp off => Sys2Proof.Machine.execJmp off s
  | .call d off => Sys2Proof.Machine.execCall d off s
  | .jr a imm => Sys2Proof.Machine.execJr a imm s
  | .callr d a imm => Sys2Proof.Machine.execCallr d a imm s
  | .ret => Sys2Proof.Machine.execRet s
  | .loop a off => Sys2Proof.Machine.execLoop a off s
  | .ldB d b off => Sys2Proof.Machine.execLdB d b off s
  | .ldBz d b off => Sys2Proof.Machine.execLdBz d b off s
  | .ldH d b off => Sys2Proof.Machine.execLdH d b off s
  | .ldHz d b off => Sys2Proof.Machine.execLdHz d b off s
  | .ldW d b off => Sys2Proof.Machine.execLdW d b off s
  | .ldWz d b off => Sys2Proof.Machine.execLdWz d b off s
  | .ldD d b off => Sys2Proof.Machine.execLdD d b off s
  | .ldDWf d b off => Sys2Proof.Machine.execLdDWf d b off s
  | .ldDWfc d b off => Sys2Proof.Machine.execLdDWfc d b off s
  | .ldDWfHelp d b off => Sys2Proof.Machine.execLdDWfHelp d b off s
  | .ldDWfcHelp d b off => Sys2Proof.Machine.execLdDWfcHelp d b off s
  | .ldDPr d b off => Sys2Proof.Machine.execLdDPr d b off s
  | .stB d b off => Sys2Proof.Machine.execStB d b off s
  | .stH d b off => Sys2Proof.Machine.execStH d b off s
  | .stW d b off => Sys2Proof.Machine.execStW d b off s
  | .stD d b off => Sys2Proof.Machine.execStD d b off s
  | .stDSf d b off => Sys2Proof.Machine.execStDSf d b off s
  | .stDWe d b off => Sys2Proof.Machine.execStDWe d b off s
  | .ldmD d a b imm => Sys2Proof.Machine.execLdmD d a b imm s
  | .stmD d a b imm => Sys2Proof.Machine.execStmD d a b imm s
  | .pset b off => Sys2Proof.Machine.execPset b off s
  | .pclr b off => Sys2Proof.Machine.execPclr b off s
  | .pget d b off => Sys2Proof.Machine.execPget d b off s
  | .watch d b off => Sys2Proof.Machine.execWatch d b off s
  | .unwatch b off => Sys2Proof.Machine.execUnwatch b off s
  | .fenceAcqTile => Sys2Proof.Machine.execFenceAcqTile s
  | .fenceAcqTower => Sys2Proof.Machine.execFenceAcqTower s
  | .fenceAcqPkg => Sys2Proof.Machine.execFenceAcqPkg s
  | .fenceAcqDom => Sys2Proof.Machine.execFenceAcqDom s
  | .fenceAcqWin => Sys2Proof.Machine.execFenceAcqWin s
  | .fenceRelTile => Sys2Proof.Machine.execFenceRelTile s
  | .fenceRelTower => Sys2Proof.Machine.execFenceRelTower s
  | .fenceRelPkg => Sys2Proof.Machine.execFenceRelPkg s
  | .fenceRelDom => Sys2Proof.Machine.execFenceRelDom s
  | .fenceRelWin => Sys2Proof.Machine.execFenceRelWin s
  | .fenceFullTile => Sys2Proof.Machine.execFenceFullTile s
  | .fenceFullTower => Sys2Proof.Machine.execFenceFullTower s
  | .fenceFullPkg => Sys2Proof.Machine.execFenceFullPkg s
  | .fenceFullDom => Sys2Proof.Machine.execFenceFullDom s
  | .fenceFullWin => Sys2Proof.Machine.execFenceFullWin s
  | .amoAdd d a b => Sys2Proof.Machine.execAmoAdd d a b s
  | .amoAnd d a b => Sys2Proof.Machine.execAmoAnd d a b s
  | .amoOr d a b => Sys2Proof.Machine.execAmoOr d a b s
  | .amoXor d a b => Sys2Proof.Machine.execAmoXor d a b s
  | .amoMin d a b => Sys2Proof.Machine.execAmoMin d a b s
  | .amoMax d a b => Sys2Proof.Machine.execAmoMax d a b s
  | .amoSwap d a b => Sys2Proof.Machine.execAmoSwap d a b s
  | .amoCas d a b c => Sys2Proof.Machine.execAmoCas d a b c s
  | .amoAddW d a b => Sys2Proof.Machine.execAmoAddW d a b s
  | .amoAndW d a b => Sys2Proof.Machine.execAmoAndW d a b s
  | .amoOrW d a b => Sys2Proof.Machine.execAmoOrW d a b s
  | .amoXorW d a b => Sys2Proof.Machine.execAmoXorW d a b s
  | .amoMinW d a b => Sys2Proof.Machine.execAmoMinW d a b s
  | .amoMaxW d a b => Sys2Proof.Machine.execAmoMaxW d a b s
  | .amoSwapW d a b => Sys2Proof.Machine.execAmoSwapW d a b s
  | .amoCasW d a b c => Sys2Proof.Machine.execAmoCasW d a b c s
  | .amoAddFp32 d a b => Sys2Proof.Machine.execAmoAddFp32 d a b s
  | .amoMaxFp32 d a b => Sys2Proof.Machine.execAmoMaxFp32 d a b s
  | .rdxInit a => Sys2Proof.Machine.execRdxInit a s
  | .rdxAddFp32 a b => Sys2Proof.Machine.execRdxAddFp32 a b s
  | .rdxAddBf16 a b => Sys2Proof.Machine.execRdxAddBf16 a b s
  | .rdxRead d a => Sys2Proof.Machine.execRdxRead d a s
  | .spawn a => Sys2Proof.Machine.execSpawn a s
  | .spawnT a b => Sys2Proof.Machine.execSpawnT a b s
  | .tdone a => Sys2Proof.Machine.execTdone a s
  | .tyield => Sys2Proof.Machine.execTyield s
  | .texit => Sys2Proof.Machine.execTexit s
  | .help a => Sys2Proof.Machine.execHelp a s
  | .dqlen d => Sys2Proof.Machine.execDqlen d s
  | .send d a b c => Sys2Proof.Machine.execSend d a b c s
  | .sendMc d a b c => Sys2Proof.Machine.execSendMc d a b c s
  | .sendMb d a b => Sys2Proof.Machine.execSendMb d a b s
  | .sendMbF d a b => Sys2Proof.Machine.execSendMbF d a b s
  | .msgret => Sys2Proof.Machine.execMsgret s
  | .gbar d => Sys2Proof.Machine.execGbar d s
  | .garrive => Sys2Proof.Machine.execGarrive s
  | .gwait d => Sys2Proof.Machine.execGwait d s
  | .gquery d a => Sys2Proof.Machine.execGquery d a s
  | .gleave => Sys2Proof.Machine.execGleave s
  | .sborrow d => Sys2Proof.Machine.execSborrow d s
  | .sreturn a => Sys2Proof.Machine.execSreturn a s
  | .xmovTo a b imm => Sys2Proof.Machine.execXmovTo a b imm s
  | .xmovFrom d a imm => Sys2Proof.Machine.execXmovFrom d a imm s
  | .xmovmTo d a b imm => Sys2Proof.Machine.execXmovmTo d a b imm s
  | .xmovmFrom d a b imm => Sys2Proof.Machine.execXmovmFrom d a b imm s
  | .xmovxTo a b imm => Sys2Proof.Machine.execXmovxTo a b imm s
  | .xmovxFrom d a imm => Sys2Proof.Machine.execXmovxFrom d a imm s
  | .qput a imm => Sys2Proof.Machine.execQput a imm s
  | .qget d imm => Sys2Proof.Machine.execQget d imm s
  | .qputNb d a imm => Sys2Proof.Machine.execQputNb d a imm s
  | .qgetNb d imm => Sys2Proof.Machine.execQgetNb d imm s
  | .qlen d imm => Sys2Proof.Machine.execQlen d imm s
  | .vaddFp32 d a b => Sys2Proof.Machine.execVaddFp32 d a b s
  | .vsubFp32 d a b => Sys2Proof.Machine.execVsubFp32 d a b s
  | .vmulFp32 d a b => Sys2Proof.Machine.execVmulFp32 d a b s
  | .vdivFp32 d a b => Sys2Proof.Machine.execVdivFp32 d a b s
  | .vfmaFp32 d a b => Sys2Proof.Machine.execVfmaFp32 d a b s
  | .vminFp32 d a b => Sys2Proof.Machine.execVminFp32 d a b s
  | .vmaxFp32 d a b => Sys2Proof.Machine.execVmaxFp32 d a b s
  | .vabsFp32 d a => Sys2Proof.Machine.execVabsFp32 d a s
  | .vnegFp32 d a => Sys2Proof.Machine.execVnegFp32 d a s
  | .vreluFp32 d a => Sys2Proof.Machine.execVreluFp32 d a s
  | .vaddbFp32 d a b => Sys2Proof.Machine.execVaddbFp32 d a b s
  | .vmulbFp32 d a b => Sys2Proof.Machine.execVmulbFp32 d a b s
  | .vaddBf16 d a b => Sys2Proof.Machine.execVaddBf16 d a b s
  | .vsubBf16 d a b => Sys2Proof.Machine.execVsubBf16 d a b s
  | .vmulBf16 d a b => Sys2Proof.Machine.execVmulBf16 d a b s
  | .vfmaBf16 d a b => Sys2Proof.Machine.execVfmaBf16 d a b s
  | .vminBf16 d a b => Sys2Proof.Machine.execVminBf16 d a b s
  | .vmaxBf16 d a b => Sys2Proof.Machine.execVmaxBf16 d a b s
  | .vreluBf16 d a => Sys2Proof.Machine.execVreluBf16 d a s
  | .vaddI32 d a b => Sys2Proof.Machine.execVaddI32 d a b s
  | .vsubI32 d a b => Sys2Proof.Machine.execVsubI32 d a b s
  | .vmulI32 d a b => Sys2Proof.Machine.execVmulI32 d a b s
  | .vminI32 d a b => Sys2Proof.Machine.execVminI32 d a b s
  | .vmaxI32 d a b => Sys2Proof.Machine.execVmaxI32 d a b s
  | .vandI32 d a b => Sys2Proof.Machine.execVandI32 d a b s
  | .vorI32 d a b => Sys2Proof.Machine.execVorI32 d a b s
  | .vxorI32 d a b => Sys2Proof.Machine.execVxorI32 d a b s
  | .vshlI32 d a b => Sys2Proof.Machine.execVshlI32 d a b s
  | .vsraI32 d a b => Sys2Proof.Machine.execVsraI32 d a b s
  | .vreluI32 d a => Sys2Proof.Machine.execVreluI32 d a s
  | .vexpFp32 d a => Sys2Proof.Machine.execVexpFp32 d a s
  | .vlogFp32 d a => Sys2Proof.Machine.execVlogFp32 d a s
  | .vrcpFp32 d a => Sys2Proof.Machine.execVrcpFp32 d a s
  | .vrsqrtFp32 d a => Sys2Proof.Machine.execVrsqrtFp32 d a s
  | .vsqrtFp32 d a => Sys2Proof.Machine.execVsqrtFp32 d a s
  | .vtanhFp32 d a => Sys2Proof.Machine.execVtanhFp32 d a s
  | .vsigmFp32 d a => Sys2Proof.Machine.execVsigmFp32 d a s
  | .vcmpEqFp32 d a b => Sys2Proof.Machine.execVcmpEqFp32 d a b s
  | .vcmpLtFp32 d a b => Sys2Proof.Machine.execVcmpLtFp32 d a b s
  | .vcmpLeFp32 d a b => Sys2Proof.Machine.execVcmpLeFp32 d a b s
  | .vcmpEqI32 d a b => Sys2Proof.Machine.execVcmpEqI32 d a b s
  | .vcmpLtI32 d a b => Sys2Proof.Machine.execVcmpLtI32 d a b s
  | .vsel d a b => Sys2Proof.Machine.execVsel d a b s
  | .vsumFp32 d a => Sys2Proof.Machine.execVsumFp32 d a s
  | .vsumI32 d a => Sys2Proof.Machine.execVsumI32 d a s
  | .vmaxrFp32 d a => Sys2Proof.Machine.execVmaxrFp32 d a s
  | .vbcast d a => Sys2Proof.Machine.execVbcast d a s
  | .vget d a b => Sys2Proof.Machine.execVget d a b s
  | .vset d a b => Sys2Proof.Machine.execVset d a b s
  | .vcvtBf16Fp32 d a b => Sys2Proof.Machine.execVcvtBf16Fp32 d a b s
  | .vcvtFp32Bf16 d a b => Sys2Proof.Machine.execVcvtFp32Bf16 d a b s
  | .vcvtI32Fp32 d a => Sys2Proof.Machine.execVcvtI32Fp32 d a s
  | .vcvtFp32I32 d a => Sys2Proof.Machine.execVcvtFp32I32 d a s
  | .vmov d a => Sys2Proof.Machine.execVmov d a s
  | .vld d a b => Sys2Proof.Machine.execVld d a b s
  | .vst d a b => Sys2Proof.Machine.execVst d a b s
  | .abind d => Sys2Proof.Machine.execAbind d s
  | .aunbind => Sys2Proof.Machine.execAunbind s
  | .atypeFp32 d => Sys2Proof.Machine.execAtypeFp32 d s
  | .atypeI32 d => Sys2Proof.Machine.execAtypeI32 d s
  | .atypeBf16 d => Sys2Proof.Machine.execAtypeBf16 d s
  | .azero d => Sys2Proof.Machine.execAzero d s
  | .aqlen d => Sys2Proof.Machine.execAqlen d s
  | .aver d a => Sys2Proof.Machine.execAver d a s
  | .mma d a => Sys2Proof.Machine.execMma d a s
  | .mmaSp6 d a => Sys2Proof.Machine.execMmaSp6 d a s
  | .mmaSp12 d a => Sys2Proof.Machine.execMmaSp12 d a s
  | .mmaZ d a => Sys2Proof.Machine.execMmaZ d a s
  | .await d a => Sys2Proof.Machine.execAwait d a s
  | .drain d a b => Sys2Proof.Machine.execDrain d a b s
  | .drainAdd d a b => Sys2Proof.Machine.execDrainAdd d a b s
  | .acopy d a b => Sys2Proof.Machine.execAcopy d a b s
  | .cpy a b => Sys2Proof.Machine.execCpy a b s
  | .cpyMm d a b imm => Sys2Proof.Machine.execCpyMm d a b imm s
  | .cpyMc a b => Sys2Proof.Machine.execCpyMc a b s
  | .cpyMmMc d a b imm => Sys2Proof.Machine.execCpyMmMc d a b imm s
  | .cpyAdd a b => Sys2Proof.Machine.execCpyAdd a b s
  | .cpyFill a b => Sys2Proof.Machine.execCpyFill a b s
  | .cpyKeep a b => Sys2Proof.Machine.execCpyKeep a b s
  | .cpySend d a b => Sys2Proof.Machine.execCpySend d a b s
  | .cpyCancel d b => Sys2Proof.Machine.execCpyCancel d b s
  | .cpyQuery d b => Sys2Proof.Machine.execCpyQuery d b s
  | .xset d a b => Sys2Proof.Machine.execXset d a b s
  | .xgetLo d a => Sys2Proof.Machine.execXgetLo d a s
  | .xgetHi d a => Sys2Proof.Machine.execXgetHi d a s
  | .xld d a imm => Sys2Proof.Machine.execXld d a imm s
  | .xst d a imm => Sys2Proof.Machine.execXst d a imm s
  | .xclr d => Sys2Proof.Machine.execXclr d s
  | .trap imm => Sys2Proof.Machine.execTrap imm s
  | .brk imm => Sys2Proof.Machine.execBrk imm s
  | .tback => Sys2Proof.Machine.execTback s
  | .nap a => Sys2Proof.Machine.execNap a s
  | .ifence => Sys2Proof.Machine.execIfence s
  | .cget d imm => Sys2Proof.Machine.execCget d imm s
  | .cset a imm => Sys2Proof.Machine.execCset a imm s
  | .cseti b imm => Sys2Proof.Machine.execCseti b imm s
  | .cclr d a imm => Sys2Proof.Machine.execCclr d a imm s
  | .cbis d a imm => Sys2Proof.Machine.execCbis d a imm s
  | .hcget d a => Sys2Proof.Machine.execHcget d a s
  | .hcset a b => Sys2Proof.Machine.execHcset a b s
  | .hstart d a b c => Sys2Proof.Machine.execHstart d a b c s
  | .hkill d a => Sys2Proof.Machine.execHkill d a s
  | .hrec a => Sys2Proof.Machine.execHrec a s
  | .hquiesce a => Sys2Proof.Machine.execHquiesce a s
  | .hpurge d a => Sys2Proof.Machine.execHpurge d a s
  | .hcopy a b c => Sys2Proof.Machine.execHcopy a b c s
  | .carouselIssue tile => Sys2Proof.Machine.execCarouselIssue tile s
  | .escalation ctx => Sys2Proof.Machine.execEscalation ctx s
  | .serviceCall ctx => Sys2Proof.Machine.execServiceCall ctx s
  | .sealCreate ctx base slot idx => Sys2Proof.Machine.execSealCreate ctx base slot idx s
  | .sealOffer ctx => Sys2Proof.Machine.execSealOffer ctx s
  | .sealJoin ctx idx => Sys2Proof.Machine.execSealJoin ctx idx s
  | .sealRights ctx => Sys2Proof.Machine.execSealRights ctx s
  | .sealLeave ctx => Sys2Proof.Machine.execSealLeave ctx s
  | .sealRekey ctx => Sys2Proof.Machine.execSealRekey ctx s
  | .sealImport ctx plain => Sys2Proof.Machine.execSealImport ctx plain s
  | .sealExport ctx sealed => Sys2Proof.Machine.execSealExport ctx sealed s
  | .loftSetFormat ctx => Sys2Proof.Machine.execLoftSetFormat ctx s
  | .loftFormatApply ctx => Sys2Proof.Machine.execLoftFormatApply ctx s
  | .napExpiry ctx => Sys2Proof.Machine.execNapExpiry ctx s
  | .pageWalk tile k => Sys2Proof.Machine.execPageWalk tile k s
  | .pageRequest tile k => Sys2Proof.Machine.execPageRequest tile k s
  | .pageGrant entry ptes => Sys2Proof.Machine.execPageGrant entry ptes s
  | .pageRequestFail entry => Sys2Proof.Machine.execPageRequestFail entry s
  | .pageRequestTimeout entry => Sys2Proof.Machine.execPageRequestTimeout entry s
  | .rewalkReport entry tile => Sys2Proof.Machine.execRewalkReport entry tile s
  | .portWake tile part idx page => Sys2Proof.Machine.execPortWake tile part idx page s
  | .wakeHoldExpiry tile => Sys2Proof.Machine.execWakeHoldExpiry tile s
  | .shootdown k => Sys2Proof.Machine.execShootdown k s
  | .shootdownAck tile => Sys2Proof.Machine.execShootdownAck tile s
  | .arriveLoad k => Sys2Proof.Machine.execArriveLoad k s
  | .arriveStore k => Sys2Proof.Machine.execArriveStore k s
  | .arriveWf k => Sys2Proof.Machine.execArriveWf k s
  | .arriveWfc k => Sys2Proof.Machine.execArriveWfc k s
  | .arriveWe k => Sys2Proof.Machine.execArriveWe k s
  | .arriveSf k => Sys2Proof.Machine.execArriveSf k s
  | .arrivePset k => Sys2Proof.Machine.execArrivePset k s
  | .arrivePclr k => Sys2Proof.Machine.execArrivePclr k s
  | .arriveHelp k => Sys2Proof.Machine.execArriveHelp k s
  | .arriveProbe k => Sys2Proof.Machine.execArriveProbe k s
  | .arrivePget k => Sys2Proof.Machine.execArrivePget k s
  | .arriveWatch k => Sys2Proof.Machine.execArriveWatch k s
  | .arriveUnwatch k => Sys2Proof.Machine.execArriveUnwatch k s
  | .arriveAmo k => Sys2Proof.Machine.execArriveAmo k s
  | .arriveRdxAdd k => Sys2Proof.Machine.execArriveRdxAdd k s
  | .rdxSlotRead k tile => Sys2Proof.Machine.execRdxSlotRead k tile s
  | .rdxSum k => Sys2Proof.Machine.execRdxSum k s
  | .refusalRetry k => Sys2Proof.Machine.execRefusalRetry k s
  | .deadlineCheck => Sys2Proof.Machine.execDeadlineCheck s
  | .cancel ctx => Sys2Proof.Machine.execCancel ctx s
  | .reply k => Sys2Proof.Machine.execReply k s
  | .quarantineLift k => Sys2Proof.Machine.execQuarantineLift k s
  | .rekeySweepLine slot => Sys2Proof.Machine.execRekeySweepLine slot s
  | .rekeyComplete slot => Sys2Proof.Machine.execRekeyComplete slot s
  | .keyErase slot => Sys2Proof.Machine.execKeyErase slot s
  | .matrixStart tile => Sys2Proof.Machine.execMatrixStart tile s
  | .matrixComplete tile => Sys2Proof.Machine.execMatrixComplete tile s
  | .staleCommand tile => Sys2Proof.Machine.execStaleCommand tile s
  | .awaitTimeout ctx => Sys2Proof.Machine.execAwaitTimeout ctx s
  | .drainRun tile => Sys2Proof.Machine.execDrainRun tile s
  | .copyStart tile => Sys2Proof.Machine.execCopyStart tile s
  | .copyElement tile k => Sys2Proof.Machine.execCopyElement tile k s
  | .copyComplete tile k => Sys2Proof.Machine.execCopyComplete tile k s
  | .followOnReady tile k dst => Sys2Proof.Machine.execFollowOnReady tile k dst s
  | .copyResume tile k => Sys2Proof.Machine.execCopyResume tile k s
  | .pop ctx => Sys2Proof.Machine.execPop ctx s
  | .frameStart k => Sys2Proof.Machine.execFrameStart k s
  | .stealAttempt ctx => Sys2Proof.Machine.execStealAttempt ctx s
  | .stealAnswer ctx => Sys2Proof.Machine.execStealAnswer ctx s
  | .stealBackoff tile part => Sys2Proof.Machine.execStealBackoff tile part s
  | .stateMark k => Sys2Proof.Machine.execStateMark k s
  | .helpProcedure ctx => Sys2Proof.Machine.execHelpProcedure ctx s
  | .spawnRelease k => Sys2Proof.Machine.execSpawnRelease k s
  | .dequeReserve k => Sys2Proof.Machine.execDequeReserve k s
  | .messageArrive k => Sys2Proof.Machine.execMessageArrive k s
  | .handlerStart ctx => Sys2Proof.Machine.execHandlerStart ctx s
  | .mailboxArrive k => Sys2Proof.Machine.execMailboxArrive k s
  | .gangMemberStart k => Sys2Proof.Machine.execGangMemberStart k s
  | .barrierReport k => Sys2Proof.Machine.execBarrierReport k s
  | .barrierRelease k => Sys2Proof.Machine.execBarrierRelease k s
  | .slotRotation part tenant => Sys2Proof.Machine.execSlotRotation part tenant s
  | .slotSwap ctx => Sys2Proof.Machine.execSlotSwap ctx s
  | .loftHandover tile part => Sys2Proof.Machine.execLoftHandover tile part s
  | .launchAcquire fn => Sys2Proof.Machine.execLaunchAcquire fn s
  | .launchDone k => Sys2Proof.Machine.execLaunchDone k s
  | .operatingPointChange tile point => Sys2Proof.Machine.execOperatingPointChange tile point s
  | .powerThrottle point => Sys2Proof.Machine.execPowerThrottle point s
  | .thermalThrottle point => Sys2Proof.Machine.execThermalThrottle point s
  | .thermalReset => Sys2Proof.Machine.execThermalReset s
  | .contextStateError ctx => Sys2Proof.Machine.execContextStateError ctx s
  | .engineOutOfService tile copy => Sys2Proof.Machine.execEngineOutOfService tile copy s
  | .dramParityAlert tile bank index lines => Sys2Proof.Machine.execDramParityAlert tile bank index lines s
  | .sparingStart tile bank => Sys2Proof.Machine.execSparingStart tile bank s
  | .sparingRowCopy tile => Sys2Proof.Machine.execSparingRowCopy tile s
  | .bankRetire tile bank => Sys2Proof.Machine.execBankRetire tile bank s
  | .flitResend link fails => Sys2Proof.Machine.execFlitResend link fails s
  | .endToEndResend k => Sys2Proof.Machine.execEndToEndResend k s
  | .channelRetire chan => Sys2Proof.Machine.execChannelRetire chan s
  | .heartbeatSend tile => Sys2Proof.Machine.execHeartbeatSend tile s
  | .heartbeatReceive tile j intact => Sys2Proof.Machine.execHeartbeatReceive tile j intact s
  | .judgement tile crowd => Sys2Proof.Machine.execJudgement tile crowd s
  | .fence tile => Sys2Proof.Machine.execFence tile s
  | .frameRecovery tile => Sys2Proof.Machine.execFrameRecovery tile s
  | .selfTestEnd tile passed => Sys2Proof.Machine.execSelfTestEnd tile passed s
  | .bar2PlainWrite fn off width value => Sys2Proof.Machine.execBar2PlainWrite fn off width value s
  | .bar2PlainRead fn off width => Sys2Proof.Machine.execBar2PlainRead fn off width s
  | .bar2FillWrite fn off width value => Sys2Proof.Machine.execBar2FillWrite fn off width value s
  | .bar2StatusRead fn off => Sys2Proof.Machine.execBar2StatusRead fn off s
  | .bar2ReservedAlias fn off write => Sys2Proof.Machine.execBar2ReservedAlias fn off write s
  | .mgmtRegisterWrite master fn off value => Sys2Proof.Machine.execMgmtRegisterWrite master fn off value s
  | .rmownClaim master => Sys2Proof.Machine.execRmownClaim master s
  | .rmownHandover master target => Sys2Proof.Machine.execRmownHandover master target s
  | .rmownAccept master => Sys2Proof.Machine.execRmownAccept master s
  | .rmownCancel master => Sys2Proof.Machine.execRmownCancel master s
  | .handoverTimeout => Sys2Proof.Machine.execHandoverTimeout s
  | .i3cHeartbeat => Sys2Proof.Machine.execI3cHeartbeat s
  | .ownerLost => Sys2Proof.Machine.execOwnerLost s
  | .ownerReturn => Sys2Proof.Machine.execOwnerReturn s
  | .electionTimeout => Sys2Proof.Machine.execElectionTimeout s
  | .vfbindWrite master vf value => Sys2Proof.Machine.execVfbindWrite master vf value s
  | .vfEnableClear link => Sys2Proof.Machine.execVfEnableClear link s
  | .attestation part => Sys2Proof.Machine.execAttestation part s
  | .eqheadWrite fn value => Sys2Proof.Machine.execEqheadWrite fn value s
  | .errorRecordWrite => Sys2Proof.Machine.execErrorRecordWrite s
  | .icoalTimer fn vec => Sys2Proof.Machine.execIcoalTimer fn vec s
  | .msixUnmask fn vec => Sys2Proof.Machine.execMsixUnmask fn vec s
  | .firmwareBoot accepted => Sys2Proof.Machine.execFirmwareBoot accepted s
  | .powerOn => Sys2Proof.Machine.execPowerOn s
  | .pcieFundamentalReset link => Sys2Proof.Machine.execPcieFundamentalReset link s
  | .ownerResetRequest master => Sys2Proof.Machine.execOwnerResetRequest master s
  | .mcResetRequest => Sys2Proof.Machine.execMcResetRequest s
  | .supplyFault => Sys2Proof.Machine.execSupplyFault s
  | .firmwareWatchdog => Sys2Proof.Machine.execFirmwareWatchdog s
  | .tileReset tile cause => Sys2Proof.Machine.execTileReset tile cause s
  | .bufferEntryFetch tile k => Sys2Proof.Machine.execBufferEntryFetch tile k s
  | .engineSelfTestEnd tile => Sys2Proof.Machine.execEngineSelfTestEnd tile s
  | .vfEnableSet link => Sys2Proof.Machine.execVfEnableSet link s

end Sys2Proof.Machine
end

