-- ==== Sys2Proof/Machine/Auto.lean ====
section
/-! DEFINITION. Which event of its own a package takes next when nothing from outside comes first (log 3): the candidates, named
from the state, and the choice of the first one that has an effect. Every event checks by itself whether it is due. -/

namespace Sys2Proof.Machine

open Sys2Proof (Word Byte Elem Instr)

/-- Tiles in which something stands or has happened. -/
def State.busyTiles (s : State) : List Nat :=
  (s.tiles.map (fun x => x.1) ++ s.ctxs.map (fun x => tileOf x.1)).eraseDups

/-- The events of Carousel (R151). -/
noncomputable def State.carouselSteps (s : State) : List Instr := s.busyTiles.map (fun t => Instr.carouselIssue t)

/-- What a reference in flight does next (R62, R109, R249, R251). -/
noncomputable def refStep (k : Nat) (r : Req) : List Instr :=
  match r.op with
  | .load _ _ => [.arriveLoad k]
  | .store _ => [.arriveStore k]
  | .rowLoad _ => [.arriveLoad k]
  | .rowStore _ => [.arriveStore k]
  | .wf => [.arriveWf k]
  | .wfc => [.arriveWfc k]
  | .we => [.arriveWe k]
  | .sf => [.arriveSf k]
  | .pset => [.arrivePset k]
  | .pclr => [.arrivePclr k]
  | .help _ => [.arriveHelp k]
  | .probe => [.arriveProbe k]
  | .pget => [.arrivePget k]
  | .watch _ => [.arriveWatch k]
  | .unwatch => [.arriveUnwatch k]
  | .amo _ _ => [.arriveAmo k]
  | .claim => [.arriveAmo k]
  | .rdxAdd => [.arriveRdxAdd k]
  | .rdxRead => (List.range 1024).map (fun t => Instr.rdxSlotRead k t) ++ [.rdxSum k]
  | .mailbox _ => [.mailboxArrive k]
  | .spawn _ _ _ => [.dequeReserve k, .spawnRelease k]
  | .arrive _ _ => [.barrierReport k]

/-- References, answers, messages, marks and releases in flight. -/
noncomputable def State.trafficSteps (s : State) : List Instr :=
  (s.net.zipIdx.flatMap (fun x => refStep x.2 x.1))
    ++ ((List.range s.replies.length).flatMap (fun k => [Instr.frameStart k, Instr.reply k]))
    ++ ((List.range s.msgs.length).flatMap (fun k => [Instr.shootdown k, Instr.messageArrive k]))
    ++ ((List.range s.marks.length).map (fun k => Instr.stateMark k))
    ++ ((List.range s.releases.length).map (fun k => Instr.barrierRelease k))
    ++ ((List.range (s.refused.length + s.refusedMsgs.length)).map (fun k => Instr.refusalRetry k))

/-- The event of an access that waits. -/
noncomputable def barStep (w : BarWait) : Instr :=
  match w.ev with
  | .plainWrite off width value => .bar2PlainWrite w.fn off width value
  | .plainRead off width => .bar2PlainRead w.fn off width
  | .fillWrite off width value => .bar2FillWrite w.fn off width value
  | .statusRead off => .bar2StatusRead w.fn off

/-- Accesses of hosts that wait, the ports and the page-request unit (R35, R45, R54, R60, R356). -/
noncomputable def State.portSteps (s : State) : List Instr :=
  (s.barWaits.map barStep) ++ (s.busyTiles.flatMap (fun t =>
    ((List.range (s.tileAt t).fetches.length).map (fun k => Instr.bufferEntryFetch t k))
      ++ ((List.range (s.tileAt t).walks.length).map (fun k => Instr.pageWalk t k))
      ++ ((List.range (s.tileAt t).faults.length).map (fun k => Instr.pageRequest t k))
      ++ [Instr.shootdownAck t, Instr.wakeHoldExpiry t]))
    ++ (s.pageReqs.flatMap (fun q =>
      q.ports.flatMap (fun t =>
        (if q.granted && !q.woken.contains t then [Instr.portWake t q.part q.idx q.page] else []) ++ [Instr.rewalkReport q.num t])
      ++ [Instr.pageRequestTimeout q.num]))

/-- A popped entry that waits for a page goes on (R54). -/
noncomputable def popSteps (id : Nat) (c : Ctx) : List Instr :=
  match c.st with
  | .blocked (.claiming _ false) => [.pop id]
  | _ => []

/-- A context by itself, and the firmware services it calls (R163, R318, R320, R321). -/
noncomputable def State.contextSteps (s : State) : List Instr :=
  s.ctxs.flatMap (fun x =>
    [Instr.helpProcedure x.1, Instr.escalation x.1, Instr.napExpiry x.1, Instr.awaitTimeout x.1, Instr.serviceCall x.1,
      Instr.loftSetFormat x.1, Instr.loftFormatApply x.1, Instr.sealOffer x.1, Instr.sealRights x.1, Instr.sealLeave x.1,
      Instr.sealRekey x.1, Instr.stealAnswer x.1] ++ popSteps x.1 x.2)

/-- The deque unit and the inbox of a tile give work to IDLE slots (R159, R160, R247). -/
noncomputable def State.slotSteps (s : State) : List Instr :=
  s.busyTiles.flatMap (fun t =>
    ((List.range 17).flatMap (fun p =>
      match s.idleOf t p with
      | some sl => [Instr.handlerStart (ctxId t sl), Instr.pop (ctxId t sl)]
      | none => []))
    ++ ((List.range 17).flatMap (fun p =>
      match s.idleOf t p with
      | some sl => [Instr.stealAttempt (ctxId t sl)]
      | none => []))
    ++ ((List.range 17).map (fun p => Instr.stealBackoff t p)))

/-- The engines (R281, R288, R300, R303). -/
noncomputable def State.engineSteps (s : State) : List Instr :=
  s.busyTiles.flatMap (fun t =>
    [Instr.staleCommand t, Instr.matrixComplete t, Instr.matrixStart t, Instr.drainRun t, Instr.copyStart t]
    ++ ((List.range (s.tileAt t).cq.length).flatMap (fun k =>
      [Instr.copyElement t k, Instr.copyResume t k]
        ++ ((List.range 1024).map (fun dst => Instr.followOnReady t k dst))
        ++ [Instr.copyComplete t k])))

/-- The launcher, rotation, the seal services' background work, sparing, error records and deadlines (R70, R125, R175, R364). -/
noncomputable def State.packageSteps (s : State) : List Instr :=
  [Instr.errorRecordWrite]
    ++ ((List.range s.launches.length).flatMap (fun k => [Instr.gangMemberStart k, Instr.launchDone k]))
    ++ (s.fns.map (fun x => Instr.launchAcquire x.1))
    ++ (s.fns.flatMap (fun x => x.2.pending.map (fun v => Instr.icoalTimer x.1 v.1)))
    ++ (s.rotations.flatMap (fun r =>
      r.left.flatMap (fun id => [Instr.cancel id, Instr.slotSwap id]) ++ r.tiles.map (fun t => Instr.loftHandover t r.part)))
    ++ (s.rekeys.flatMap (fun r => [Instr.rekeySweepLine r.slot, Instr.rekeyComplete r.slot]))
    ++ (s.kslot.map (fun x => Instr.keyErase x.1))
    ++ (s.spares.map (fun x => Instr.sparingRowCopy x.1))
    ++ [Instr.handoverTimeout, Instr.electionTimeout]

/-- A fenced tile's frames are recovered, a self-test that has not passed in its time has failed, and a house slot's fault resets its tile
(R348, R352, R318). -/
noncomputable def State.herdSteps (s : State) : List Instr :=
  s.busyTiles.flatMap (fun t =>
    [Instr.frameRecovery t] ++ (if s.testOver t then [Instr.selfTestEnd t false] else [])
      ++ (if s.houseFault t then [Instr.tileReset t 8] else []))

/-- Every candidate; the clock says which kind is looked at first, so that no kind waits for ever. -/
noncomputable def State.ownSteps (s : State) : List Instr :=
  (s.trafficSteps ++ s.portSteps ++ s.contextSteps ++ s.slotSteps ++ s.engineSteps ++ s.herdSteps ++ s.packageSteps).rotateLeft s.cycle.toNat

/-- Does the event have an effect here? -/
noncomputable def State.stirs (s : State) (i : Instr) : Bool :=
  match exec i s with
  | .next t => decide (t ≠ s)
  | .fault _ => true
  | .refused _ => true

/-- What is still to happen in this cycle: Carousel's choice in a tile that has not issued in it, and at its end the deadlines that it
brings (R70). -/
noncomputable def State.nextInCycle (s : State) : Option Instr := (s.carouselSteps ++ [Instr.deadlineCheck]).find? s.stirs

/-- The package's own next event, if there is one. -/
noncomputable def State.nextOwn (s : State) : Option Instr := s.ownSteps.find? s.stirs

end Sys2Proof.Machine
end

