-- ==== Sys2Proof/Machine/Fetch.lean ====
section
/-! DEFINITION. Fetching and decoding (R178 to R180, R189): the bytes at the program counter of the issuing context, from the code
banks of its tile. -/

namespace Sys2Proof.Machine

open Sys2Proof

/-- What a fetch of the halfword at `d` may return: what it holds, and what it has held since the last ifence of the context (R111). -/
def State.codeVersions (s : State) (d : Nat) : List Nat :=
  readBytes s.mem d 2 :: ((s.codeOld.drop s.me.fenced).filter (fun x => x.1 == d)).reverse.map (fun x => x.2)

/-- The version that half `h` of an instruction comes from, where there are several: a free choice (log 36). -/
def State.fetchCode (s : State) (d h : Nat) : Nat :=
  match s.codeVersions d with
  | [] => 0
  | [v] => v
  | v :: vs =>
    (v :: vs).getD (Sys2Proof.Config.oldFetch ((s.cycle.toNat * 1024 + tileOf s.cur) * 2 + h) % (vs.length + 1)) v

/-- One halfword: the offset lies in the code banks, and the partition owns the code segment that holds it, house too (R81, R180). -/
def State.fetchHalf (s : State) (at_ : Word) (h : Nat) : Except (Nat × Word) Nat :=
  let tile := tileOf s.cur
  if 0x40000 ≤ ptrOff at_ then .error (cLOFT_BOUNDS, at_)
  else if (s.tileAt tile).lownAt (lownEntry (ptrOff at_)) = s.partOf s.cur ∧ s.partOf s.cur ≤ 16 then .ok (s.fetchCode (s.loftDpa tile (ptrOff at_)) h)
  else .error (cRIGHTS, at_)

/-- The word of a halfword crosses the bond (R94). -/
def State.openHalf (s : State) (at_ : Word) (h : Nat) : State :=
  match s.fetchHalf at_ h with
  | .error _ => s
  | .ok _ =>
    s.openBond
      { id := 0, src := tileOf s.cur, slot := 512, op := .load 8 false, dpa := s.loftDpa (tileOf s.cur) (ptrOff at_), ptr := at_
        tenant := s.me.tenant.toNat, part := s.partOf s.cur }

/-- Does the halfword begin a 32-bit instruction (R189)? -/
def long (h : Nat) : Bool := decide (h / 2 ^ 15 ≠ 0)

/-- The words that the fetch needs have crossed the bond. -/
def State.openFetch (s : State) : State :=
  let s := s.openHalf s.me.pc 0
  match s.fetchHalf s.me.pc 0 with
  | .error _ => s
  | .ok h0 => if long h0 then s.openHalf (s.me.pc + 2) 1 else s

/-- What a fetch answers: the halfword or word of an instruction, or the trap's cause and c.tval. -/
def State.fetch (s : State) : Except (Nat × Word) Nat :=
  let pc := s.me.pc
  match s.fetchHalf pc 0 with
  | .error x => .error x
  | .ok h0 =>
    if long h0 then
      match s.fetchHalf (pc + 2) 1 with
      | .error x => .error x
      | .ok h1 => .ok (h0 + h1 * 2 ^ 16)
    else .ok h0

/-- Fetch and Decode (R189): an instruction, or a trap's cause and c.tval. -/
noncomputable def State.fetchDecode (s : State) : Except (Nat × Word) Instr :=
  match s.fetch with
  | .error x => .error x
  | .ok w =>
    match decode w with
    | .ok i => .ok i
    | .error _ => .error (cILLEGAL_OP, wd w)

/-- May the context that Carousel chose issue now? -/
def State.mayIssue (s : State) : Bool :=
  s.issuing && decide (s.me.st = .ready) && s.myTile.clocked

end Sys2Proof.Machine
end

