-- ==== Sys2Proof/Machine/Outside.lean ====
section
/-! DEFINITION. What happens to the package from outside that no instruction and no event of the opcode table names: failures of the
hardware, and what hosts, firmware and the domain do (log 3, log 47). -/

namespace Sys2Proof.Machine

open Sys2Proof

/-- A data line of the package's vaults. -/
def State.vaultLine (s : State) (d : Nat) : Bool := !dpaLoft d && dpaLegal d && dpaPkg d == s.package.toNat

/-- A line fails ECC, or its MAC, when it is next referenced (R75, R122). -/
def State.lineFails (s : State) (d : Nat) (mac : Bool) : State :=
  if s.vaultLine d then { s with badLines := s.badLines ++ [(lineOf d, mac)] } else s

/-- A counter line fails its MAC when it is next fetched (R123). -/
def State.counterFails (s : State) (tile bank lvl idx : Nat) : State :=
  if tile < 1024 ∧ bank < 32 ∧ 1 ≤ lvl ∧ lvl ≤ 5 then { s with badCounters := s.badCounters ++ [(tile, bank, lvl, idx)] } else s

/-- The next bond transfer that carries a loft word fails for good (R94). -/
def State.bondFails (s : State) (d : Nat) : State :=
  if dpaLoft d && dpaLegal d && dpaPkg d == s.package.toNat then { s with badBonds := s.badBonds ++ [(wordOf d, 0xFFFF, 16, 0)] } else s

/-- An uncorrectable error in an accumulator element poisons it and keeps its value bits (R330). No record is posted: R2 asks one for every
detected failure, and R376 lists no code for this one (DESIGN CHOICE, log 47). -/
def State.elementFails (s : State) (tile key : Nat) : State :=
  let t := s.tileAt tile
  let x : Elem × Bool := Map.get (fun _ => (0, false)) t.acc key
  if tile < 1024 ∧ key < 16 * 64 * 64 ∧ t.running = true then
    s.setTileAt tile { t with acc := Map.set (fun _ => (0, false)) t.acc key (x.1, true) }
  else s

/-- What its tile's herd unit is told. -/
def State.tellHerd (s : State) (tile : Nat) (f : Herd → Herd) : State :=
  if tile < 1024 then s.setHerd tile (f (s.herd tile)) else s

/-- What a turn that is neither the package's own nor an event does. -/
def State.outside (s : State) : Turn → State
  | .own => s
  | .event _ => s
  | .lineFails d mac => s.lineFails d mac
  | .counterFails tile bank lvl idx => s.counterFails tile bank lvl idx
  | .corrected tile bank => s.correctedError tile bank
  | .bondFails d => s.bondFails d
  | .elementFails tile key => s.elementFails tile key
  | .computeHangs tile on => s.tellHerd tile (fun h => { h with hung := on })
  | .routerSilent tile on => s.tellHerd tile (fun h => { h with silent := on })
  | .domainHas pkg is_ => { s with members := Map.set (fun _ => false) s.members pkg is_ }
  | .houseTable btab => { s with houseBtab := btab }
  | .hostJoins slot fn idx => s.hostJoin slot fn idx
  | .hostLeaves slot fn => s.hostLeave slot fn
  | .imageBuffer tenant idx size rights region base paged words => s.createBuffer tenant idx size rights region base paged words
  | .pageMoves tenant idx page addr => s.migratePage tenant idx page addr
  | .mgmtReads master fn off => s.mgmtRead master fn off
  | .copyReads tile k => s.copyAhead tile k
  | .copyWrites tile k home => s.copyBehind tile k home
  | .imageStored x => s.storeImage x
  | .rollbackStored n => { s with rollback := n }
  | .reportAsked part nonce => s.report part nonce
  | .tenantReady tenant btab root image => s.prepare tenant btab root image

end Sys2Proof.Machine
end

