-- ==== Sys2Proof/Machine/Step.lean ====
section
/-! DEFINITION. One step of the package (log 3): the instruction that Carousel has chosen runs; else the next turn of the agenda;
else Carousel chooses, or an event of the package's own happens, or a cycle of the reference clock passes. -/

namespace Sys2Proof.Machine

open Sys2Proof (Word Byte Elem Instr)

/-- The chosen context's instruction is fetched, decoded and run, or its fetch traps (R189). A context that can no longer issue
does nothing. -/
noncomputable def State.issueNow (s : State) : Host.Outcome State Fault Refusal :=
  if s.mayIssue then
    let s := s.openFetch
    match s.fetchDecode with
    | .ok i => exec i { s with issuing := false }
    | .error x => ({ s with issuing := false } : State).trap x.1 x.2
  else .next { s with issuing := false }

/-- The package goes on by itself: within a cycle, Carousel's choices come first and the banks' look at their deadlines last (R70). -/
noncomputable def State.goOn (s : State) : Host.Outcome State Fault Refusal :=
  match s.nextInCycle with
  | some i => exec i s
  | none =>
    match s.tick.nextOwn with
    | some i => exec i s.tick
    | none => .next s.tick

/-- A turn that the agenda names. Only Carousel issues instructions. -/
noncomputable def State.take (s : State) (x : Turn) : Host.Outcome State Fault Refusal :=
  match x with
  | .own => s.goOn
  | .event i => if i.isInstruction then .next s else exec i s
  | x => .next (s.outside x)

noncomputable def step (s : State) : Host.Outcome State Fault Refusal :=
  if s.issuing then s.issueNow
  else
    match s.agenda with
    | x :: rest => ({ s with agenda := rest } : State).take x
    | [] => s.goOn

/-- `s` about to run, in house slot 504 of tile 0, the instruction whose bits are `w`: it stands at the start of the code banks
(log 6). -/
def State.withFetchWord (s : State) (nbits w : Nat) : State :=
  let t := s.tileAt 0
  let s := s.setTileAt 0 { t with point := .n, herd := { t.herd with fenced := false } }
  let id := ctxId 0 504
  let s := s.setCtxAt id { s.ctxAt id with st := .ready, pc := codeBase }
  { s with
    agenda := [], cur := id, issuing := true
    mem := writeBytes s.mem (s.loftDpa 0 0) 4 (w % 2 ^ nbits) }

end Sys2Proof.Machine
end

