-- ==== Sys2Proof/Safety.lean ====
section
/-! DEFINITION. What claims about the machine are stated in: a safe run, the invariant of a state, and the terms in which a
statement names the conditions and the effect of an instruction. -/

namespace Sys2Proof.Machine

open Sys2Proof

/-- A run of `n` steps that neither faults nor is refused. -/
def runsFor : Nat → State → Prop
  | 0, _ => True
  | n + 1, s => ∃ t, step s = .next t ∧ runsFor n t

/-- A safe state: the package goes on for ever. -/
def State.safe (s : State) : Prop := ∀ n, runsFor n s

/-- Memory and tags are in canonical form. -/
def State.memoryOk (s : State) : Bool := Memory.wf s.mem && Map.wf (fun _ => ({} : Tag)) s.tags

/-! ### Conditions -/

/-- None of the registers awaits a load (R202). -/
def State.there (s : State) (keys : List Nat) : Bool := !s.me.awaiting keys

/-- g[r] of the issuing context, its value and its poison. -/
def State.gv (s : State) (r : BitVec 5) : Word := (s.me.getG r.toNat).v
def State.gp (s : State) (r : BitVec 5) : Bool := (s.me.getG r.toNat).p

/-- The checks of R32 with what the port of the tile has cached, or has fetched for this context (R35, R47, R48): where the reference
goes, and the state with the translation it used as the most recently used one. None where a check fails or something is missing. -/
def State.passes (s : State) (ptr : Word) (width : Nat) (need : Need) : Option (Target × State) :=
  if 4096 ≤ s.outstanding (tileOf s.cur) then none
  else
    match s.xlateFront (tileOf s.cur) (s.partOf s.cur) ptr width with
    | .error (.to x) => some (x, s)
    | .error _ => none
    | .ok idx =>
      match s.entryFor idx with
      | none => none
      | some b =>
        match s.xlateEntry b.ent s.me.tenant.toNat (ptrOff ptr) width need with
        | .error _ => none
        | .ok (some ra) => some (s.targetOf b.ent ra, s)
        | .ok none =>
          match s.transFor idx b.ent.gen (ptrOff ptr) with
          | none => none
          | some c =>
            if c.nw && need.writes then none
            else some (s.targetOf b.ent (c.addr + ptrOff ptr % pageBytes c.level), s.touched c)

/-- Does the context's partition own the code segment that the pointer lies in, house too (R81, R180)? -/
def State.ownsCode (s : State) (p : Word) : Bool :=
  decide (s.myTile.lownAt (lownEntry (ptrOff p)) = s.partOf s.cur) && decide (s.partOf s.cur ≤ 16)

/-- The same for consecutive words, each in the state that the one before it leaves. -/
def State.passesAll (s : State) (need : Need) : List Word → Option (List (Word × Target) × State)
  | [] => some ([], s)
  | p :: ps =>
    match s.passes p 8 need with
    | none => none
    | some (t, s') =>
      match s'.passesAll need ps with
      | none => none
      | some (ts, s'') => some ((p, t) :: ts, s'')

/-- A completion pointer (R299): g0 for none, and else one that is clean and passes as an 8-byte reference that needs W and S. -/
def State.doneOk (s : State) (b : BitVec 5) : Option (Option Word × State) :=
  if b = 0 then some (none, s)
  else if s.gp b then none
  else
    match s.passes (s.gv b) 8 needWS with
    | none => none
    | some (_, t) => some (some (s.gv b), t)

/-- May an instruction that uses the rows run: bound, owned, no command of the matrix queue on the accumulator (R260, R263), and no
vld still to write one of the rows (R273)? -/
def State.rowReady (s : State) (rows : List Nat) : Bool :=
  decide (16 ≤ s.me.abind.toNat) && s.ownsMatrix && !s.myTile.queuedAcc (s.me.abind.toNat % 16)
    && !s.myTile.loadingRow (s.me.abind.toNat % 16) rows

/-- The accumulator that the context is bound to. -/
def State.boundAcc (s : State) : Nat := s.me.abind.toNat % 16

/-- Every line can be read (R75, R94, R122, R123). -/
def State.readsWell (s : State) : Bool :=
  s.badLines.isEmpty && s.badCounters.isEmpty && s.badBonds.isEmpty && s.quarantines.isEmpty

/-- Does the reference open the line of its word: it needs no key, or names the one that the line is sealed under (R109, R112)? -/
def State.opens (s : State) (r : Req) : Bool :=
  dpaLoft r.dpa || s.lineFresh (lineOf r.dpa) || s.lineKey (lineOf r.dpa) == 0 || s.keyOpens (lineOf r.dpa) r.owner

/-- Request `r`, at position `k` of those in flight, may be performed now, at a word that stands in a running tile, reads well and opens
under the key that the request names. -/
def State.arrives (s : State) (k : Nat) (r : Req) : Prop :=
  s.net[k]? = some r ∧ s.mayArrive k r = true ∧ dpaLegal r.dpa = true ∧
    (dpaLoft r.dpa = true → (s.tileAt (dpaTile r.dpa)).running = true) ∧ s.readsWell = true ∧ s.retiredAt r.dpa = false ∧
    s.draining r.owner = false ∧ s.opens r = true

/-- No parked reference waits for the word. -/
def State.alone (s : State) (d : Nat) : Prop := ∀ w ∈ s.waits, wordOf w.req.dpa ≠ wordOf d

/-! ### Effects -/

/-- The state once request `k` is taken from those in flight, its bank having admitted it in this cycle (R65). -/
def State.taken (s : State) (k : Nat) : State :=
  match s.net[k]? with
  | none => s
  | some r => { s with net := s.net.eraseIdx k }.noteServed r.dpa r.rank

/-- No register of any context differs. -/
def State.sameRegisters (s t : State) : Prop :=
  ∀ id n, (t.ctxAt id).getG n = (s.ctxAt id).getG n ∧ (t.ctxAt id).getE n = (s.ctxAt id).getE n

/-- Every byte outside `n` bytes at `d` reads as before. -/
def State.sameOutside (s t : State) (d n : Nat) : Prop :=
  ∀ x, x < d ∨ d + n ≤ x → readByte t.mem x = readByte s.mem x

/-- The state after an instruction of `len` bytes that writes only g[d]. -/
def State.wrote (s : State) (d : BitVec 5) (v : Word) (p : Bool) (len : Nat) : State :=
  s.setMe ((s.me.setG d.toNat ⟨v, p⟩).advance len)

/-- The state after a non-blocking reference has left: its destination awaits it (R96). -/
def State.sent (s : State) (r : Req) : State :=
  ({ s.bumpId with net := s.net ++ [r] } : State).setMe ((s.me.expect r.dest r.id).advance r.len)

/-- The state after a blocking reference has left (R96). -/
def State.sentBlocking (s : State) (r : Req) : State :=
  ({ s.bumpId with net := s.net ++ [{ r with blocking := true }] } : State).setMe
    { s.me with st := .blocked (.ref r.id), wait := some r }

/-- The state after several references have left together. -/
def State.sentAll (s : State) (rs : List Req) (len : Nat) : State :=
  ({ s with net := s.net ++ rs, fresh := s.fresh + rs.length } : State).setMe
    ((rs.foldl (fun (c : Ctx) (r : Req) => c.expect r.dest r.id) s.me).advance len)

/-- The context goes on after an instruction that changed the tile only. -/
def State.withTile (s : State) (t : Tile) : State := (s.setMyTile t).setMe (s.me.advance 4)

/-- The context waits, and issues the same instruction again (R147). -/
def State.waiting (s : State) : State := s.setMe (s.me.block .retry)

/-- The state after a transfer of control by a context that has become `c`. -/
def State.jumped (s : State) (c : Ctx) (target : Word) : State := s.setMe { c with pc := target }

/-- A row of the bound accumulator written lane by lane, poisoned where an operand is (R274): from two rows, one, or three. -/
def State.rowSet2 (s : State) (d a b : BitVec 6) (f : Nat → Nat → Nat) : State :=
  s.withTile (s.myTile.setRow s.boundAcc d.toNat fun i =>
    let x := s.myTile.lane s.boundAcc a.toNat i
    let y := s.myTile.lane s.boundAcc b.toNat i
    (el (f x.1.toNat y.1.toNat), x.2 || y.2))

def State.rowSet1 (s : State) (d a : BitVec 6) (f : Nat → Nat) : State :=
  s.withTile (s.myTile.setRow s.boundAcc d.toNat fun i =>
    let x := s.myTile.lane s.boundAcc a.toNat i
    (el (f x.1.toNat), x.2))

def State.rowSet3 (s : State) (d a b : BitVec 6) (f : Nat → Nat → Nat → Nat) : State :=
  s.withTile (s.myTile.setRow s.boundAcc d.toNat fun i =>
    let x := s.myTile.lane s.boundAcc a.toNat i
    let y := s.myTile.lane s.boundAcc b.toNat i
    let z := s.myTile.lane s.boundAcc d.toNat i
    (el (f x.1.toNat y.1.toNat z.1.toNat), x.2 || y.2 || z.2))

/-- The same value in every lane. -/
def State.rowFill (s : State) (d : BitVec 6) (v : Nat) (p : Bool) : State :=
  s.withTile (s.myTile.setRow s.boundAcc d.toNat fun _ => (el v, p))

/-- Nothing differs but the contexts, and of them only the issuing one. -/
def State.onlyMe (s t : State) : Prop :=
  t = { s with ctxs := t.ctxs } ∧ ∀ id, id ≠ s.cur → t.ctxAt id = s.ctxAt id

/-! ### Firmware services -/

/-- Function `f` of service `n` is called by a context that waits for it and for no page, in a tile whose units move. -/
def State.calls (s : State) (ctx n f : Nat) : Prop :=
  (s.ctxAt ctx).st = .blocked (.service n) ∧ ((s.ctxAt ctx).getG 4).v.toNat = f ∧ (s.tileAt (tileOf ctx)).clocked = true ∧
    Hold.waiting (s.ctxAt ctx).hold = false ∧ Hold.lost (s.ctxAt ctx).hold = false

/-- The call as the seal service sees it. -/
def State.callOf (s : State) (ctx : Nat) : SealCall :=
  let c := s.ctxAt ctx
  { g5 := (c.getG 5).v, g6 := (c.getG 6).v, g7 := (c.getG 7).v, tile := tileOf ctx, part := s.partOf ctx
    tenant := c.tenant.toNat }

/-- The service has returned: g4 takes the code, and the context goes on after its trap (R320). -/
def State.returned (s t : State) (ctx code : Nat) : Prop :=
  (t.ctxAt ctx).getG 4 = ⟨wd code, false⟩ ∧ (t.ctxAt ctx).st = .ready ∧ (t.ctxAt ctx).pc = (s.ctxAt ctx).pc + 4

/-! ### Marks of events -/

/-- A record of the code is among the posted ones. -/
def State.recorded (t : State) (code : Nat) : Prop := ∃ r ∈ t.records, fld r.w0 63 48 = code

/-- The word is full and holds `v`. -/
def State.filled (t : State) (d : Nat) (v : Word) : Prop := readBytes t.mem d 8 = v.toNat ∧ (t.tagAt d).full = true

/-- The request for which a unit of the tenant opens a line. -/
def State.unitReq (s : State) (d tenant : Nat) : Req :=
  { id := 0, src := dpaTile d, slot := 512, op := .load 8 false, dpa := d, ptr := 0, tenant := tenant, key := s.keyFor d tenant }

/-- A word that a unit of the tenant may write: it stands in a running tile, reads well, opens under the tenant's key, is not retired, and
no parked reference waits for it. -/
def State.open8 (s : State) (d tenant : Nat) (rank : Option Nat := none) : Prop :=
  d % 8 = 0 ∧ s.readsWell = true ∧ s.opens (s.unitReq d tenant) = true ∧ s.retiredAt d = false ∧ s.homeStop d true = none ∧
    s.gated d rank = false ∧ s.alone d

/-- The context runs the handler of message `m` under the vector-table entry `e` (R247). -/
def State.handles (t : State) (id : Nat) (e : Word) (m : Msg) : Prop :=
  let c := t.ctxAt id
  c.st = .ready ∧ c.handler = true ∧ c.pc = codeBase + wd (fld e 17 0) ∧ c.getG 4 = ⟨m.m0, false⟩ ∧
    c.getG 5 = ⟨m.m1, false⟩ ∧ c.getG 6 = ⟨m.coord, false⟩ ∧ c.getG 7 = ⟨wd m.type.toNat, false⟩ ∧ c.msgvec = e

/-! ### Frames -/

/-- Instructions of the scalar classes, which write one register, by its number; 0 for none (R186). -/
def scalarDest : Instr → Option Nat
  | .add d _ _ => some d.toNat
  | .sub d _ _ => some d.toNat
  | .and d _ _ => some d.toNat
  | .or d _ _ => some d.toNat
  | .xor d _ _ => some d.toNat
  | .andn d _ _ => some d.toNat
  | .shl d _ _ => some d.toNat
  | .shr d _ _ => some d.toNat
  | .sra d _ _ => some d.toNat
  | .mul d _ _ => some d.toNat
  | .mulh d _ _ => some d.toNat
  | .mulhu d _ _ => some d.toNat
  | .div d _ _ => some d.toNat
  | .divu d _ _ => some d.toNat
  | .rem d _ _ => some d.toNat
  | .remu d _ _ => some d.toNat
  | .slt d _ _ => some d.toNat
  | .sltu d _ _ => some d.toNat
  | .min d _ _ => some d.toNat
  | .max d _ _ => some d.toNat
  | .clz d _ => some d.toNat
  | .popc d _ => some d.toNat
  | .addi d _ _ => some d.toNat
  | .andi d _ _ => some d.toNat
  | .ori d _ _ => some d.toNat
  | .xori d _ _ => some d.toNat
  | .slti d _ _ => some d.toNat
  | .sltui d _ _ => some d.toNat
  | .shli d _ _ => some d.toNat
  | .shri d _ _ => some d.toNat
  | .srai d _ _ => some d.toNat
  | .addFp32 d _ _ => some d.toNat
  | .subFp32 d _ _ => some d.toNat
  | .mulFp32 d _ _ => some d.toNat
  | .divFp32 d _ _ => some d.toNat
  | .sqrtFp32 d _ => some d.toNat
  | .minFp32 d _ _ => some d.toNat
  | .maxFp32 d _ _ => some d.toNat
  | .fmaFp32 d _ _ _ => some d.toNat
  | .seqFp32 d _ _ => some d.toNat
  | .sltFp32 d _ _ => some d.toNat
  | .cvtI32Fp32 d _ => some d.toNat
  | .cvtFp32I32 d _ => some d.toNat
  | .lui d _ => some d.toNat
  | .lpc d _ => some d.toNat
  | .pmk d _ _ => some d.toNat
  | .pidx d _ => some d.toNat
  | .poff d _ => some d.toNat
  | .padd d _ _ => some d.toNat
  | .bfx d _ _ _ => some d.toNat
  | .bfxu d _ _ _ => some d.toNat
  | .bfi d _ _ _ => some d.toNat
  | .mvN x _ => some x.toNat
  | .liN x _ => some x.toNat
  | .addN x _ => some x.toNat
  | .addiN x _ => some x.toNat
  | .subN x _ => some x.toNat
  | .shliN x _ => some x.toNat
  | .andN x _ => some x.toNat
  | .shriN x _ => some x.toNat
  | .orN x _ => some x.toNat
  | .sraiN x _ => some x.toNat
  | .xorN x _ => some x.toNat
  | .andiN x _ => some x.toNat
  | .nopN => some 0
  | .addspN _ => some 3
  | .brEq _ _ _ => some 0
  | .brNe _ _ _ => some 0
  | .brLt _ _ _ => some 0
  | .brGe _ _ _ => some 0
  | .brLtu _ _ _ => some 0
  | .brGeu _ _ _ => some 0
  | .brLtz _ _ => some 0
  | .brGez _ _ => some 0
  | .jmp _ => some 0
  | .call d _ => some d.toNat
  | .jr _ _ => some 0
  | .callr d _ _ => some d.toNat
  | .ret => some 0
  | .loop a _ => some a.toNat
  | .beqzN _ _ => some 0
  | .bnezN _ _ => some 0
  | .jN _ => some 0
  | .jrN _ => some 0
  | .callrN _ => some 1
  | .retN => some 0
  | _ => none

/-- References to memory (R217 to R234, R249, R273). -/
def isReference : Instr → Bool
  | .ldB _ _ _ => true
  | .ldBz _ _ _ => true
  | .ldH _ _ _ => true
  | .ldHz _ _ _ => true
  | .ldW _ _ _ => true
  | .ldWz _ _ _ => true
  | .ldD _ _ _ => true
  | .stB _ _ _ => true
  | .stH _ _ _ => true
  | .stW _ _ _ => true
  | .stD _ _ _ => true
  | .ldN _ _ => true
  | .ldspN _ _ => true
  | .stN _ _ => true
  | .stspN _ _ => true
  | .ldDWf _ _ _ => true
  | .ldDWfc _ _ _ => true
  | .ldDWfHelp _ _ _ => true
  | .ldDWfcHelp _ _ _ => true
  | .ldDPr _ _ _ => true
  | .stDSf _ _ _ => true
  | .stDWe _ _ _ => true
  | .ldmD _ _ _ _ => true
  | .stmD _ _ _ _ => true
  | .pset _ _ => true
  | .pclr _ _ => true
  | .pget _ _ _ => true
  | .watch _ _ _ => true
  | .unwatch _ _ => true
  | .amoAdd _ _ _ => true
  | .amoAnd _ _ _ => true
  | .amoOr _ _ _ => true
  | .amoXor _ _ _ => true
  | .amoMin _ _ _ => true
  | .amoMax _ _ _ => true
  | .amoSwap _ _ _ => true
  | .amoCas _ _ _ _ => true
  | .amoAddW _ _ _ => true
  | .amoAndW _ _ _ => true
  | .amoOrW _ _ _ => true
  | .amoXorW _ _ _ => true
  | .amoMinW _ _ _ => true
  | .amoMaxW _ _ _ => true
  | .amoSwapW _ _ _ => true
  | .amoCasW _ _ _ _ => true
  | .amoAddFp32 _ _ _ => true
  | .amoMaxFp32 _ _ _ => true
  | .rdxInit _ => true
  | .rdxAddFp32 _ _ => true
  | .rdxAddBf16 _ _ => true
  | .rdxRead _ _ => true
  | .xld _ _ _ => true
  | .xst _ _ _ => true
  | .sendMb _ _ _ => true
  | .sendMbF _ _ _ => true
  | _ => false

/-- Row instructions that write row d of the bound accumulator. -/
def rowDest : Instr → Option Nat
  | .vaddFp32 d _ _ => some d.toNat
  | .vsubFp32 d _ _ => some d.toNat
  | .vmulFp32 d _ _ => some d.toNat
  | .vdivFp32 d _ _ => some d.toNat
  | .vfmaFp32 d _ _ => some d.toNat
  | .vminFp32 d _ _ => some d.toNat
  | .vmaxFp32 d _ _ => some d.toNat
  | .vabsFp32 d _ => some d.toNat
  | .vnegFp32 d _ => some d.toNat
  | .vreluFp32 d _ => some d.toNat
  | .vaddbFp32 d _ _ => some d.toNat
  | .vmulbFp32 d _ _ => some d.toNat
  | .vaddBf16 d _ _ => some d.toNat
  | .vsubBf16 d _ _ => some d.toNat
  | .vmulBf16 d _ _ => some d.toNat
  | .vfmaBf16 d _ _ => some d.toNat
  | .vminBf16 d _ _ => some d.toNat
  | .vmaxBf16 d _ _ => some d.toNat
  | .vreluBf16 d _ => some d.toNat
  | .vaddI32 d _ _ => some d.toNat
  | .vsubI32 d _ _ => some d.toNat
  | .vmulI32 d _ _ => some d.toNat
  | .vminI32 d _ _ => some d.toNat
  | .vmaxI32 d _ _ => some d.toNat
  | .vandI32 d _ _ => some d.toNat
  | .vorI32 d _ _ => some d.toNat
  | .vxorI32 d _ _ => some d.toNat
  | .vshlI32 d _ _ => some d.toNat
  | .vsraI32 d _ _ => some d.toNat
  | .vreluI32 d _ => some d.toNat
  | .vexpFp32 d _ => some d.toNat
  | .vlogFp32 d _ => some d.toNat
  | .vrcpFp32 d _ => some d.toNat
  | .vrsqrtFp32 d _ => some d.toNat
  | .vsqrtFp32 d _ => some d.toNat
  | .vtanhFp32 d _ => some d.toNat
  | .vsigmFp32 d _ => some d.toNat
  | .vcmpEqFp32 d _ _ => some d.toNat
  | .vcmpLtFp32 d _ _ => some d.toNat
  | .vcmpLeFp32 d _ _ => some d.toNat
  | .vcmpEqI32 d _ _ => some d.toNat
  | .vcmpLtI32 d _ _ => some d.toNat
  | .vsel d _ _ => some d.toNat
  | .vsumFp32 d _ => some d.toNat
  | .vsumI32 d _ => some d.toNat
  | .vmaxrFp32 d _ => some d.toNat
  | .vbcast d _ => some d.toNat
  | .vset d _ _ => some d.toNat
  | .vcvtBf16Fp32 d _ _ => some d.toNat
  | .vcvtFp32Bf16 d _ _ => some d.toNat
  | .vcvtI32Fp32 d _ => some d.toNat
  | .vcvtFp32I32 d _ => some d.toNat
  | .vmov d _ => some d.toNat
  | _ => none

/-- Instructions that read or write memory in place when they issue: the ends of a frame, and firmware's register writes, record and copy
(R240, R323, R324). -/
def actsAtOnce : Instr → Bool
  | .hcset _ _ => true
  | .tdone _ => true
  | .texit => true
  | .hrec _ => true
  | .hcopy _ _ _ => true
  | _ => false

/-- The registers of the issuing context, but for the ones named: the general and extension registers keep their values. -/
def Ctx.keeps (a b : Ctx) (but : Nat) : Prop :=
  (∀ n, n ≠ but → b.getG n = a.getG n) ∧ ∀ k, b.getE k = a.getE k

/-- A context that stands where `b` does with the instruction it issues, and is `a` in everything else (R96, R147, R202). -/
def Ctx.standsAs (a b : Ctx) : Ctx :=
  { a with
    pc := b.pc, st := b.st, again := b.again, plainWait := b.plainWait, barWait := b.barWait, seen := b.seen, walked := b.walked
    hold := b.hold }

/-- The instruction has trapped, and done nothing else. -/
def State.trapped (s t : State) : Prop := ∃ cause tval, t = s.trapAt s.cur cause tval

end Sys2Proof.Machine
end

