-- ==== Sys2Proof/Certificates/Slice0/Obligations.lean ====
section
/-! DEFINITION. The statements about the machine. Each docstring names the rules it rests on. -/

open Sys2Proof Sys2Proof.Machine

/-! ### The step, the encoding, reset -/

/-- R189, R178, R180, R111: the chosen context's halfwords at its program counter decide what a step does, an instruction being one halfword or
two. After an ifence they are what the code banks hold; code overwritten since then may still be fetched as it was. A turn of the
agenda that names an event runs it, and another one does what it names.
R21: a package in which nothing is due lets a cycle of the reference clock pass, and nothing else changes but the banks' count of the
cycle's arrivals. -/
def Obligations.StepRunsDecoded : Prop :=
  ((∀ (s : State) (i : Instr) (h0 : Nat),
      s.issuing = true → s.me.st = .ready → s.myTile.clocked = true → s.badBonds = [] → s.codeOld.length ≤ s.me.fenced →
      ptrOff s.me.pc < 0x40000 → s.ownsCode s.me.pc = true →
      h0 = readBytes s.mem (s.loftDpa (tileOf s.cur) (ptrOff s.me.pc)) 2 →
      (h0 < 2 ^ 15 → decode h0 = .ok i → step s = exec i { s with issuing := false }) ∧
      (2 ^ 15 ≤ h0 → ptrOff (s.me.pc + 2) < 0x40000 →
        s.ownsCode (s.me.pc + 2) = true →
        decode (h0 + readBytes s.mem (s.loftDpa (tileOf s.cur) (ptrOff (s.me.pc + 2))) 2 * 2 ^ 16) = .ok i →
        step s = exec i { s with issuing := false })) ∧
    (∀ s : State,
      s.issuing = true → s.me.st = .ready → s.myTile.clocked = true → s.badBonds = [] →
      ptrOff s.me.pc < 0x40000 → s.ownsCode s.me.pc = true →
      ∃ h0 ∈ s.codeVersions (s.loftDpa (tileOf s.cur) (ptrOff s.me.pc)),
        (∀ i, h0 < 2 ^ 15 → decode h0 = .ok i → step s = exec i { s with issuing := false }) ∧
        (2 ^ 15 ≤ h0 → ptrOff (s.me.pc + 2) < 0x40000 →
          s.ownsCode (s.me.pc + 2) = true →
          ∃ h1 ∈ s.codeVersions (s.loftDpa (tileOf s.cur) (ptrOff (s.me.pc + 2))),
            ∀ i, decode (h0 + h1 * 2 ^ 16) = .ok i → step s = exec i { s with issuing := false })) ∧
    (∀ (s : State) (i : Instr) (rest : List Turn),
      s.issuing = false → s.agenda = .event i :: rest → i.isInstruction = false → step s = exec i { s with agenda := rest }) ∧
    (∀ (s : State) (x : Turn) (rest : List Turn),
      s.issuing = false → s.agenda = x :: rest → x ≠ .own → (∀ i, x ≠ .event i) →
      step s = .next (({ s with agenda := rest } : State).outside x))) ∧
  (∀ s : State, s.issuing = false → s.agenda = [] → s.discards = 0 → s.looked = false → s.waking = [] → s.nextInCycle = none →
      s.tick.nextOwn = none →
      ∃ t, step s = .next t ∧ t.cycle = s.cycle + 1 ∧ t = { s with cycle := t.cycle, served := [] })

/-- R189, R81, R180: a fetch that fails, and an unassigned encoding, trap before anything else. -/
def Obligations.FetchTraps : Prop :=
  ∀ (s : State), s.issuing = true → s.me.st = .ready → s.myTile.clocked = true →
    (0x40000 ≤ ptrOff s.me.pc → step s = .next (({ s with issuing := false } : State).trapAt s.cur cLOFT_BOUNDS s.me.pc)) ∧
    (ptrOff s.me.pc < 0x40000 →
      (s.ownsCode s.me.pc = false →
        step s = .next (({ s with issuing := false } : State).trapAt s.cur cRIGHTS s.me.pc)) ∧
      (s.ownsCode s.me.pc = true →
        s.badBonds = [] → s.codeOld.length ≤ s.me.fenced →
        readBytes s.mem (s.loftDpa (tileOf s.cur) (ptrOff s.me.pc)) 2 = 0 →
        step s = .next (({ s with issuing := false } : State).trapAt s.cur cILLEGAL_OP 0)))

/-- R61, R80, R83, R149, R162, R185, R374: the reset values that the spec states.
They have it after reset. -/
def Obligations.ResetValues : Prop :=
  ((∀ d, readByte State.reset.mem d = 0) ∧
    (∀ d, State.reset.tagAt d = ⟨true, false, false⟩) ∧
    (∀ t, (State.reset.tileAt t).lownAt 0 = 16) ∧
    (∀ t k, k ≠ 0 → (State.reset.tileAt t).lownAt k = 31) ∧
    (∀ t k, lfmtFmt ((State.reset.tileAt t).fmtAt k) = fRAW) ∧
    (∀ t, ((State.reset.tileAt t).owns 16 504 = true) ∧ ((State.reset.tileAt t).owns 16 511 = true)) ∧
    (∀ id, (State.reset.ctxAt id).adoptOff = false ∧ (State.reset.ctxAt id).limit = 3 ∧ (State.reset.ctxAt id).depth = 0) ∧
    (∀ id, ((State.reset.ctxAt id).getG 0) = {}) ∧
    (State.reset.records.map (fun r => fld r.w0 63 48) = [0x010F])) ∧
  (State.reset.memoryOk = true)

/-- Words written out from the encodings of the spec decode to the instructions they stand for (R192, R203, R206, R213, R217,
R229, R278). -/
def Obligations.WordsDecode : Prop :=
  decodeTableWord 16 0x0846 = some (.addN 1 3) ∧
  decodeTableWord 32 0x11408030 = some (.add 3 2 5) ∧
  decodeTableWord 32 0x17FF8440 = some (.addi 4 2 0x7FF) ∧
  decodeTableWord 32 0x28009820 = some (.brEq 2 5 0)

/-- R200: every well-formed instruction, with every operand that its encoding admits, decodes from its own word. -/
def Obligations.DecodeEncode : Prop :=
 ∀ i : Instr, i.encodable = true → decode (encode i) = .ok i

/-- R184, R189, R191: a word that decodes to an instruction is that instruction's own word, so no reserved or unassigned bit is
passed over: of a compact instruction the halfword, of another the whole word. -/
def Obligations.EncodeDecode : Prop :=
  ∀ (w : Nat) (i : Instr), w < 2 ^ 32 → decode w = .ok i →
    i.encodable = true ∧ (w / 2 ^ 15 % 2 = 0 → encode i = w % 2 ^ 16) ∧ (w / 2 ^ 15 % 2 = 1 → encode i = w)

/-- The memory and the tags stay in their canonical form, whatever happens: an instruction or an event, from any state. -/
def Obligations.MemoryInvariant : Prop :=
  ∀ s t : State, s.memoryOk = true → step s = .next t → t.memoryOk = true

/-! ### Integer, address and bit-field instructions -/

/-- R203, R204, R205, R201: d, the poison of the operands, and 4 bytes on.
R203, R204: division, its edges, and the remainder. -/
def Obligations.IntegerRegister : Prop :=
  (∀ (s : State) (d a b : BitVec 5), s.there [gr a, gr b] = true →
      let x := s.gv a
      let y := s.gv b
      let goes (v : Word) : Out := .next (s.wrote d v (s.gp a || s.gp b) 4)
      exec (.add d a b) s = goes (x + y) ∧ exec (.sub d a b) s = goes (x - y) ∧
      exec (.and d a b) s = goes (x &&& y) ∧ exec (.or d a b) s = goes (x ||| y) ∧ exec (.xor d a b) s = goes (x ^^^ y) ∧
      exec (.andn d a b) s = goes (x &&& ~~~y) ∧
      exec (.shl d a b) s = goes (x <<< (y.toNat % 64)) ∧ exec (.shr d a b) s = goes (x >>> (y.toNat % 64)) ∧
      exec (.sra d a b) s = goes (x.sshiftRight (y.toNat % 64)) ∧
      exec (.mul d a b) s = goes (BitVec.ofNat 64 (x.toNat * y.toNat)) ∧
      exec (.mulh d a b) s = goes (BitVec.ofInt 64 (x.toInt * y.toInt / 2 ^ 64)) ∧
      exec (.mulhu d a b) s = goes (BitVec.ofNat 64 (x.toNat * y.toNat / 2 ^ 64)) ∧
      exec (.min d a b) s = goes (if x.slt y then x else y) ∧ exec (.max d a b) s = goes (if x.slt y then y else x)) ∧
  (∀ (s : State) (d a b : BitVec 5), s.there [gr a, gr b] = true →
      let x := s.gv a
      let y := s.gv b
      let p := s.gp a || s.gp b
      (y = 0 →
        exec (.div d a b) s = .next (s.wrote d (BitVec.allOnes 64) p 4) ∧
        exec (.divu d a b) s = .next (s.wrote d (BitVec.allOnes 64) p 4) ∧
        exec (.rem d a b) s = .next (s.wrote d x p 4) ∧ exec (.remu d a b) s = .next (s.wrote d x p 4)) ∧
      (x = BitVec.intMin 64 → y = BitVec.allOnes 64 →
        exec (.div d a b) s = .next (s.wrote d x p 4) ∧ exec (.divu d a b) s = .next (s.wrote d 0 p 4) ∧
        exec (.rem d a b) s = .next (s.wrote d 0 p 4) ∧ exec (.remu d a b) s = .next (s.wrote d x p 4)) ∧
      (y ≠ 0 → ¬ (x = BitVec.intMin 64 ∧ y = BitVec.allOnes 64) →
        exec (.div d a b) s = .next (s.wrote d (x.sdiv y) p 4) ∧ exec (.divu d a b) s = .next (s.wrote d (x / y) p 4) ∧
        exec (.rem d a b) s = .next (s.wrote d (x.srem y) p 4) ∧ exec (.remu d a b) s = .next (s.wrote d (x % y) p 4)))

/-- R201, R205, R206, R327: a compare writes 1 or 0, and a poisoned operand traps POISON_CONSUMED with no effect. -/
def Obligations.Compares : Prop :=
  ∀ (s : State) (d a b : BitVec 5) (imm : BitVec 11), s.there [gr a, gr b] = true →
    let x := s.gv a
    let y := s.gv b
    let k : Word := imm.signExtend 64
    let goes (c : Bool) : Out := .next (s.wrote d (if c then 1 else 0) false 4)
    let stops : Out := .next (s.trapAt s.cur cPOISON_CONSUMED s.me.latch)
    ((s.gp a || s.gp b) = false →
      exec (.slt d a b) s = goes (x.slt y) ∧ exec (.sltu d a b) s = goes (x.ult y) ∧
      exec (.seqFp32 d a b) s = goes (eqF 23 (low32 x) (low32 y)) ∧ exec (.sltFp32 d a b) s = goes (ltF 23 (low32 x) (low32 y))) ∧
    (s.gp a = false → exec (.slti d a imm) s = goes (x.slt k) ∧ exec (.sltui d a imm) s = goes (x.ult k)) ∧
    ((s.gp a || s.gp b) = true →
      exec (.slt d a b) s = stops ∧ exec (.sltu d a b) s = stops ∧ exec (.seqFp32 d a b) s = stops ∧
      exec (.sltFp32 d a b) s = stops) ∧
    (s.gp a = true → exec (.slti d a imm) s = stops ∧ exec (.sltui d a imm) s = stops)

/-- R205, R206, R209, R210: one operand, an immediate, a constant or a pointer.
R211: the bit-field instructions, and the field that leaves the word. -/
def Obligations.ImmediatesPointersFields : Prop :=
  (∀ (s : State) (d a b : BitVec 5) (imm : BitVec 11) (u : BitVec 20), s.there [gr a, gr b] = true →
      let x := s.gv a
      let y := s.gv b
      let k : Word := imm.signExtend 64
      let one (v : Word) : Out := .next (s.wrote d v (s.gp a) 4)
      let two (v : Word) : Out := .next (s.wrote d v (s.gp a || s.gp b) 4)
      exec (.addi d a imm) s = one (x + k) ∧ exec (.andi d a imm) s = one (x &&& k) ∧
      exec (.ori d a imm) s = one (x ||| k) ∧ exec (.xori d a imm) s = one (x ^^^ k) ∧
      (imm.toNat ≤ 63 →
        exec (.shli d a imm) s = one (x <<< imm.toNat) ∧ exec (.shri d a imm) s = one (x >>> imm.toNat) ∧
        exec (.srai d a imm) s = one (x.sshiftRight imm.toNat)) ∧
      (63 < imm.toNat →
        exec (.shli d a imm) s = .next (s.trapAt s.cur cILLEGAL_OPERAND (wd (wordShli d a imm))) ∧
        exec (.shri d a imm) s = .next (s.trapAt s.cur cILLEGAL_OPERAND (wd (wordShri d a imm))) ∧
        exec (.srai d a imm) s = .next (s.trapAt s.cur cILLEGAL_OPERAND (wd (wordSrai d a imm)))) ∧
      (∃ n : Nat, n ≤ 64 ∧ exec (.clz d a) s = one (BitVec.ofNat 64 n) ∧ x.toNat < 2 ^ (64 - n) ∧
        (x ≠ 0 → 2 ^ (63 - n) ≤ x.toNat) ∧ (x = 0 → n = 64)) ∧
      exec (.popc d a) s = one (BitVec.ofNat 64 ((List.range 64).filter (fun i => x.getLsbD i)).length) ∧
      exec (.lui d u) s = .next (s.wrote d ((u.signExtend 64 : Word) <<< 12) false 4) ∧
      exec (.lpc d u) s = .next (s.wrote d (padd s.me.pc (u.signExtend 64 * 2)) false 4) ∧
      exec (.pmk d a b) s = two (x.extractLsb' 0 18 ++ y.extractLsb' 0 46) ∧
      exec (.pidx d a) s = one ((x.extractLsb' 46 18).setWidth 64) ∧
      exec (.poff d a) s = one ((x.extractLsb' 0 46).setWidth 64) ∧
      exec (.padd d a b) s = two (x.extractLsb' 46 18 ++ (x.extractLsb' 0 46 + y.extractLsb' 0 46))) ∧
  (∀ (s : State) (d a b : BitVec 5) (imm : BitVec 6), s.there [gr d, gr a] = true →
      let lo := imm.toNat
      let w := b.toNat + 1
      (lo + w ≤ 64 →
        (∃ v : Word, exec (.bfx d a b imm) s = .next (s.wrote d v (s.gp a) 4) ∧
          ∀ i, i < 64 → v.getLsbD i = (s.gv a).getLsbD (lo + min i (w - 1))) ∧
        (∃ v : Word, exec (.bfxu d a b imm) s = .next (s.wrote d v (s.gp a) 4) ∧
          ∀ i, i < 64 → v.getLsbD i = (decide (i < w) && (s.gv a).getLsbD (lo + i))) ∧
        (∃ v : Word, exec (.bfi d a b imm) s = .next (s.wrote d v (s.gp d || s.gp a) 4) ∧
          ∀ i, i < 64 → v.getLsbD i =
            (if lo ≤ i ∧ i < lo + w then (s.gv a).getLsbD (i - lo) else (s.gv d).getLsbD i))) ∧
      (64 < lo + w →
        exec (.bfx d a b imm) s = .next (s.trapAt s.cur cILLEGAL_OPERAND (wd (wordBfx d a b imm))) ∧
        exec (.bfxu d a b imm) s = .next (s.trapAt s.cur cILLEGAL_OPERAND (wd (wordBfxu d a b imm))) ∧
        exec (.bfi d a b imm) s = .next (s.trapAt s.cur cILLEGAL_OPERAND (wd (wordBfi d a b imm)))))

/-- R192: a compact form acts as its 32-bit instruction, and the next instruction follows 2 bytes on. -/
def Obligations.CompactForms : Prop :=
  ∀ (s : State) (x y : BitVec 5) (k : BitVec 10), s.there [gr x, gr y, 3] = true →
    let i : Word := y.signExtend 64
    let one (v : Word) : Out := .next (s.wrote x v (s.gp x) 2)
    let two (v : Word) : Out := .next (s.wrote x v (s.gp x || s.gp y) 2)
    exec (.mvN x y) s = .next (s.wrote x (s.gv y) (s.gp y) 2) ∧ exec (.liN x y) s = .next (s.wrote x i false 2) ∧
    exec (.addN x y) s = two (s.gv x + s.gv y) ∧ exec (.addiN x y) s = one (s.gv x + i) ∧
    exec (.subN x y) s = two (s.gv x - s.gv y) ∧ exec (.shliN x y) s = one (s.gv x <<< y.toNat) ∧
    exec (.andN x y) s = two (s.gv x &&& s.gv y) ∧ exec (.shriN x y) s = one (s.gv x >>> y.toNat) ∧
    exec (.orN x y) s = two (s.gv x ||| s.gv y) ∧ exec (.sraiN x y) s = one ((s.gv x).sshiftRight y.toNat) ∧
    exec (.xorN x y) s = two (s.gv x ^^^ s.gv y) ∧ exec (.andiN x y) s = one (s.gv x &&& i) ∧
    exec .nopN s = .next (s.setMe (s.me.advance 2)) ∧
    exec (.addspN k) s = .next (s.wrote 3 (s.gv 3 + k.signExtend 64 * 8) (s.gp 3) 2)

/-- R207, R145: the scalar fp32 instructions read bits [31:0], and d[63:32] is 0. -/
def Obligations.ScalarFp32 : Prop :=
  ∀ (s : State) (d a b c : BitVec 5), s.there [gr a, gr b, gr c] = true →
    let x := (s.gv a).toNat % 2 ^ 32
    let y := (s.gv b).toNat % 2 ^ 32
    let z := (s.gv c).toNat % 2 ^ 32
    let m := s.me.round.toNat
    let two (n : Nat) : Out := .next (s.wrote d (wd n) (s.gp a || s.gp b) 4)
    exec (.addFp32 d a b) s = two (addF 23 m x y) ∧ exec (.subFp32 d a b) s = two (subF 23 m x y) ∧
    exec (.mulFp32 d a b) s = two (mulF 23 m x y) ∧ exec (.divFp32 d a b) s = two (divF 23 m x y) ∧
    exec (.minFp32 d a b) s = two (minF 23 x y) ∧ exec (.maxFp32 d a b) s = two (maxF 23 x y) ∧
    exec (.sqrtFp32 d a) s = .next (s.wrote d (wd (sqrtF 23 m x)) (s.gp a) 4) ∧
    exec (.fmaFp32 d a b c) s = .next (s.wrote d (wd (fmaF 23 m x y z)) (s.gp a || (s.gp b || s.gp c)) 4) ∧
    exec (.cvtI32Fp32 d a) s = .next (s.wrote d (BitVec.ofInt 64 (cvtI32 x)) (s.gp a) 4) ∧
    exec (.cvtFp32I32 d a) s = .next (s.wrote d (wd (cvtFp32 x)) (s.gp a) 4) ∧
    addF 23 m x y < 2 ^ 32 ∧ subF 23 m x y < 2 ^ 32 ∧ mulF 23 m x y < 2 ^ 32 ∧ divF 23 m x y < 2 ^ 32 ∧ minF 23 x y < 2 ^ 32 ∧
    maxF 23 x y < 2 ^ 32 ∧ sqrtF 23 m x < 2 ^ 32 ∧ fmaF 23 m x y z < 2 ^ 32 ∧ cvtFp32 x < 2 ^ 32

/-- R202: an instruction whose source awaits a load is BLOCKED, with no effect, and issues again.
R185, R186: g0 reads 0 without poison, and a write to it is discarded: by the four instructions named, and by the answer of a load. -/
def Obligations.RegisterRules : Prop :=
  (∀ (s : State) (d a b : BitVec 5) (imm : BitVec 11), s.there [gr a] = false →
      exec (.add d a b) s = .next s.waiting ∧ exec (.addi d a imm) s = .next s.waiting ∧ exec (.slt d a b) s = .next s.waiting ∧
      exec (.brEq a b imm) s = .next s.waiting ∧ exec (.ldD d a imm) s = .next s.waiting ∧ exec (.stD d a imm) s = .next s.waiting ∧
      exec (.amoAdd d a b) s = .next s.waiting ∧ exec (.jr a imm) s = .next s.waiting) ∧
  ((∀ s : State, s.gv 0 = 0 ∧ s.gp 0 = false) ∧
    (∀ (s : State) (a b : BitVec 5), s.there [gr a, gr b] = true →
      exec (.add 0 a b) s = .next (s.setMe (s.me.advance 4)) ∧ exec (.or 0 a b) s = .next (s.setMe (s.me.advance 4)) ∧
      exec (.addFp32 0 a b) s = .next (s.setMe (s.me.advance 4)) ∧ exec (.lui 0 0xFFFFF) s = .next (s.setMe (s.me.advance 4))) ∧
    (∀ (c : Ctx) (id : Nat) (v : GVal), c.deliver id 0 v = c))

/-! ### Control -/

/-- R213, R216, R192: a branch whose condition holds goes to its target if that passes R179; one that is not taken goes on. A
poisoned operand traps POISON_CONSUMED, also where the decision cannot depend on it. -/
def Obligations.Branches : Prop :=
  (∀ (s : State) (a b x : BitVec 5) (off : BitVec 11) (o6 : BitVec 6), s.there [gr a, gr b, gr x] = true →
    s.gp a = false → s.gp b = false → s.gp x = false →
    let target := padd s.me.pc (off.signExtend 64 * 2)
    let target6 := padd s.me.pc (o6.signExtend 64 * 2)
    let goes (c : Bool) : Out :=
      if c then (match targetFault target with
        | none => .next (s.jumped s.me target)
        | some cause => .next (s.trapAt s.cur cause target))
      else .next (s.setMe (s.me.advance 4))
    let short (c : Bool) (h : Nat) : Out :=
      if c then (match targetFault target6 with
        | none => .next (s.jumped s.me target6)
        | some cause => .next (s.trapAt s.cur cause (wd h)))
      else .next (s.setMe (s.me.advance 2))
    exec (.brEq a b off) s = goes (s.gv a == s.gv b) ∧ exec (.brNe a b off) s = goes (s.gv a != s.gv b) ∧
    exec (.brLt a b off) s = goes ((s.gv a).slt (s.gv b)) ∧ exec (.brGe a b off) s = goes (!(s.gv a).slt (s.gv b)) ∧
    exec (.brLtu a b off) s = goes ((s.gv a).ult (s.gv b)) ∧ exec (.brGeu a b off) s = goes (!(s.gv a).ult (s.gv b)) ∧
    exec (.brLtz a off) s = goes (s.gv a).msb ∧ exec (.brGez a off) s = goes (!(s.gv a).msb) ∧
    exec (.beqzN x o6) s = short (s.gv x == 0) (wordBeqzN x o6) ∧ exec (.bnezN x o6) s = short (s.gv x != 0) (wordBnezN x o6) ∧
    exec (.loop a off) s =
      (if s.gv a = 1 then .next (s.wrote a 0 false 4)
      else match targetFault target with
        | none => .next (s.jumped (s.me.setG a.toNat ⟨s.gv a - 1, false⟩) target)
        | some cause => .next (s.trapAt s.cur cause target))) ∧
  (∀ (s : State) (a b x : BitVec 5) (off : BitVec 11) (o6 : BitVec 6), s.there [gr a, gr b, gr x] = true →
    let stops : Out := .next (s.trapAt s.cur cPOISON_CONSUMED s.me.latch)
    ((s.gp a || s.gp b) = true →
      exec (.brEq a b off) s = stops ∧ exec (.brNe a b off) s = stops ∧ exec (.brLt a b off) s = stops ∧
      exec (.brGe a b off) s = stops ∧ exec (.brLtu a b off) s = stops ∧ exec (.brGeu a b off) s = stops) ∧
    (s.gp a = true → exec (.brLtz a off) s = stops ∧ exec (.brGez a off) s = stops ∧ exec (.loop a off) s = stops) ∧
    (s.gp x = true →
      exec (.beqzN x o6) s = .next (s.trapAt s.cur cPOISON_CONSUMED (wd (wordBeqzN x o6))) ∧
      exec (.bnezN x o6) s = .next (s.trapAt s.cur cPOISON_CONSUMED (wd (wordBnezN x o6)))))

/-- R214, R216, R192: jumps and calls; the link is the pointer of the next instruction. A poisoned target register traps
POISON_CONSUMED.
R179: the checks of a target, in their order. -/
def Obligations.Jumps : Prop :=
  ((∀ (s : State) (d a x : BitVec 5) (off : BitVec 20) (imm o11 : BitVec 11), s.there [gr a, gr x, 1] = true →
      s.gp a = false → s.gp x = false → s.gp 1 = false →
      let goes (c : Ctx) (target : Word) : Out :=
        match targetFault target with
        | none => .next (s.jumped c target)
        | some cause => .next (s.trapAt s.cur cause target)
      let short (c : Ctx) (target : Word) (h : Nat) : Out :=
        match targetFault target with
        | none => .next (s.jumped c target)
        | some cause => .next (s.trapAt s.cur cause (wd h))
      let rel := padd s.me.pc (off.signExtend 64 * 2)
      let dest := padd (s.gv a) (imm.signExtend 64 * 2)
      exec (.jmp off) s = goes s.me rel ∧ exec (.call d off) s = goes (s.me.setG d.toNat ⟨s.me.pc + 4, false⟩) rel ∧
      exec (.jr a imm) s = goes s.me dest ∧ exec (.callr d a imm) s = goes (s.me.setG d.toNat ⟨s.me.pc + 4, false⟩) dest ∧
      exec .ret s = goes s.me (padd (s.gv 1) 0) ∧
      exec (.jN o11) s = short s.me (padd s.me.pc (o11.signExtend 64 * 2)) (wordJN o11) ∧
      exec (.jrN x) s = short s.me (padd (s.gv x) 0) (wordJrN x) ∧
      exec (.callrN x) s = short (s.me.setG 1 ⟨s.me.pc + 2, false⟩) (padd (s.gv x) 0) (wordCallrN x) ∧
      exec .retN s = short s.me (padd (s.gv 1) 0) wordRetN) ∧
    (∀ (s : State) (d a x : BitVec 5) (imm : BitVec 11), s.there [gr a, gr x, 1] = true →
      let stops : Out := .next (s.trapAt s.cur cPOISON_CONSUMED s.me.latch)
      (s.gp a = true → exec (.jr a imm) s = stops ∧ exec (.callr d a imm) s = stops) ∧ (s.gp 1 = true → exec .ret s = stops) ∧
      (s.gp x = true →
        exec (.jrN x) s = .next (s.trapAt s.cur cPOISON_CONSUMED (wd (wordJrN x))) ∧
        exec (.callrN x) s = .next (s.trapAt s.cur cPOISON_CONSUMED (wd (wordCallrN x)))) ∧
      (s.gp 1 = true → exec .retN s = .next (s.trapAt s.cur cPOISON_CONSUMED (wd wordRetN))))) ∧
  (∀ t : Word,
      ((t.extractLsb' 46 18 ≠ 0x3FFFE) → targetFault t = some cILLEGAL_OPERAND) ∧
      (t.extractLsb' 46 18 = 0x3FFFE → t.getLsbD 0 = true → targetFault t = some cALIGN) ∧
      (t.extractLsb' 46 18 = 0x3FFFE → t.getLsbD 0 = false → 0x40000 ≤ (t.extractLsb' 0 46).toNat →
        targetFault t = some cLOFT_BOUNDS) ∧
      (t.extractLsb' 46 18 = 0x3FFFE → t.getLsbD 0 = false → (t.extractLsb' 0 46).toNat < 0x40000 → targetFault t = none))

/-! ### References: checks, loads, stores, synchronisation -/

/-- R32, R81, R28: the checks of a reference in their order, before the buffer table is read.
R32, R44: the checks of an entry that the port has cached, or has fetched for this context: validity and owner, rights, bounds. -/
def Obligations.ReferenceChecks : Prop :=
  (∀ (s : State) (d b : BitVec 5) (off : BitVec 11), s.there [gr b, gr d] = true → s.gp b = false →
      let p := padd (s.gv b) (off.signExtend 64 * 4)
      let stops (cause : Nat) : Prop :=
        exec (.ldW d b off) s = .next (s.trapAt s.cur cause p) ∧ exec (.ldWz d b off) s = .next (s.trapAt s.cur cause p) ∧
        exec (.stW d b off) s = .next (s.trapAt s.cur cause p)
      (ptrOff p % 4 ≠ 0 → stops cALIGN) ∧
      (ptrOff p % 4 = 0 → loftIdx (ptrIdx p) = true →
        (0x800000 ≤ ptrOff p → stops cLOFT_BOUNDS) ∧
        (ptrOff p < 0x800000 →
          s.loftOwned (loftTile (tileOf s.cur) (ptrIdx p)) (lownEntry (ptrOff p)) (s.partOf s.cur) = false → stops cRIGHTS)) ∧
      (ptrOff p % 4 = 0 → loftIdx (ptrIdx p) = false →
        (ptrIdx p = 0 ∨ reservedIdx (ptrIdx p) = true ∨ btabCount (s.btabOf (s.partOf s.cur)) ≤ ptrIdx p) →
          stops cBUFFER_INVALID)) ∧
  (∀ (s : State) (d b : BitVec 5) (off : BitVec 11) (e : BCached), s.there [gr b, gr d] = true → s.gp b = false →
      let p := padd (s.gv b) (off.signExtend 64 * 8)
      let part := s.partOf s.cur
      s.xlateFront (tileOf s.cur) part p 8 = .ok (ptrIdx p) →
      s.entryFor (ptrIdx p) = some e →
      let bad := s.entryBad e.ent = true ∨ e.ent.owner ≠ s.me.tenant.toNat
      let lacks (n : Nat) : Prop := bit e.ent.w0 n = false
      let rightsCause := if e.ent.win then cWINDOW_RIGHTS else cRIGHTS
      (bad → exec (.ldD d b off) s = .next (s.trapAt s.cur cBUFFER_INVALID p) ∧
        exec (.stD d b off) s = .next (s.trapAt s.cur cBUFFER_INVALID p)) ∧
      (¬ bad → lacks 59 → exec (.ldD d b off) s = .next (s.trapAt s.cur rightsCause p)) ∧
      (¬ bad → lacks 58 → exec (.stD d b off) s = .next (s.trapAt s.cur rightsCause p)) ∧
      (¬ bad → ¬ lacks 59 → e.ent.size < ptrOff p + 8 → exec (.ldD d b off) s = .next (s.trapAt s.cur cBOUNDS p)) ∧
      (¬ bad → ¬ lacks 58 → e.ent.size < ptrOff p + 8 → exec (.stD d b off) s = .next (s.trapAt s.cur cBOUNDS p)))

/-- R219, R96, R192: a load whose reference passes leaves for its home; d awaits the value, and the context goes on.
R220, R223, R96, R192: a store whose reference passes leaves with the value and its poison, and the context goes on; a
poisoned value for a window that a host shares traps. -/
def Obligations.LoadsAndStoresLeave : Prop :=
  (∀ (s t : State) (d b : BitVec 5) (off : BitVec 11) (x : Target), s.there [gr b, 3] = true →
      let go (p : Word) (width : Nat) (sx : Bool) (frm : Form) (d : BitVec 5) : Out :=
        .next (t.sent { t.reqFor frm (.load width sx) x p with dest := [gr d] })
      let at_ (k : Nat) : Word := padd (s.gv b) (off.signExtend 64 * wd k)
      (s.gp b = false →
        (s.passes (at_ 1) 1 needR = some (x, t) →
          exec (.ldB d b off) s = go (at_ 1) 1 true {} d ∧ exec (.ldBz d b off) s = go (at_ 1) 1 false {} d) ∧
        (s.passes (at_ 2) 2 needR = some (x, t) →
          exec (.ldH d b off) s = go (at_ 2) 2 true {} d ∧ exec (.ldHz d b off) s = go (at_ 2) 2 false {} d) ∧
        (s.passes (at_ 4) 4 needR = some (x, t) →
          exec (.ldW d b off) s = go (at_ 4) 4 true {} d ∧ exec (.ldWz d b off) s = go (at_ 4) 4 false {} d) ∧
        (s.passes (at_ 8) 8 needR = some (x, t) → exec (.ldD d b off) s = go (at_ 8) 8 false {} d) ∧
        (s.passes (padd (s.gv b) 0) 8 needR = some (x, t) →
          exec (.ldN d b) s = go (padd (s.gv b) 0) 8 false (compactForm (wordLdN d b)) d)) ∧
      (s.gp 3 = false → s.passes (padd (s.gv 3) (wd (8 * d.toNat))) 8 needR = some (x, t) →
        exec (.ldspN b d) s = go (padd (s.gv 3) (wd (8 * d.toNat))) 8 false (compactForm (wordLdspN b d)) b)) ∧
  (∀ (s t : State) (d b : BitVec 5) (off : BitVec 11) (x : Target), s.there [gr b, gr d, 3] = true →
      let go (p : Word) (width : Nat) (frm : Form) (d : BitVec 5) : Out :=
        if t.gp d && t.hostShared x then .next (t.trapAt t.cur cPOISON_CONSUMED (frm.tv t.me.latch))
        else .next (t.sent { t.reqFor frm (.store width) x p with val := t.me.getG (gr d) })
      let at_ (k : Nat) : Word := padd (s.gv b) (off.signExtend 64 * wd k)
      (s.gp b = false →
        (s.passes (at_ 1) 1 needW = some (x, t) → exec (.stB d b off) s = go (at_ 1) 1 {} d) ∧
        (s.passes (at_ 2) 2 needW = some (x, t) → exec (.stH d b off) s = go (at_ 2) 2 {} d) ∧
        (s.passes (at_ 4) 4 needW = some (x, t) → exec (.stW d b off) s = go (at_ 4) 4 {} d) ∧
        (s.passes (at_ 8) 8 needW = some (x, t) → exec (.stD d b off) s = go (at_ 8) 8 {} d) ∧
        (s.passes (padd (s.gv b) 0) 8 needW = some (x, t) →
          exec (.stN d b) s = go (padd (s.gv b) 0) 8 (compactForm (wordStN d b)) d)) ∧
      (∀ k : BitVec 5, s.gp 3 = false → s.passes (padd (s.gv 3) (wd (8 * k.toNat))) 8 needW = some (x, t) →
        exec (.stspN d k) s = go (padd (s.gv 3) (wd (8 * k.toNat))) 8 (compactForm (wordStspN d k)) d))

/-- R221, R222, R162, R225, R226, R99: sync loads and stores, presence and watch references leave; those that block do. -/
def Obligations.SyncReferencesLeave : Prop :=
  ∀ (s t : State) (d b : BitVec 5) (off : BitVec 11) (x : Target), s.there [gr b, gr d] = true → s.gp b = false →
    s.me.deferred = none →
    let p := padd (s.gv b) (off.signExtend 64 * 8)
    let blocks (op : MemOp) (dest : List Nat) : Out := .next (t.sentBlocking { t.reqFor {} op x p with dest := dest })
    let plain := s.me.adoptOff || s.me.limit == 0 || s.me.plainWait
    (s.passes p 8 needRS = some (x, t) →
      exec (.ldDWf d b off) s = blocks .wf [gr d] ∧ exec (.ldDWfc d b off) s = blocks .wfc [gr d] ∧
      exec (.ldDWfHelp d b off) s = blocks (if plain then .wf else .help false) [gr d] ∧
      exec (.ldDWfcHelp d b off) s = blocks (if plain then .wfc else .help true) [gr d] ∧
      exec (.ldDPr d b off) s = blocks .probe [gr d, (gr d + 1) % 32] ∧
      exec (.unwatch b off) s = .next (t.sentBlocking (t.reqFor {} .unwatch x p)) ∧
      (t.gp d = false → (t.gv d).toNat % 256 ≠ 255 →
        exec (.watch d b off) s =
          .next (t.sentBlocking (t.reqFor {} (.watch (BitVec.ofNat 8 ((t.gv d).toNat % 256))) x p)))) ∧
    (s.passes p 8 needWS = some (x, t) →
      ((t.gp d && t.hostShared x) = false →
        exec (.stDSf d b off) s =
          .next (t.sent { t.reqFor {} .sf x p with val := t.me.getG (gr d), rel := true }) ∧
        exec (.stDWe d b off) s =
          .next (t.sentBlocking { t.reqFor {} .we x p with val := t.me.getG (gr d), rel := true })) ∧
      exec (.pset b off) s = .next (t.sent { t.reqFor {} .pset x p with rel := true }) ∧
      exec (.pclr b off) s = .next (t.sent (t.reqFor {} .pclr x p))) ∧
    (s.passes p 8 needR = some (x, t) → exec (.pget d b off) s = .next (t.sent { t.reqFor {} .pget x p with dest := [gr d] }))

/-- R224, R278, R48: ldm.d, stm.d, xld and xst: every word is checked before any leaves, and then all leave together, where the port can
track them. -/
def Obligations.MultipleReferencesLeave : Prop :=
  ∀ (s t : State) (d a b : BitVec 5) (imm : BitVec 6) (ws : List (Word × Target)),
    s.there (gr a :: (List.range (b.toNat + 1)).map (fun j => (gr d + j) % 32)) = true → s.gp a = false →
    t.outstanding (tileOf t.cur) + ws.length ≤ 4096 →
    let n := b.toNat + 1
    let p := padd (s.gv a) (imm.signExtend 64 * 8)
    let q := padd (s.gv a) (imm.signExtend 64 * 16)
    (s.passesAll needR (wordsFrom p n) = some (ws, t) →
      exec (.ldmD d a b imm) s =
        .next (t.sentAll (t.reqsFor (.load 8 false) (fun j r => { r with dest := [(gr d + j) % 32] }) 0 ws) 4)) ∧
    (s.passesAll needW (wordsFrom p n) = some (ws, t) →
      (∀ w ∈ ws, t.hostShared w.2 = false) →
      exec (.stmD d a b imm) s =
        .next (t.sentAll (t.reqsFor (.store 8) (fun j r => { r with val := t.me.getG ((gr d + j) % 32) }) 0 ws) 4)) ∧
    (d.toNat < 8 → q.toNat % 16 = 0 → s.there (eKeys (gr d)) = true →
      (s.passesAll needR [q, padd q 8] = some (ws, t) →
        exec (.xld d a imm) s =
          .next (t.sentAll (t.reqsFor (.load 8 false) (fun j r => { r with dest := [32 + 2 * gr d + j] }) 0 ws) 4)) ∧
      (s.passesAll needW [q, padd q 8] = some (ws, t) → (∀ w ∈ ws, t.hostShared w.2 = false) →
        exec (.xst d a imm) s =
          .next (t.sentAll (t.reqsFor (.store 8) (fun j r => { r with val := t.me.getE (2 * gr d + j) }) 0 ws) 4)))

/-- R227, R98, R228, R111, R409: a fence completes when no covered access of its scope is pending, and is BLOCKED until then; a deferred
fault traps first. An ifence discards what has been fetched ahead: no code overwritten before it is fetched after it. -/
def Obligations.Fences : Prop :=
  ∀ s : State,
    let ends (i : Instr) (sc : Scope) (reads : Bool) : Prop :=
      (s.me.deferred = none → s.fenceWaits s.cur sc reads = false → exec i s = .next (s.setMe (s.me.advance 4))) ∧
      (s.me.deferred = none → s.fenceWaits s.cur sc reads = true → exec i s = .next s.waiting) ∧
      (∀ cause p, s.me.deferred = some (cause, p) →
        exec i s = .next ((s.setMe { s.me with deferred := none }).trapAt s.cur cause p))
    ends .fenceAcqTile .tile true ∧ ends .fenceAcqTower .tower true ∧ ends .fenceAcqPkg .pkg true ∧
    ends .fenceAcqDom .dom true ∧ ends .fenceAcqWin .win true ∧ ends .fenceRelTile .tile false ∧
    ends .fenceRelTower .tower false ∧ ends .fenceRelPkg .pkg false ∧ ends .fenceRelDom .dom false ∧
    ends .fenceRelWin .win false ∧ ends .fenceFullTile .tile false ∧ ends .fenceFullTower .tower false ∧
    ends .fenceFullPkg .pkg false ∧ ends .fenceFullDom .all false ∧ ends .fenceFullWin .win false ∧
    (s.me.deferred = none → s.fenceWaits s.cur .all true = false →
      exec .ifence s = .next (s.setMe ({ s.me with fenced := s.codeOld.length }.advance 4))) ∧
    (s.me.deferred = none → s.fenceWaits s.cur .all true = true → exec .ifence s = .next s.waiting) ∧
    (∀ cause p, s.me.deferred = some (cause, p) →
      exec .ifence s = .next ((s.setMe { s.me with deferred := none }).trapAt s.cur cause p))

/-- R229 to R231, R223: an atomic whose reference passes leaves with its operands; d awaits the old value. One that its home refuses for
poison keeps its context waiting, so that its trap is precise (the model's reading, log 40).
R233, R234: the reduce-cell instructions on a cell of a reduction region. -/
def Obligations.AtomicsAndCellsLeave : Prop :=
  (∀ (s t : State) (d a b c : BitVec 5) (x : Target), s.there [gr a, gr b, gr c, 0] = true → s.gp a = false →
      let p := padd (s.gv a) 0
      let go (op : AmoOp) (width : Nat) (c : BitVec 5) : Out :=
        let r := { t.reqFor {} (.amo op width) x p with val := t.me.getG (gr b), cmp := t.me.getG (gr c), dest := [gr d] }
        .next (if t.amoRefused op x (t.me.getG (gr b)) (t.me.getG (gr c)) then t.sentBlocking r else t.sent r)
      let clean := (t.gp b && t.hostShared x) = false
      (s.passes p 8 needRWA = some (x, t) → exec (.amoCas d a b c) s = go .cas 8 c ∧
        (clean →
          exec (.amoAdd d a b) s = go .add 8 0 ∧ exec (.amoAnd d a b) s = go .and 8 0 ∧ exec (.amoOr d a b) s = go .or 8 0 ∧
          exec (.amoXor d a b) s = go .xor 8 0 ∧ exec (.amoMin d a b) s = go .min 8 0 ∧ exec (.amoMax d a b) s = go .max 8 0 ∧
          exec (.amoSwap d a b) s = go .swap 8 0)) ∧
      (s.passes p 4 needRWA = some (x, t) → exec (.amoCasW d a b c) s = go .cas 4 c ∧
        (clean →
          exec (.amoAddW d a b) s = go .add 4 0 ∧ exec (.amoAndW d a b) s = go .and 4 0 ∧ exec (.amoOrW d a b) s = go .or 4 0 ∧
          exec (.amoXorW d a b) s = go .xor 4 0 ∧ exec (.amoMinW d a b) s = go .min 4 0 ∧ exec (.amoMaxW d a b) s = go .max 4 0 ∧
          exec (.amoSwapW d a b) s = go .swap 4 0 ∧
          exec (.amoAddFp32 d a b) s = go .addFp32 4 0 ∧ exec (.amoMaxFp32 d a b) s = go .maxFp32 4 0))) ∧
  (∀ (s t : State) (d a b : BitVec 5) (x : Target), s.there [gr a, gr b] = true → s.gp a = false →
      (s.gv a).toNat % 8 = 0 → loftIdx (ptrIdx (s.gv a)) = false → x.rdx = true →
      let slot (tile : Nat) : Target := { x with dpa := mkDpa false t.package.toNat tile (dpaBank x.dpa) (dpaOff x.dpa) }
      (s.passes (s.gv a) 8 { a := true } = some (x, t) →
        (t.outstanding (tileOf t.cur) + 1024 ≤ 4096 → exec (.rdxInit a) s = .next (t.sentAll
          (t.reqsFor (.store 8) (fun _ r => r) 0 ((List.range 1024).map (fun n => (s.gv a, slot n)))) 4)) ∧
        exec (.rdxAddFp32 a b) s = .next (t.sent { t.reqFor {} .rdxAdd (slot (tileOf t.cur)) (s.gv a) with
          val := ⟨wd ((t.gv b).toNat % 2 ^ 32), t.gp b⟩ }) ∧
        exec (.rdxAddBf16 a b) s = .next (t.sent { t.reqFor {} .rdxAdd (slot (tileOf t.cur)) (s.gv a) with
          val := ⟨wd (widenBf16 ((t.gv b).toNat % 2 ^ 16)), t.gp b⟩ })) ∧
      (s.passes (s.gv a) 8 { r := true, a := true } = some (x, t) →
        exec (.rdxRead d a) s = .next (t.sent { t.reqFor {} .rdxRead x (s.gv a) with dest := [gr d] })))

/-! ### Traps, control registers, system instructions -/

/-- R316, R317: taking a trap: c.cause, c.epc, c.tval and INTRAP are written, the program counter is c.trapvec, and nothing else
of the context changes but what the model keeps of an instruction that issues again, and that a slot which takes another's trap has
itself met one (log 17). brk and trap name the next instruction.
R317, R318: with INTRAP set, without a vector, and with one that fails R179, a trap escalates: the context runs nothing
further and no handler of it is entered.
R316, R320: trap with 0x400 and 0x401 calls a firmware service, as a full fence does once nothing is pending. -/
def Obligations.Traps : Prop :=
  (∀ (s : State) (imm : BitVec 11), s.me.inTrap = false → s.me.trapvec ≠ 0 → targetFault s.me.trapvec = none →
      let entered (cause : Nat) (epc tval : Word) : State := s.setMe
        { s.me with st := .ready, wait := none, again := 0, plainWait := false, barWait := false, seen := [], walked := []
                    hold := none, faulted := s.me.faulted || s.me.handling
                    cause := BitVec.ofNat 8 cause, adopted := decide (s.me.depth ≠ 0), epc := epc
                    tval := tval, inTrap := true, pc := s.me.trapvec }
      exec (.brk imm) s = .next (entered cBREAK (s.me.pc + 4) (wd imm.toNat)) ∧
      (s.me.deferred = none → imm.toNat ≤ 0x3FF → exec (.trap imm) s = .next (entered cSYSCALL (s.me.pc + 4) (wd imm.toNat))) ∧
      (s.me.deferred = none → 0x402 ≤ imm.toNat → exec (.trap imm) s = .next (entered cILLEGAL_OPERAND s.me.pc (wd imm.toNat)))) ∧
  (∀ (s : State) (imm : BitVec 11), s.me.inTrap = true ∨ s.me.trapvec = 0 ∨ targetFault s.me.trapvec ≠ none →
      exec (.brk imm) s = .next (s.setMe
        { s.me with st := .blocked (.escalated cBREAK (s.me.pc + 4) (wd imm.toNat) none), wait := none, again := 0, plainWait := false
                    barWait := false, seen := [], walked := [], hold := none, faulted := s.me.faulted || s.me.handling })) ∧
  (∀ (s : State) (imm : BitVec 11), imm = 0x400 ∨ imm = 0x401 → s.me.deferred = none →
      (s.fenceWaits s.cur .all false = false → exec (.trap imm) s = .next (s.setMe (s.me.block (.service imm.toNat)))) ∧
      (s.fenceWaits s.cur .all false = true → exec (.trap imm) s = .next s.waiting))

/-- R319: tback clears INTRAP and goes on at c.epc; outside a trap it escalates, and so does a c.epc that fails R179. -/
def Obligations.TrapReturn : Prop :=
  ∀ s : State,
    (s.me.inTrap = true → targetFault s.me.epc = none → exec .tback s = .next (s.setMe { s.me with inTrap := false, pc := s.me.epc })) ∧
    (s.me.inTrap = false → exec .tback s = .next (s.setMe (s.me.escalate cILLEGAL_OPERAND s.me.pc 0))) ∧
    (∀ cause, s.me.inTrap = true → targetFault s.me.epc = some cause →
      exec .tback s = .next (s.setMe (s.me.escalate cause s.me.pc s.me.epc)))

/-- R312, R187, R314: reading and writing a control register. `m` is the value that the instruction computes.
R312, R162, R19: what each control register reads as, field by field; a bit that no field names reads 0.
R312, R162, R313: what a write stores in each control register that a program can write, and that it changes no other. -/
def Obligations.ControlRegisters : Prop :=
  (∀ (s : State) (d a b : BitVec 5) (imm : BitVec 6), s.there [gr a] = true → imm.toNat < 17 →
      let n := imm.toNat
      let readOnly := n = 0 ∨ n = 10 ∨ n = 11 ∨ n = 12 ∨ n = 13 ∨ n = 14
      let old := s.creg n
      let written (d : Nat) (v : Word) : Out := .next (s.setMe (((s.me.setCreg n v).setG d ⟨old, false⟩).advance 4))
      let stops (cause : Nat) (tval : Word) : Out := .next (s.trapAt s.cur cause tval)
      let cleared := old &&& ~~~(s.gv a)
      let set := old ||| s.gv a
      exec (.cget d imm) s = .next (s.wrote d old false 4) ∧
      (¬ readOnly → ¬ (n = 8 ∧ s.me.depth ≠ 0) →
        exec (.cseti b imm) s = written 0 (wd b.toNat) ∧
        (s.gp a = false →
          exec (.cset a imm) s = written 0 (s.gv a) ∧ exec (.cclr d a imm) s = written (gr d) cleared ∧
          exec (.cbis d a imm) s = written (gr d) set)) ∧
      (readOnly →
        exec (.cseti b imm) s = stops cILLEGAL_OPERAND (wd n) ∧
        (s.gp a = false →
          exec (.cset a imm) s = stops cILLEGAL_OPERAND (wd n) ∧ exec (.cclr d a imm) s = stops cILLEGAL_OPERAND (wd n) ∧
          exec (.cbis d a imm) s = stops cILLEGAL_OPERAND (wd n))) ∧
      (s.gp a = true →
        exec (.cset a imm) s = stops cPOISON_CONSUMED 0 ∧ exec (.cclr d a imm) s = stops cPOISON_CONSUMED 0 ∧
        exec (.cbis d a imm) s = stops cPOISON_CONSUMED 0) ∧
      (n = 8 → s.me.depth ≠ 0 →
        exec (.cseti b imm) s = stops cILLEGAL_OPERAND (wd b.toNat) ∧
        (s.gp a = false →
          exec (.cset a imm) s = stops cILLEGAL_OPERAND (s.gv a) ∧ exec (.cclr d a imm) s = stops cILLEGAL_OPERAND cleared ∧
          exec (.cbis d a imm) s = stops cILLEGAL_OPERAND set))) ∧
  (∀ s : State,
      let c := s.me
      let status := s.creg 0
      let adopt := s.creg 7
      let coord := s.creg 11
      (status.getLsbD 15 = houseSlot s.cur ∧ status.getLsbD 14 = c.inTrap ∧ status.getLsbD 13 = c.gang ∧
        status.getLsbD 12 = c.handler ∧ status.getLsbD 11 = c.pipe ∧ ∀ i, i < 11 ∨ 15 < i → status.getLsbD i = false) ∧
      ((s.creg 1).getLsbD 8 = c.adopted ∧ (s.creg 1).extractLsb' 0 8 = c.cause ∧ ∀ i, 8 < i → (s.creg 1).getLsbD i = false) ∧
      s.creg 2 = c.epc ∧ s.creg 3 = c.tval ∧ s.creg 4 = c.trapvec ∧ s.creg 5 = c.timeout.setWidth 64 ∧
      s.creg 6 = c.retry.setWidth 64 ∧
      (adopt.getLsbD 8 = c.adoptOff ∧ adopt.extractLsb' 4 3 = c.depth ∧ adopt.extractLsb' 0 3 = c.limit ∧
        ∀ i, i = 3 ∨ i = 7 ∨ 8 < i → adopt.getLsbD i = false) ∧
      s.creg 8 = c.adoptsp &&& ~~~(511 : Word) ∧ s.creg 9 = c.round.setWidth 64 ∧
      ((s.creg 10).extractLsb' 0 16 = c.tenant ∧ (∀ i, 19 < i → (s.creg 10).getLsbD i = false) ∧
        (houseSlot s.cur = true → (s.creg 10).extractLsb' 16 4 = 0xF) ∧
        (houseSlot s.cur = false → s.partOf s.cur < 16 → ((s.creg 10).extractLsb' 16 4).toNat = s.partOf s.cur)) ∧
      (tileOf s.cur < 1024 →
        coord.extractLsb' 0 3 = c.stage ∧ (coord.extractLsb' 3 9).toNat = slotOf s.cur ∧
        (coord.extractLsb' 12 10).toNat = tileOf s.cur ∧ coord.extractLsb' 22 8 = s.package ∧ coord.extractLsb' 30 9 = s.domain ∧
        ∀ i, 38 < i → coord.getLsbD i = false) ∧
      s.creg 12 = s.cycle ∧ s.creg 13 = c.abind.setWidth 64 ∧ s.creg 14 = c.msgvec ∧ s.creg 15 = c.scratch0 ∧
      s.creg 16 = c.scratch1) ∧
  (∀ (c : Ctx) (v : Word),
      c.setCreg 1 v = { c with cause := v.extractLsb' 0 8 } ∧ c.setCreg 2 v = { c with epc := v } ∧
      c.setCreg 3 v = { c with tval := v } ∧ c.setCreg 4 v = { c with trapvec := v } ∧
      c.setCreg 5 v = { c with timeout := v.extractLsb' 0 32 } ∧ c.setCreg 6 v = { c with retry := v.extractLsb' 0 8 } ∧
      c.setCreg 7 v = { c with adoptOff := v.getLsbD 8
                               limit := if 4 < (v.extractLsb' 0 3).toNat then 4 else v.extractLsb' 0 3 } ∧
      c.setCreg 8 v = { c with adoptsp := v &&& ~~~(511 : Word) } ∧ c.setCreg 9 v = { c with round := v.extractLsb' 0 2 } ∧
      c.setCreg 15 v = { c with scratch0 := v } ∧ c.setCreg 16 v = { c with scratch1 := v })

/-- R321: nap: BLOCKED for that many reference cycles, at once for 0, and a trap for a poisoned operand.
R241, R243, R247: tyield lets the other eligible slots go first, dqlen counts the deque, and msgret ends a handler once its references
have been performed or have failed. -/
def Obligations.NapYieldCount : Prop :=
  (∀ (s : State) (a : BitVec 5), s.there [gr a] = true →
      let n := (s.gv a).toNat % 2 ^ 32
      (s.gp a = false → n = 0 → exec (.nap a) s = .next (s.setMe (s.me.advance 4))) ∧
      (s.gp a = false → n ≠ 0 → exec (.nap a) s = .next (s.setMe (s.me.block (.nap (s.cycle.toNat + n))))) ∧
      (s.gp a = true → exec (.nap a) s = .next (s.trapAt s.cur cPOISON_CONSUMED 0))) ∧
  (∀ (s : State) (d : BitVec 5),
      (∃ others : List Nat, exec .tyield s = .next (s.setMe ({ s.me with yield_ := others }.advance 4)) ∧
        ∀ sl, sl ∈ others ↔ sl < 512 ∧ sl ≠ slotOf s.cur ∧ s.myTile.partOf sl = s.partOf s.cur ∧
          (s.ctxAt (ctxId (tileOf s.cur) sl)).st = .ready ∧ (s.ctxAt (ctxId (tileOf s.cur) sl)).spaced s.myTile s.cycle.toNat = true) ∧
      exec (.dqlen d) s =
        .next (s.wrote d (wd (((s.myTile.dequeAt (s.partOf s.cur)).tail - (s.myTile.dequeAt (s.partOf s.cur)).head).toNat)) false 4) ∧
      (s.me.handler = true → s.me.depth = 0 → s.me.deferred = none →
        (s.quiet s.cur = true → exec .msgret s = .next (s.endContext s.cur)) ∧
        (s.quiet s.cur = false → exec .msgret s = .next s.waiting)) ∧
      (s.me.deferred = none → s.me.handler = false ∨ s.me.depth ≠ 0 →
        exec .msgret s = .next (s.trapAt s.cur cILLEGAL_OPERAND 0)))

/-! ### Gangs, borrowed slots, stage queues -/

/-- R250, R251, R252, R253, R331, R334: the gang instructions of a member of a gang at depth 0 whose object has a root; one that has lost
its root traps GANG_LOST; outside a gang, and at d > 0, all five trap ILLEGAL_OPERAND. A gbar that has arrived before a rotation goes on as
gwait.
R170, R253: a context that leaves its gang, and whose slot is then IDLE, is no member of its object any more. -/
def Obligations.GangInstructions : Prop :=
  ((∀ (s : State) (d a : BitVec 5) (o : Nat), s.me.deferred = none → s.me.obj = some o →
      let tile := tileOf s.cur
      let here := s.me.gang = true ∧ s.me.depth = 0 ∧ (s.barAt tile o).rootless = none
      let arrival : Req :=
        { id := s.fresh + 1, src := tile, slot := slotOf s.cur, op := .arrive tile o, dpa := mkDpa true s.package.toNat tile 0 0
          ptr := 0, tenant := s.me.tenant.toNat, part := s.partOf s.cur, rel := true }
      let left : State := { s with fresh := s.fresh + 1, net := s.net ++ [arrival] }
      (here → s.me.arrived = false →
        exec .garrive s = .next (left.setMe ({ s.me with arrived := true }.advance 4)) ∧
        exec (.gwait d) s = .next (s.wrote d s.me.lastStatus false 4) ∧
        (s.me.barWait = false →
          exec (.gbar d) s = .next (left.setMe { s.me with arrived := true, st := .blocked (.barrier (gr d)) }))) ∧
      (here → s.me.arrived = true →
        exec .garrive s = .next s.waiting ∧ exec (.gwait d) s = .next (s.setMe (s.me.block (.barrier (gr d)))) ∧
        (s.me.barWait = false → exec (.gbar d) s = .next s.waiting)) ∧
      (s.me.barWait = true → exec (.gbar d) s = exec (.gwait d) s) ∧
      (∀ root, s.me.gang = true → s.me.depth = 0 → (s.barAt tile o).rootless = some root →
        let lost : Out := .next (s.trapAt s.cur cGANG_LOST (wd (root % 1024)))
        exec .garrive s = lost ∧ exec (.gwait d) s = lost ∧ exec (.gbar d) s = lost) ∧
      (s.me.gang = true → s.me.depth = 0 → s.there [gr a] = true → s.gp a = false →
        let q := (s.gv a).toNat
        (q < 2 ^ 13 → exec (.gquery d a) s = .next (s.wrote d
          (match (s.treeOf tile o).find? (fun x => x.1 == q % 2 ^ 10) with
            | some x => wd (((s.barAt x.1 x.2).members &&& ~~~(s.barAt x.1 x.2).arrived).toNat / 2 ^ (64 * (q / 2 ^ 10)))
            | none => 0) false 4)) ∧
        (2 ^ 13 ≤ q → exec (.gquery d a) s = .next (s.trapAt s.cur cILLEGAL_OPERAND (s.gv a)))) ∧
      (s.me.gang = true → s.me.depth = 0 →
        (s.quiet s.cur = true → exec .gleave s = .next (((s.leaveGang s.cur false).idleSlot s.cur).unstall)) ∧
        (s.quiet s.cur = false → exec .gleave s = .next s.waiting))) ∧
    (∀ (s : State) (d a : BitVec 5), s.me.deferred = none → s.me.gang = false ∨ s.me.depth ≠ 0 →
      let stops : Out := .next (s.trapAt s.cur cILLEGAL_OPERAND 0)
      exec .garrive s = stops ∧ exec (.gwait d) s = stops ∧ exec (.gbar d) s = stops ∧ exec .gleave s = stops ∧
      (s.there [gr a] = true → s.gp a = false → exec (.gquery d a) s = stops))) ∧
  (∀ (s t : State) (o : Nat), s.me.deferred = none → s.me.gang = true → s.me.depth = 0 → s.quiet s.cur = true →
      s.me.obj = some o → slotOf s.cur < 512 → exec .gleave s = .next t →
      t.me.st = .idle ∧ (t.barAt (tileOf s.cur) o).members.getLsbD (slotOf s.cur) = false)

/-- R254, R255, R173: borrowing the lowest IDLE slot of the partition, giving it back, and moving registers to and from it. -/
def Obligations.BorrowedSlots : Prop :=
  ∀ (s : State) (d a b : BitVec 5) (imm : BitVec 6) (sl : Nat),
    let tile := tileOf s.cur
    let free (k : Nat) : Bool :=
      (s.tileAt tile).partOf k == s.partOf s.cur && decide ((s.ctxAt (ctxId tile k)).st = .idle) && k != slotOf s.cur
    let slot := s.ctxAt (ctxId tile sl)
    let held := s.gp a = false ∧ (s.gv a).toNat = sl ∧ sl < 512 ∧ s.me.borrowed.contains sl = true
    let n := imm.toNat
    (2 ≤ s.me.borrowed.length ∨ (∀ k, k < 512 → free k = false) →
      exec (.sborrow d) s = .next (s.wrote d (BitVec.allOnes 64) false 4)) ∧
    (s.me.borrowed.length < 2 → sl < 512 → free sl = true → (∀ k, k < sl → free k = false) →
      exec (.sborrow d) s = .next ((s.setCtxAt (ctxId tile sl)
        { slot with st := .borrowed, aside := some (slot.getG 3, slot.adoptsp), g := [], e := [], pend := [] }).setMe
        (({ s.me with borrowed := s.me.borrowed ++ [sl] }.setG (gr d) ⟨wd sl, false⟩).advance 4))) ∧
    (held → s.there [gr a] = true →
      (∃ t, exec (.sreturn a) s = .next t ∧ t.me.borrowed = s.me.borrowed.erase sl ∧ t.me.pc = s.me.pc + 4 ∧
        (ctxId tile sl ≠ s.cur → (t.ctxAt (ctxId tile sl)).st = .idle)) ∧
      (n < 32 → exec (.xmovFrom d a imm) s = .next (s.setMe ((s.me.setG (gr d) (slot.getG n)).advance 4))) ∧
      (1 ≤ n → n ≤ 32 → exec (.xmovmFrom d a b imm) s = .next (s.setMe ((copyRegs slot s.me (gr b) (gr d) n).advance 4))) ∧
      (gr d < 8 → n < 8 → exec (.xmovxFrom d a imm) s = .next (s.setMe ((copyE slot s.me n (gr d)).advance 4)))) ∧
    (held → ctxId tile sl ≠ s.cur →
      (n < 32 → s.there [gr a, gr b % 32] = true →
        exec (.xmovTo a b imm) s =
          .next ((s.setCtxAt (ctxId tile sl) (slot.setG n (s.me.getG (gr b)))).setMe (s.me.advance 4))) ∧
      (1 ≤ n → n ≤ 32 → s.there (gr a :: regKeys (gr b) n) = true →
        exec (.xmovmTo d a b imm) s =
          .next ((s.setCtxAt (ctxId tile sl) (copyRegs s.me slot (gr b) (gr d) n)).setMe (s.me.advance 4))) ∧
      (gr b < 8 → n < 8 → s.there (gr a :: eKeys (gr b)) = true →
        exec (.xmovxTo a b imm) s =
          .next ((s.setCtxAt (ctxId tile sl) (copyE s.me slot (gr b) n)).setMe (s.me.advance 4)))) ∧
    (s.there [gr a] = true → s.gp a = false → ¬ ((s.gv a).toNat < 512 ∧ s.me.borrowed.contains (s.gv a).toNat = true) →
      exec (.sreturn a) s = .next (s.trapAt s.cur cSLOT_FAULT (s.gv a)))

/-- R256, R257, R171: stage queues: a put appends to the FIFO that the name writes, a get takes the oldest word of the FIFO that it
reads; without room or a word the plain forms wait and the others say 0. -/
def Obligations.StageQueues : Prop :=
  ∀ (s : State) (d a : BitVec 5) (imm : BitVec 6) (x : Nat), imm.toNat < 4 → s.there [gr a] = true →
    s.me.pipe = true →
    (imm.toNat < 2 → s.me.stage.toNat + 1 < s.me.stages ∧ s.me.qdown = some x) →
    (2 ≤ imm.toNat → s.me.stage ≠ 0 ∧ s.me.qup = some x) →
    let q := imm.toNat
    let out := (s.myTile.qsetAt x).fifo q
    let inn := (s.myTile.qsetAt x).fifo ((q + 2) % 4)
    let put (c : Ctx) : Out := .next (((s.setQueue x q (out ++ [s.me.getG (gr a)])).unstall).setMe (c.advance 4))
    (out.length < 16 →
      exec (.qput a imm) s = put s.me ∧ exec (.qputNb d a imm) s = put (s.me.setG (gr d) ⟨1, false⟩)) ∧
    (16 ≤ out.length → exec (.qput a imm) s = .next s.waiting ∧ exec (.qputNb d a imm) s = .next (s.wrote d 0 false 4)) ∧
    (inn = [] → exec (.qget d imm) s = .next s.waiting ∧
      exec (.qgetNb d imm) s = .next (s.setMe (((s.me.setG (gr d) {}).setG ((gr d + 1) % 32) {}).advance 4))) ∧
    (∀ v l, inn = v :: l →
      exec (.qget d imm) s =
        .next (((s.setQueue x ((q + 2) % 4) l).unstall).setMe ((s.me.setG (gr d) v).advance 4)) ∧
      exec (.qgetNb d imm) s =
        .next (((s.setQueue x ((q + 2) % 4) l).unstall).setMe
          (((s.me.setG (gr d) v).setG ((gr d + 1) % 32) ⟨1, false⟩).advance 4))) ∧
    exec (.qlen d imm) s = .next (s.wrote d (wd (inn.length + (16 - out.length) * 2 ^ 8)) false 4)

/-! ### Tasks and messages -/

/-- R238, R242, R159: spawn into the own deque reserves the entry at TAIL and sends the release part; a full deque refuses it. spawn.t
and help leave a request for the unit that answers. -/
def Obligations.SpawnAndHelp : Prop :=
  ∀ (s t : State) (a b : BitVec 5) (ws : List (Word × Target)), s.there [gr a, gr b] = true → s.gp a = false → s.gp b = false →
    s.me.deferred = none → (s.gv a).toNat % 64 = 0 → ptrIdx (s.gv a) < 0x20000 →
    let f := s.gv a
    let tile := tileOf t.cur
    let part := t.partOf t.cur
    let dq := (t.tileAt tile).dequeAt part
    let w (j : Nat) : Target := (ws.map (fun (x : Word × Target) => x.2)).getD j { dpa := 0 }
    (s.passesAll needRWS (wordsFrom f 8) = some (ws, t) →
      (4096 ≤ dq.count → exec (.spawn a) s = .next
        ((t.bumpId.answer (t.spawnAsk f (w 1) tile f) .refused).setMe
          { t.me with st := .blocked (.ref (t.fresh + 1)), wait := some (t.spawnAsk f (w 1) tile f) })) ∧
      (dq.count < 4096 → exec (.spawn a) s = .next
        (((({ t with
          fresh := t.fresh + 2
          net := t.net ++ [spawnRelease (t.fresh + 2) tile (slotOf t.cur) part t.me.tenant.toNat (w 1) f tile part (t.fresh + 1)] }
            : State).setDeque tile part (dq.reserve (t.fresh + 1) f))).setMe (t.me.advance 4))) ∧
      ((t.gv b).toNat < 1024 → exec (.spawnT a b) s = .next (t.sentBlocking (t.spawnAsk f (w 1) (t.gv b).toNat f)))) ∧
    (s.passesAll needRS (wordsFrom f 2) = some (ws, t) →
      exec (.help a) s = .next (t.bumpId.setMe
        (t.me.block (.helping { t.reqFor {} .probe (w 0) f with blocking := true } f none))))

/-- R240, R164: the end of a frame: the state word becomes DONE or FAILED and w0 is filled; then, at depth 0, the slot is IDLE, and
at a depth above, the helper's registers come back as a step of their own. A state word that names another slot is left, with a record.
A context without a frame just ends. A gang member leaves its gang, by texit as a lost one. That the state word and w0 are written in the
step that ends the frame, one after the other, is the model's choice (log 13). -/
def Obligations.FrameEnds : Prop :=
  ∀ (s t : State) (a : BitVec 5) (ws : List (Word × Target)), s.there [gr a, 2] = true → s.me.deferred = none →
    s.quiet s.cur = true → s.marksDone s.cur = true → s.gp 2 = false →
    let finish (u : State) (failed : Bool) : Out := .next ((if u.me.gang then u.leaveGang u.cur failed else u).endContext u.cur)
    (s.gv 2 = 0 → exec (.tdone a) s = finish s false ∧ exec .texit s = finish (s.postEnd s.cur true true 0) true) ∧
    (s.gv 2 ≠ 0 → (s.gv 2).toNat % 64 = 0 → ptrIdx (s.gv 2) < 0x20000 →
      s.passesAll needRWS (wordsFrom (s.gv 2) 8) = some (ws, t) →
      let d := ((ws.map (fun (x : Word × Target) => x.2)).getD 1 { dpa := 8 }).dpa
      let rank := some (tileOf t.cur * 1024 + slotOf t.cur)
      t.gated d rank = false →
      let o := t.openUnit d t.me.tenant.toNat (t.partOf t.cur) (s.gv 2) false rank
      let named := o.quarantined d = false ∧ (o.gval d).p = false ∧ swRunsIn (o.gval d).v (tileOf o.cur) (slotOf o.cur) = true
      let closed (state : Nat) (result : GVal) : State :=
        ((o.putValue d 8 ⟨swWith (o.gval d).v state, false⟩).wroteEvent d).putFull (d - 8) 8 result
      let done : State := closed 3 (s.me.getG (gr a))
      let failed : State := (closed 4 ⟨s.gv 2, true⟩).postEnd o.cur true true (s.gv 2)
      let left (texit : Bool) : State := o.postEnd o.cur texit false (s.gv 2)
      let helper (u : State) : Out := .next (u.setMe (u.me.block (.returning false none))).unstall
      (named → (s.me.depth = 0 → exec (.tdone a) s = finish done false ∧ exec .texit s = finish failed true) ∧
        (s.me.depth ≠ 0 → exec (.tdone a) s = helper done ∧ exec .texit s = helper failed)) ∧
      (¬ named → (s.me.depth = 0 → exec (.tdone a) s = finish (left false) false ∧ exec .texit s = finish (left true) true) ∧
        (s.me.depth ≠ 0 → exec (.tdone a) s = helper (left false) ∧ exec .texit s = helper (left true))))

/-- R244, R248, R249, R99: a message leaves for its tile once no covered access is pending, and the sender waits for the answer; a
multicast leaves for every selected tile; a mailbox delivery leaves as a blocking release. -/
def Obligations.MessagesLeave : Prop :=
  ∀ (s t : State) (d a b c : BitVec 5) (x : Target), s.there ([gr a, gr b, gr c] ++ eKeys (gr d)) = true →
    s.gp a = false → s.gp b = false → s.gp c = false → s.me.deferred = none →
    let w := s.gv a
    let legal := w.toNat < 2 ^ 32 ∧ (houseSlot s.cur = false → w.toNat < 2 ^ 31 ∧ w.toNat / 2 ^ 8 % 2 ^ 4 = 0 ∧ w.toNat % 2 ^ 8 ≠ 0xFF)
    let tiles := mcastTiles (s.me.getE (2 * gr d)).v (s.me.getE (2 * gr d + 1)).v (w.toNat / 2 ^ 19 % 8)
    (legal → s.fenceWaits s.cur .dom false = false →
      exec (.send d a b c) s = .next (({ s with
        fresh := s.fresh + 1
        msgs := s.msgs ++ [s.msgTo (s.fresh + 1) (w.toNat / 2 ^ 12 % 2 ^ 10) w (s.gv b) (s.gv c) (.ctx s.cur (gr d))] }
          : State).setMe (s.me.block (.answer (s.fresh + 1))))) ∧
    (legal → w.toNat / 2 ^ 30 % 2 = 0 → w.toNat / 2 ^ 12 % 2 ^ 7 = 0 → gr d < 8 →
      (s.me.getE (2 * gr d)).p = false → (s.me.getE (2 * gr d + 1)).p = false →
      (tiles = [] → exec (.sendMc d a b c) s = .next (s.setMe (s.me.advance 4))) ∧
      (tiles ≠ [] → s.fenceWaits s.cur .dom false = false →
        exec (.sendMc d a b c) s = .next (({ s with
          fresh := s.fresh + tiles.length
          msgs := s.msgs ++ tiles.zipIdx.map (fun (n, j) => s.msgTo (s.fresh + 1 + j) n w (s.gv b) (s.gv c) (.mcast s.cur)) }
            : State).setMe (s.me.block (.mcast (gr d) (tiles.map (fun n => (n, 0)))))))) ∧
    ((s.gv a).toNat % 16 = 0 → s.passes (s.gv a) 8 needWS = some (x, t) →
      let go (quiet : Bool) : Out := .next (t.sentBlocking
        { t.reqFor {} (.mailbox quiet) x (s.gv a) with val := t.me.getG (gr b), dest := [gr d], rel := true })
      exec (.sendMb d a b) s = go false ∧ exec (.sendMbF d a b) s = go true)

/-! ### The row unit -/

/-- R265: fp32 lanes, rounded in c.round; R268: the functions. -/
def Obligations.RowsFp32 : Prop :=
  ∀ (s : State) (d a b : BitVec 6), s.rowReady [gr d, gr a, gr b] = true → s.myTile.typeOf s.boundAcc = .fp32 →
    let m := s.me.round.toNat
    let two (f : Nat → Nat → Nat) : Out := .next (s.rowSet2 d a b f)
    let one (f : Nat → Nat) : Out := .next (s.rowSet1 d a f)
    exec (.vaddFp32 d a b) s = two (addF 23 m) ∧ exec (.vsubFp32 d a b) s = two (subF 23 m) ∧
    exec (.vmulFp32 d a b) s = two (mulF 23 m) ∧ exec (.vdivFp32 d a b) s = two (divF 23 m) ∧
    exec (.vfmaFp32 d a b) s = .next (s.rowSet3 d a b (fmaF 23 m)) ∧
    exec (.vminFp32 d a b) s = two (minF 23) ∧ exec (.vmaxFp32 d a b) s = two (maxF 23) ∧
    exec (.vabsFp32 d a) s = one (fun x => x % 2 ^ 31) ∧ exec (.vnegFp32 d a) s = one (negF 23) ∧
    exec (.vreluFp32 d a) s = one (reluF 23) ∧ exec (.vexpFp32 d a) s = one expF ∧ exec (.vlogFp32 d a) s = one logF ∧
    exec (.vrcpFp32 d a) s = one (rcpF m) ∧ exec (.vrsqrtFp32 d a) s = one rsqrtF ∧
    exec (.vsqrtFp32 d a) s = one (sqrtF 23 m) ∧ exec (.vtanhFp32 d a) s = one tanhF ∧ exec (.vsigmFp32 d a) s = one sigmF ∧
    (b.toNat < 32 → s.there [gr b] = true →
      let y := (s.me.getG (gr b)).v.toNat % 2 ^ 32
      let p := (s.me.getG (gr b)).p
      let scalar (f : Nat → Nat) : Out := .next (s.withTile (s.myTile.setRow s.boundAcc d.toNat fun i =>
        (el (f (s.myTile.lane s.boundAcc a.toNat i).1.toNat), (s.myTile.lane s.boundAcc a.toNat i).2 || p)))
      exec (.vaddbFp32 d a b) s = scalar (fun v => addF 23 m v y) ∧ exec (.vmulbFp32 d a b) s = scalar (fun v => mulF 23 m v y)) ∧
    (31 < b.toNat → exec (.vaddbFp32 d a b) s = .next (s.trapAt s.cur cILLEGAL_OPERAND (wd (wordVaddbFp32 d a b))) ∧
      exec (.vmulbFp32 d a b) s = .next (s.trapAt s.cur cILLEGAL_OPERAND (wd (wordVmulbFp32 d a b))))

/-- R266: two bf16 lanes in each element.
R267: i32 lanes wrap modulo 2^32; shift amounts are the low five bits. -/
def Obligations.RowsBf16I32 : Prop :=
  (∀ (s : State) (d a b : BitVec 6), s.rowReady [gr d, gr a, gr b] = true → s.myTile.typeOf s.boundAcc = .bf16 →
      let m := s.me.round.toNat
      let lo (x : Nat) : Nat := x % 2 ^ 16
      let hi (x : Nat) : Nat := x / 2 ^ 16 % 2 ^ 16
      let two (f : Nat → Nat → Nat) : Out := .next (s.rowSet2 d a b (fun x y => f (lo x) (lo y) + f (hi x) (hi y) * 2 ^ 16))
      exec (.vaddBf16 d a b) s = two (addF 7 m) ∧ exec (.vsubBf16 d a b) s = two (subF 7 m) ∧
      exec (.vmulBf16 d a b) s = two (mulF 7 m) ∧ exec (.vminBf16 d a b) s = two (minF 7) ∧
      exec (.vmaxBf16 d a b) s = two (maxF 7) ∧
      exec (.vfmaBf16 d a b) s = .next (s.rowSet3 d a b (fun x y z =>
        fmaF 7 m (lo x) (lo y) (lo z) + fmaF 7 m (hi x) (hi y) (hi z) * 2 ^ 16)) ∧
      exec (.vreluBf16 d a) s = .next (s.rowSet1 d a (fun x => reluF 7 (lo x) + reluF 7 (hi x) * 2 ^ 16))) ∧
  (∀ (s : State) (d a b : BitVec 6), s.rowReady [gr d, gr a, gr b] = true → s.myTile.typeOf s.boundAcc = .i32 →
      let two (f : BitVec 32 → BitVec 32 → BitVec 32) : Out :=
        .next (s.withTile (s.myTile.setRow s.boundAcc d.toNat fun i =>
          let x := s.myTile.lane s.boundAcc a.toNat i
          let y := s.myTile.lane s.boundAcc b.toNat i
          (f x.1 y.1, x.2 || y.2)))
      exec (.vaddI32 d a b) s = two (· + ·) ∧ exec (.vsubI32 d a b) s = two (· - ·) ∧ exec (.vmulI32 d a b) s = two (· * ·) ∧
      exec (.vminI32 d a b) s = two (fun x y => if y.slt x then y else x) ∧
      exec (.vmaxI32 d a b) s = two (fun x y => if y.slt x then x else y) ∧
      exec (.vandI32 d a b) s = two (· &&& ·) ∧ exec (.vorI32 d a b) s = two (· ||| ·) ∧ exec (.vxorI32 d a b) s = two (· ^^^ ·) ∧
      exec (.vshlI32 d a b) s = two (fun x y => x <<< (y.toNat % 32)) ∧
      exec (.vsraI32 d a b) s = two (fun x y => x.sshiftRight (y.toNat % 32)) ∧
      exec (.vreluI32 d a) s = .next (s.withTile (s.myTile.setRow s.boundAcc d.toNat fun i =>
        let x := s.myTile.lane s.boundAcc a.toNat i
        (if (0 : BitVec 32).slt x.1 then x.1 else 0, x.2))))

/-- R269, R274: compares write all ones or 0 and consume their operands: a poisoned element, the lowest, traps; vsel chooses. -/
def Obligations.RowCompares : Prop :=
  ∀ (s : State) (d a b : BitVec 6), s.rowReady [gr d, gr a, gr b] = true →
    let clean := s.myTile.poisonedLane s.boundAcc a.toNat = none ∧ s.myTile.poisonedLane s.boundAcc b.toNat = none
    let cmp (f : BitVec 32 → BitVec 32 → Bool) : Out := .next (s.withTile (s.myTile.setRow s.boundAcc d.toNat fun i =>
      (if f (s.myTile.lane s.boundAcc a.toNat i).1 (s.myTile.lane s.boundAcc b.toNat i).1 then BitVec.allOnes 32 else 0, false)))
    (s.myTile.typeOf s.boundAcc = .fp32 → clean →
      exec (.vcmpEqFp32 d a b) s = cmp (fun x y => eqF 23 x.toNat y.toNat) ∧
      exec (.vcmpLtFp32 d a b) s = cmp (fun x y => ltF 23 x.toNat y.toNat) ∧
      exec (.vcmpLeFp32 d a b) s = cmp (fun x y => leF 23 x.toNat y.toNat)) ∧
    (s.myTile.typeOf s.boundAcc = .i32 → clean →
      exec (.vcmpEqI32 d a b) s = cmp (fun x y => x == y) ∧ exec (.vcmpLtI32 d a b) s = cmp (fun x y => x.slt y)) ∧
    (∀ i, s.myTile.typeOf s.boundAcc = .i32 → s.myTile.poisonedLane s.boundAcc a.toNat = some i →
      exec (.vcmpEqI32 d a b) s =
        .next (s.trapAt s.cur cPOISON_CONSUMED (wd (s.boundAcc * 2 ^ 16 + a.toNat * 2 ^ 8 + i)))) ∧
    exec (.vsel d a b) s = .next (s.withTile (s.myTile.setRow s.boundAcc d.toNat fun i =>
      let x := s.myTile.lane s.boundAcc a.toNat i
      let y := s.myTile.lane s.boundAcc b.toNat i
      let z := s.myTile.lane s.boundAcc d.toNat i
      (if z.1 ≠ 0 then x.1 else y.1, x.2 || y.2 || z.2)))

/-- R270: reductions over a row in their stated order, broadcasts, and one element read or written.
R271: moves and conversions between rows, whatever the accumulator's type. That -0 widens from bf16 to +0 is the model's reading (log 33). -/
def Obligations.RowReductionsConversions : Prop :=
  (∀ (s : State) (d a b : BitVec 6), s.rowReady [gr d, gr a, gr b] = true →
      let t := s.myTile
      let m := s.me.round.toNat
      let any := (t.poisonedLane s.boundAcc a.toNat).isSome
      (t.typeOf s.boundAcc = .fp32 →
        exec (.vsumFp32 d a) s = .next (s.rowFill d ((treeSum (addF 23 m) 6 (t.rowList s.boundAcc a.toNat)).headD 0) any) ∧
        exec (.vmaxrFp32 d a) s = .next (s.rowFill d ((treeSum (maxF 23) 6 (t.rowList s.boundAcc a.toNat)).headD 0) any)) ∧
      (t.typeOf s.boundAcc = .i32 →
        let sum : Int := (t.rowList s.boundAcc a.toNat).foldl (fun v x => v + (BitVec.ofNat 32 x).toInt) 0
        exec (.vsumI32 d a) s = .next (s.rowFill d
          (BitVec.ofInt 32 (if sum < -2 ^ 31 then -2 ^ 31 else if 2 ^ 31 - 1 < sum then 2 ^ 31 - 1 else sum)).toNat any)) ∧
      (a.toNat < 32 → s.there [gr a] = true →
        exec (.vbcast d a) s = .next (s.rowFill d ((s.me.getG (gr a)).v.toNat % 2 ^ 32) (s.me.getG (gr a)).p)) ∧
      (b.toNat < 32 → s.there [gr b] = true → (s.me.getG (gr b)).p = false → (s.me.getG (gr b)).v.toNat < 64 →
        let i := (s.me.getG (gr b)).v.toNat
        (d.toNat < 32 → exec (.vget d a b) s =
          .next (s.setMe ((s.me.setG (gr d) ⟨wd (t.lane s.boundAcc a.toNat i).1.toNat, (t.lane s.boundAcc a.toNat i).2⟩).advance 4))) ∧
        (a.toNat < 32 → s.there [gr a] = true → exec (.vset d a b) s = .next (s.withTile (t.setRow s.boundAcc d.toNat fun j =>
          if j = i then (el ((s.me.getG (gr a)).v.toNat % 2 ^ 32), (s.me.getG (gr a)).p) else t.lane s.boundAcc d.toNat j))))) ∧
  (∀ (s : State) (d a b : BitVec 6), s.rowReady [gr d, gr a, gr b] = true →
      exec (.vcvtBf16Fp32 d a b) s = .next (s.rowSet2 d a b (fun x y => toBf16 x + toBf16 y * 2 ^ 16)) ∧
      (b = 0 → exec (.vcvtFp32Bf16 d a b) s = .next (s.rowSet1 d a (fun x => bf16ToFp32 (x % 2 ^ 16)))) ∧
      (b = 1 → exec (.vcvtFp32Bf16 d a b) s = .next (s.rowSet1 d a (fun x => bf16ToFp32 (x / 2 ^ 16 % 2 ^ 16)))) ∧
      exec (.vcvtI32Fp32 d a) s = .next (s.rowSet1 d a (fun x => (BitVec.ofInt 32 (cvtI32 x)).toNat)) ∧
      exec (.vcvtFp32I32 d a) s = .next (s.rowSet1 d a cvtFp32) ∧ exec (.vmov d a) s = .next (s.rowSet1 d a (fun x => x)))

/-- R272, R273, R96: a row load and store of the own loft, in a bank whose format is not raw, aligned and inside its bank, leave as one
reference for each word, and the context goes on. Those of the store write bytes of the run only.
R273, R85: the words of a row load, read from memory, hold the elements of the run: each lane takes the element that stands at its
place in the run, converted from the bank's format. -/
def Obligations.RowMemory : Prop :=
  (∀ (s : State) (d a b : BitVec 6), s.rowReady [gr d, gr a, gr b] = true → a.toNat < 32 → b.toNat < 32 → s.there [gr a, gr b] = true →
      (s.me.getG (gr a)).p = false → (s.me.getG (gr b)).p = false →
      let p := padd (s.me.getG (gr a)).v (s.me.getG (gr b)).v
      let off := ptrOff p
      let tile := tileOf s.cur
      let place := bankOf off
      let fmt := lfmtFmt (s.myTile.fmtAt place.1)
      let len := runBytes fmt (s.myTile.typeOf s.boundAcc).lanes
      let x := s.loftDpa tile off
      let ws := runWords x len p
      let run := s.myTile.runOf s.boundAcc d.toNat (s.myTile.fmtAt place.1)
      (ptrIdx p = 0x3FFFE ∨ ptrIdx p = 0x3F000 + tile) → 0x40000 ≤ off → off < 0x800000 → fmt ≠ fRAW →
      (if fmt = fLG6 then place.2.1 % 24 else off % elemBytes fmt) = 0 → place.2.1 + len ≤ place.2.2 →
      s.loftOwned tile (lownEntry off) (s.partOf s.cur) = true → s.outstanding tile + ws.length ≤ 4096 →
      let row : RowLoad :=
        { id := s.fresh + 1, ctx := s.cur, acc := s.boundAcc, row := d.toNat, type := s.myTile.typeOf s.boundAcc
          fmt := s.myTile.fmtAt place.1, dpa := x, ptr := p, need := ws.length }
      let u := s.bumpId.setMyTile { s.myTile with rows := s.myTile.rows ++ [row] }
      let stores := s.reqsFor (.rowStore 8) (fun _ r => runWrite x len run.1 run.2 r) 0 ws
      exec (.vld d a b) s = .next (u.sentAll (u.reqsFor (.rowLoad (s.fresh + 1)) (fun _ r => r) 0 ws) 4) ∧
      exec (.vst d a b) s = .next (s.sentAll stores 4) ∧
      ∀ r ∈ stores, ∃ n, r.op = .rowStore n ∧ x ≤ r.dpa ∧ r.dpa + n ≤ x + len) ∧
  (∀ (s : State) (x : RowLoad) (i : Nat), i < 64 → x.type ≠ .bf16 → lfmtFmt x.fmt ≠ fRAW →
      (∀ w ∈ wordsOf x.dpa (runBytes (lfmtFmt x.fmt) 64), s.retiredAt w = false) →
      x.words = (wordsOf x.dpa (runBytes (lfmtFmt x.fmt) 64)).map (fun w => (w, s.gval w)) →
      (x.lane i).1 = el (encodeElem x.type.fmt 0 (decodeElem (lfmtFmt x.fmt) (lfmtScale x.fmt)
        (readBits s.mem x.dpa (elemStart (lfmtFmt x.fmt) i) (elemBits (lfmtFmt x.fmt))))))

/-! ### The matrix unit, the copy engine -/

/-- R276, R277, R278: accumulators, versions and e registers. An accumulator instruction needs the slices entry of LOWN; one whose
accumulator a command uses waits.
R276: without the slices entry the matrix instructions trap RIGHTS. -/
def Obligations.Accumulators : Prop :=
  (∀ (s : State) (d a b : BitVec 5), s.ownsMatrix = true →
      (d.toNat < 16 →
        exec (.abind d) s = .next (s.setMe ({ s.me with abind := BitVec.ofNat 5 (16 + d.toNat) }.advance 4)) ∧
        (s.myTile.busyAcc d.toNat = false →
          let typed (x : AType) : Out :=
            .next (s.withTile { s.myTile with atype := Map.set (fun _ => .fp32) s.myTile.atype d.toNat x })
          exec (.atypeFp32 d) s = typed .fp32 ∧ exec (.atypeI32 d) s = typed .i32 ∧ exec (.atypeBf16 d) s = typed .bf16 ∧
          ∃ t, exec (.azero d) s = .next t ∧ t.me = s.me.advance 4 ∧
            (∀ row i, row < 64 → i < 64 → t.myTile.lane d.toNat row i = (0, false)) ∧
            (∀ acc row i, acc ≠ d.toNat → row < 64 → i < 64 → t.myTile.lane acc row i = s.myTile.lane acc row i)) ∧
        (s.myTile.busyAcc d.toNat = true → exec (.azero d) s = .next s.waiting ∧ exec (.atypeI32 d) s = .next s.waiting)) ∧
      exec .aunbind s = .next (s.setMe ({ s.me with abind := 0 }.advance 4)) ∧
      exec (.aqlen d) s = .next (s.wrote d (wd s.myTile.mq.length) false 4) ∧
      (a.toNat < 16 → exec (.aver d a) s = .next (s.wrote d (wd (s.myTile.version a.toNat).toNat) false 4)) ∧
      (d.toNat < 8 → s.there [gr a, gr b] = true →
        exec (.xset d a b) s =
          .next (s.setMe (((s.me.setE (2 * gr d) (s.me.getG (gr a))).setE (2 * gr d + 1) (s.me.getG (gr b))).advance 4))) ∧
      (a.toNat < 8 → s.there (eKeys (gr a)) = true →
        exec (.xgetLo d a) s = .next (s.setMe ((s.me.setG (gr d) (s.me.getE (2 * gr a))).advance 4)) ∧
        exec (.xgetHi d a) s = .next (s.setMe ((s.me.setG (gr d) (s.me.getE (2 * gr a + 1))).advance 4))) ∧
      (d.toNat < 8 → exec (.xclr d) s = .next (s.setMe (((s.me.setE (2 * gr d) {}).setE (2 * gr d + 1) {}).advance 4)))) ∧
  (∀ (s : State) (d a : BitVec 5), s.ownsMatrix = false → d.toNat < 16 → a.toNat < 8 → s.there (gr a :: eKeys (gr a)) = true →
      let stops : Out := .next (s.trapAt s.cur cRIGHTS (wd d.toNat))
      exec (.abind d) s = stops ∧ exec (.azero d) s = stops ∧ exec (.atypeFp32 d) s = stops ∧ exec (.mma d a) s = stops ∧
      exec (.mmaZ d a) s = stops ∧ exec (.await d a) s = stops)

/-- R280, R283, R287, R289, R276: a matrix command whose checks pass takes an entry of the 32-entry queue, and waits for one while
the queue is full; its descriptor is the e register, and a drain's completion pointer g[b].
R286: await goes on once the version is reached, and else waits, until its deadline if c.timeout gives one. -/
def Obligations.MatrixCommands : Prop :=
  (∀ (s : State) (d a b : BitVec 5), s.ownsMatrix = true → s.myTile.matrixDown = false → d.toNat < 16 →
      s.there (gr b :: eKeys (gr a)) = true →
      let lo := s.me.getE (2 * gr a)
      let hi := s.me.getE (2 * gr a + 1)
      let blank (form : MForm) : MCmd :=
        { id := s.fresh + 1, form := form, dst := gr d, part := s.partOf s.cur, tenant := s.me.tenant.toNat, ctx := s.cur }
      let queued (u : State) (m : MCmd) : Out :=
        if 32 ≤ u.myTile.mq.length then .next u.waiting
        else .next (({ u with fresh := u.fresh + 1 }.setMyTile { u.myTile with mq := u.myTile.mq ++ [m] }).setMe (u.me.advance 4))
      let mul (form : MForm) : Out := queued s { blank form with lo := lo.v, hi := hi.v, expver := lo.v.extractLsb' 48 16 }
      (a.toNat < 8 → lo.p = false → hi.p = false →
        (s.myTile.descFault (s.partOf s.cur) (gr d) .mma lo.v hi.v = none → exec (.mma d a) s = mul .mma) ∧
        (s.myTile.descFault (s.partOf s.cur) (gr d) .sp6 lo.v hi.v = none → exec (.mmaSp6 d a) s = mul .sp6) ∧
        (s.myTile.descFault (s.partOf s.cur) (gr d) .sp12 lo.v hi.v = none → exec (.mmaSp12 d a) s = mul .sp12) ∧
        (s.myTile.descFault (s.partOf s.cur) (gr d) .z lo.v hi.v = none → exec (.mmaZ d a) s = mul .z) ∧
        (∀ cause tval, s.myTile.descFault (s.partOf s.cur) (gr d) .mma lo.v hi.v = some (cause, tval) →
          exec (.mma d a) s = .next (s.trapAt s.cur cause tval)) ∧
        (∀ done u, s.doneOk b = some (done, u) → hi.v = 0 → lo.v.toNat % 64 = 0 → s.myTile.copyDown = false →
          s.myTile.busyAcc (gr d) = false →
          exec (.drain d a b) s = queued u { blank .drain with lo := lo.v, done := done } ∧
          (s.myTile.typeOf (gr d) ≠ .i32 → exec (.drainAdd d a b) s = queued u { blank .drainAdd with lo := lo.v, done := done }))) ∧
      (a.toNat < 16 → s.gp b = false → s.myTile.typeOf (gr d) = s.myTile.typeOf (gr a) →
        ((s.gv b).setWidth 16 - s.myTile.version (gr d)).toNat ≤ 32768 →
          exec (.acopy d a b) s = queued s { blank .acopy with src := gr a, expver := (s.gv b).setWidth 16 })) ∧
  (∀ (s : State) (d a : BitVec 5), s.ownsMatrix = true → d.toNat < 16 → s.there [gr a] = true → s.gp a = false →
      let v : BitVec 16 := (s.gv a).setWidth 16
      let ahead := (v - s.myTile.version (gr d)).toNat
      (ahead = 0 ∨ 32768 < ahead → exec (.await d a) s = .next (s.setMe (s.me.advance 4))) ∧
      (ahead ≠ 0 → ahead ≤ 32768 → exec (.await d a) s = .next (s.setMe (s.me.block (.await (gr d) v.toNat
        (if s.me.timeout = 0 then none else some (s.cycle.toNat + 1024 * s.me.timeout.toNat)))))))

/-- R298, R299, R292: a copy command takes an entry of the copy queue, and waits for one without room; an .mm form takes an entry of
the matrix queue too. Its records are the e register, its completion pointer g[b]; the low half of cpy.fill is its pattern, whatever it
is, with its poison. -/
def Obligations.CopyCommandsQueue : Prop :=
  ∀ (s u : State) (d a b : BitVec 5) (imm : BitVec 6) (done : Option Word), s.myTile.copyDown = false → a.toNat < 8 → d.toNat < 8 →
    s.doneOk b = some (done, u) → s.there (eKeys (gr a) ++ eKeys (gr a + 1) ++ [gr b, gr d] ++ eKeys (gr d)) = true →
    let lo := s.me.getE (2 * gr a)
    let hi := s.me.getE (2 * gr a + 1)
    let mask := s.me.getE (2 * gr a + 2)
    let tower := s.me.getE (2 * gr a + 3)
    let masked := a.toNat % 2 = 0 ∧ mask.p = false ∧ tower.p = false ∧ tower.v.toNat < 16
    hi.p = false → hi.v.toNat % 64 = 0 →
    let blank (form : CForm) : CCmd :=
      { id := s.fresh + 1, form := form, lo := lo, hi := hi, ctx := s.cur, part := s.partOf s.cur
        tenant := s.me.tenant.toNat, user := !houseSlot s.cur
        done := done }
    let queued (c : CCmd) : Out :=
      if u.copyRoom then
        .next (({ u with fresh := u.fresh + 1 }.setMyTile { u.myTile with cq := u.myTile.cq ++ [c] }).setMe (u.me.advance 4))
      else .next u.waiting
    exec (.cpyFill a b) s = queued (blank .fill) ∧
    (lo.p = false → lo.v.toNat % 64 = 0 →
    exec (.cpy a b) s = queued (blank .cpy) ∧ exec (.cpyAdd a b) s = queued (blank .add) ∧
    exec (.cpyKeep a b) s = queued (blank .keep) ∧
    (masked → exec (.cpyMc a b) s = queued { blank .mc with mask := mask.v, tower := tower.v.toNat }) ∧
    (s.gp d = false → (s.gv d).toNat < 2 ^ 31 → (s.gv d).toNat / 2 ^ 8 % 2 ^ 4 = 0 → (s.gv d).toNat % 2 ^ 8 ≠ 0xFF →
      exec (.cpySend d a b) s = queued { blank .send with target := s.gv d }) ∧
    (let dlo := s.me.getE (2 * gr d)
     let dhi := s.me.getE (2 * gr d + 1)
     let acc := imm.toNat % 16
     let form := followForm (imm.toNat / 16)
     let own := tileOf s.cur / 64 = tower.v.toNat ∧ mask.v.getLsbD (tileOf s.cur % 64) = true
     let both (c : CCmd) (ghost : Bool) : Out :=
       .next ((({ u with fresh := u.fresh + 2 } : State).setMyTile { u.myTile with
         cq := u.myTile.cq ++ [{ c with follow := some (s.fresh + 2), facc := acc, fdesc := (dlo.v, dhi.v), fform := form }]
         mq := u.myTile.mq ++ [{ id := s.fresh + 2, form := form, dst := acc, lo := dlo.v, hi := dhi.v
                                 expver := dlo.v.extractLsb' 48 16, part := s.partOf s.cur, tenant := s.me.tenant.toNat
                                 ctx := s.cur, waits := true, ghost := ghost }] }).setMe (u.me.advance 4))
     s.myTile.matrixDown = false → s.ownsMatrix = true → dlo.p = false → dhi.p = false →
     s.myTile.descFault (s.partOf s.cur) acc form dlo.v dhi.v = none → u.copyRoom = true → u.myTile.mq.length < 32 →
       exec (.cpyMm d a b imm) s = both (blank .mm) false ∧
       (masked → exec (.cpyMmMc d a b imm) s =
         both { blank .mmMc with mask := mask.v, tower := tower.v.toNat } (!decide own))))

/-- R307, R308, R298: cancelling and querying the commands that g[b] names, or for b = 0 those of the context or of the partition. Both
always complete where the copy engine is in service and the completion pointer is clean and passes its checks; a poisoned g[b] and an
engine out of service trap. -/
def Obligations.CopyCancelQuery : Prop :=
  ∀ (s : State) (d b : BitVec 5), s.there [gr b] = true →
    (∀ (t : State) (done : Option Word), s.gp b = false → s.myTile.copyDown = false → s.doneOk b = some (done, t) →
      let named := t.namedCopies (gr b) (fun x => x.ctx == t.cur)
      let u := (t.cancelCopies named).setMe ((t.me.setG (gr d) ⟨wd named.length, false⟩).advance 4)
      exec (.cpyCancel d b) s = .next u ∧ u.mem = s.mem ∧ u.me.pc = s.me.pc + 4 ∧
      (b = 0 → u.namedCopies 0 (fun x => x.ctx == u.cur) = []) ∧
      exec (.cpyQuery d b) s = .next (t.wrote d (t.copyView (gr b)) false 4)) ∧
    (s.gp b = false → s.myTile.copyDown = false → b = 0 →
      exec (.cpyQuery d b) s = .next (s.wrote d
        (wd (s.myTile.cq.filter (fun c => (c.st == .queued || c.st == .running) && c.part == s.partOf s.cur)).length) false 4)) ∧
    (∀ c l, s.namedCopies (gr b) (fun _ => true) = c :: l → b ≠ 0 → s.copyView (gr b) = wd (copyCode c.st * 2 ^ 62 + c.pos % 2 ^ 48)) ∧
    (s.namedCopies (gr b) (fun _ => true) = [] → b ≠ 0 → s.copyView (gr b) = 0) ∧
    (s.gp b = true → exec (.cpyCancel d b) s = .next (s.trapAt s.cur cPOISON_CONSUMED 0) ∧
      exec (.cpyQuery d b) s = .next (s.trapAt s.cur cPOISON_CONSUMED 0)) ∧
    (s.gp b = false → s.myTile.copyDown = true → exec (.cpyCancel d b) s = .next (s.trapAt s.cur cENGINE_FAULT 0) ∧
      exec (.cpyQuery d b) s = .next (s.trapAt s.cur cENGINE_FAULT 0))

/-! ### Device firmware's instructions -/

/-- R322, R189: outside the house slots every device-firmware instruction traps PRIVILEGE with its word.
R323: hcget and hcset reach the register that the selector names; a selector outside the table traps; that one of 2^32 or
more is outside it is the model's choice (log 28). A write of a deque register completes once the unit has the entries that it reads from the ring in memory (R158). -/
def Obligations.HouseRegisters : Prop :=
  (∀ (s : State) (d a b c : BitVec 5), slotOf s.cur < 504 →
      let stops (w : Nat) : Out := .next (s.trapAt s.cur cPRIVILEGE (wd w))
      exec (.hcget d a) s = stops (wordHcget d a) ∧ exec (.hcset a b) s = stops (wordHcset a b) ∧
      exec (.hstart d a b c) s = stops (wordHstart d a b c) ∧ exec (.hkill d a) s = stops (wordHkill d a) ∧
      exec (.hrec a) s = stops (wordHrec a) ∧ exec (.hquiesce a) s = stops (wordHquiesce a) ∧
      exec (.hpurge d a) s = stops (wordHpurge d a) ∧ exec (.hcopy a b c) s = stops (wordHcopy a b c)) ∧
  (∀ (s : State) (d a b : BitVec 5), 504 ≤ slotOf s.cur → s.there [gr a, gr b] = true → s.gp a = false → s.gp b = false →
      let sel := s.gv a
      let block := sel.toNat / 2 ^ 24 % 2 ^ 8
      let tile := sel.toNat / 2 ^ 14 % 2 ^ 10
      let idx := sel.toNat % 2 ^ 14
      (sel.toNat < 2 ^ 32 → selectorOk block idx = true →
        exec (.hcget d a) s = .next (s.wrote d (s.houseGet block tile idx) (s.housePoison block tile idx) 4) ∧
        (block ≠ 8 → exec (.hcset a b) s = .next (((s.housePut block tile idx (s.gv b)).unstall).setMe
          ((s.housePut block tile idx (s.gv b)).me.advance 4))) ∧
        (∀ u, block = 8 → Hold.waiting s.me.hold = false →
          s.moveDeque tile (idx / 4) (((s.tileAt tile).dequeAt (idx / 4)).written (idx % 4) (s.gv b)) (Hold.lost s.me.hold) =
            (.ok (), u) →
          exec (.hcset a b) s = .next ((u.unstall).setMe (u.me.advance 4)))) ∧
      (2 ^ 32 ≤ sel.toNat ∨ selectorOk block idx = false →
        exec (.hcget d a) s = .next (s.trapAt s.cur cILLEGAL_OPERAND sel) ∧
        exec (.hcset a b) s = .next (s.trapAt s.cur cILLEGAL_OPERAND sel)))

/-- R324, R408: starting and ending a slot, quiescence, dropping wait-list entries. hkill answers 1 for a slot that was
not idle: its parked references are gone, and those in flight are performed for nobody; hpurge answers how many entries it dropped.
R324, R374, R60: hrec posts the record that eight aligned words hold, read on lines that have been opened; hcopy carries words with
their P, W and poison, from lines opened under the key that seals them. -/
def Obligations.HouseSlots : Prop :=
  (∀ (s : State) (d a b c : BitVec 5), 504 ≤ slotOf s.cur → s.there [gr a, gr b, gr c] = true →
      s.gp a = false → s.gp b = false → s.gp c = false →
      let id := (s.gv a).toNat % 2 ^ 19
      ((s.ctxAt id).st = .idle → exec (.hstart d a b c) s =
        let first := (s.ctxAt id).firstStart (tileOf id) (slotOf id) ((s.tileAt (tileOf id)).tenantOf (s.partOf id))
        .next ((s.setCtxAt id { first.startArg (s.gv b) (s.gv c) 0 with fenced := s.codeOld.length }).setMe
          ((s.me.setG (gr d) {}).advance 4))) ∧
      ((s.ctxAt id).st ≠ .idle → exec (.hstart d a b c) s = .next (s.wrote d 1 false 4)) ∧
      ((s.ctxAt id).st = .idle → id ≠ s.cur → exec (.hkill d a) s = .next (s.wrote d 0 false 4)) ∧
      ((s.ctxAt id).st ≠ .idle → id ≠ s.cur → ∃ t, exec (.hkill d a) s = .next t ∧ (t.ctxAt id).st = .idle ∧
        t.me.pc = s.me.pc + 4 ∧ (d ≠ 0 → t.me.getG (gr d) = ⟨1, false⟩) ∧
        (∀ w ∈ t.waits, ¬ (w.req.src = tileOf id ∧ w.req.slot = slotOf id)) ∧
        (∀ r ∈ t.net, r.op.isAccess = true → ¬ (r.src = tileOf id ∧ r.slot = slotOf id)) ∧
        (∀ r ∈ t.refused, r.blocking = true → ¬ (r.src = tileOf id ∧ r.slot = slotOf id))) ∧
      ((s.ctxAt id).st ≠ .idle → id = s.cur → exec (.hkill d a) s = .next (((s.cancelOf id).idleSlot id).unstall)) ∧
      (s.spaceQuiet (tileOf s.cur) ((s.gv a).toNat % 64) = true →
        exec (.hquiesce a) s = .next (s.setMe (s.me.advance 4))) ∧
      (s.spaceQuiet (tileOf s.cur) ((s.gv a).toNat % 64) = false → exec (.hquiesce a) s = .next s.waiting) ∧
      (let drop (w : Wait) : Bool := decide (w.req.tenant = (s.gv a).toNat % 2 ^ 16 ∧ dpaTile w.req.dpa = tileOf s.cur ∧
          dpaPkg w.req.dpa = s.package.toNat)
       exec (.hpurge d a) s = .next (({ s with waits := s.waits.filter (fun w => !drop w) } : State).setMe
         ((s.me.setG (gr d) ⟨wd (s.waits.filter drop).length, false⟩).advance 4)))) ∧
  (∀ (s t : State) (a b c : BitVec 5) (ws : List (Word × Target)), 504 ≤ slotOf s.cur → s.there [gr a, gr b, gr c] = true →
      s.gp a = false → s.gp b = false → s.gp c = false → s.quiet s.cur = true →
      let o := ws.foldl (fun (s : State) w => s.openUnit w.2.dpa s.me.tenant.toNat (s.partOf s.cur) w.1) t
      let w (j : Nat) : Word := o.word ((ws.getD j (0, { dpa := 0 })).2.dpa)
      ((s.gv a).toNat % 64 = 0 → s.passesAll needR (wordsFrom (s.gv a) 8) = some (ws, t) →
        exec (.hrec a) s = .next (({ o with records := o.records ++ [⟨w 0, w 1, w 2, w 3, w 4, w 5, w 6, w 7⟩] } : State).setMe
          (o.me.advance 4))) ∧
      (s.gv c = 0 → exec (.hcopy a b c) s = .next (s.setMe (s.me.advance 4))) ∧
      (∀ (u : State) (vs : List (Word × Target)), (s.gv c).toNat % 64 = 0 →
        s.passesAll needR (wordsFrom (s.gv a) ((s.gv c).toNat / 8)) = some (ws, t) →
        t.passesAll needW (wordsFrom (s.gv b) ((s.gv c).toNat / 8)) = some (vs, u) →
        (∀ v ∈ ws, u.homeWaits v.2.dpa = false ∧ u.homeStop v.2.dpa false = none) →
        (∀ v ∈ vs, u.homeWaits v.2.dpa = false ∧ u.homeStop v.2.dpa true = none) →
        let opened := ws.foldl (fun (s : State) v => s.openSealed v.2.dpa v.1) u
        let crossed := vs.foldl (fun (s : State) v => s.openLoft v.2.dpa v.1) opened
        let carried := (ws.zip vs).foldl (fun (s : State) x => s.carryWord x.1.2.dpa x.2.2.dpa) crossed
        exec (.hcopy a b c) s = .next (carried.setMe (carried.me.advance 4))))

/-! ### Events at the banks, and answers -/

/-- R62, R66, R72, R219, R273: what a reading reference returns at its home, on a line that has been opened. A full word answers; an empty one parks a waiting reference,
or sends a help-qualified one the owner; nothing that only reads changes memory.
R68, R70: parking takes one entry, at the end of the list and with the deadline of c.timeout in units of 1024 cycles; a list
without room refuses. -/
def Obligations.ArrivalsRead : Prop :=
  (∀ (s : State) (k : Nat) (r : Req), s.arrives k r →
      let u := (s.taken k).openLine r
      let got (a : Answer) : Out := .next (u.answer r a).unstall
      let full := (s.tagAt r.dpa).full
      let empties (r' : Req) : Out := .next ((((u.answer r' (.value (s.gval r.dpa))).emptyEvent r.dpa).wake r.dpa).unstall)
      (∀ w sx, r.op = .load w sx → (w = 1 ∨ w = 2 ∨ w = 4 ∨ w = 8) → r.dpa % w = 0 →
        exec (.arriveLoad k) s = got (.value
          ⟨if sx then (BitVec.ofNat (8 * w) (readBytes s.mem r.dpa w)).signExtend 64 else wd (readBytes s.mem r.dpa w),
            (s.tagAt r.dpa).poison⟩)) ∧
      (∀ id, r.op = .rowLoad id → exec (.arriveLoad k) s = got (.value (s.gval r.dpa))) ∧
      (r.op = .probe → exec (.arriveProbe k) s = got (.probed (s.gval r.dpa) full)) ∧
      (r.op = .pget → exec (.arrivePget k) s = got (.value ⟨if full then 1 else 0, false⟩)) ∧
      (r.op = .wf → full = true → exec (.arriveWf k) s = got (.value (s.gval r.dpa))) ∧
      (r.op = .wf → full = false → exec (.arriveWf k) s = .next (u.park r).unstall) ∧
      (r.op = .wfc → full = true → exec (.arriveWfc k) s = empties r) ∧
      (r.op = .wfc → full = false → exec (.arriveWfc k) s = .next (u.park r).unstall) ∧
      (∀ c, r.op = .help c →
        let plain : Req := { r with op := if c then .wfc else .wf }
        (full = true → exec (.arriveHelp k) s = if c then empties plain else .next (u.answer plain (.value (s.gval r.dpa))).unstall) ∧
        (full = false → s.ownerOf r.dpa r.ptr = 0 → exec (.arriveHelp k) s = .next (u.park plain).unstall) ∧
        (full = false → s.ownerOf r.dpa r.ptr ≠ 0 → exec (.arriveHelp k) s = got (.owner (s.ownerOf r.dpa r.ptr))))) ∧
  (∀ (s : State) (r : Req),
      (s.waitRoom r = none → s.park r = s.answer r .refused) ∧
      (∀ shared, s.waitRoom r = some shared → ∃ w : Wait, (s.park r).waits = s.waits ++ [w] ∧ w.req = r ∧ w.shared = shared ∧
        (r.deadline = 0 → w.deadline = none) ∧
        (r.deadline ≠ 0 → ∃ n, w.deadline = some n ∧ s.cycle.toNat + 1024 * r.deadline ≤ 1024 * n ∧
          1024 * n < s.cycle.toNat + 1024 * r.deadline + 1024) ∧
        (s.park r).replies = s.replies ∧ (s.park r).mem = s.mem ∧ (s.park r).tags = s.tags))

/-- R62, R220, R273: a writing reference at its home: the stored bytes, the presence of the word, the answer; every other byte, the
presence of every other word and every register are as before. -/
def Obligations.ArrivalsWrite : Prop :=
  ∀ (s : State) (k : Nat) (r : Req), s.arrives k r →
    let done (t : State) : Prop := t.replies = s.replies ++ [⟨r, .done⟩] ∧ s.sameRegisters t
    let others (t : State) : Prop := ∀ x, wordOf x ≠ wordOf r.dpa → (t.tagAt x).full = (s.tagAt x).full
    (∀ w, r.op = .store w → (w = 1 ∨ w = 2 ∨ w = 4 ∨ w = 8) → r.dpa % w = 0 →
      ∃ t, exec (.arriveStore k) s = .next t ∧ readBytes t.mem r.dpa w = r.val.v.toNat % 2 ^ (8 * w) ∧
        s.sameOutside t r.dpa w ∧ (∀ x, (t.tagAt x).full = (s.tagAt x).full) ∧ done t) ∧
    (∀ n, r.op = .rowStore n → r.dpa % 8 + n ≤ 8 →
      ∃ t, exec (.arriveStore k) s = .next t ∧ readBytes t.mem r.dpa n = r.val.v.toNat % 2 ^ (8 * n) ∧
        s.sameOutside t r.dpa n ∧ (∀ x, (t.tagAt x).full = (s.tagAt x).full) ∧ done t) ∧
    (r.op = .sf → r.dpa % 8 = 0 → s.alone r.dpa →
      ∃ t, exec (.arriveSf k) s = .next t ∧ readBytes t.mem r.dpa 8 = r.val.v.toNat ∧ s.sameOutside t r.dpa 8 ∧
        (t.tagAt r.dpa).full = true ∧ others t ∧ done t) ∧
    (r.op = .we → r.dpa % 8 = 0 → s.alone r.dpa → (s.tagAt r.dpa).full = false →
      ∃ t, exec (.arriveWe k) s = .next t ∧ readBytes t.mem r.dpa 8 = r.val.v.toNat ∧ s.sameOutside t r.dpa 8 ∧
        (t.tagAt r.dpa).full = true ∧ others t ∧ done t) ∧
    (r.op = .we → (s.tagAt r.dpa).full = true → exec (.arriveWe k) s = .next (((s.taken k).openLine r).park r).unstall) ∧
    (r.op = .pset → s.alone r.dpa →
      ∃ t, exec (.arrivePset k) s = .next t ∧ t.mem = s.mem ∧ (t.tagAt r.dpa).full = true ∧ others t ∧ done t) ∧
    (r.op = .pclr → s.alone r.dpa →
      ∃ t, exec (.arrivePclr k) s = .next t ∧ t.mem = s.mem ∧ (t.tagAt r.dpa).full = false ∧ others t ∧ done t)

/-- R229 to R231, R223, R232, R233, R234, R76, R249: atomics, reduce cells, watch records and mailboxes at their homes. Where Midway
combines two adds (log 42: the model leaves free whether it does), the second returns what the first has left. -/
def Obligations.ArrivalsAtomic : Prop :=
  ∀ (s : State) (k : Nat) (r : Req), s.arrives k r →
    (∀ op w, r.op = .amo op w → (w = 4 ∨ w = 8) → r.dpa % w = 0 → op ≠ .addFp32 → op ≠ .maxFp32 →
      (op = .cas → (s.tagAt r.dpa).poison = false ∧ r.cmp.p = false) →
      (r.guest = true → (s.tagAt r.dpa).poison = false ∧ r.val.p = false) → s.combinable k r = [] →
      let n := 8 * w
      let old := BitVec.ofNat n (readBytes s.mem r.dpa w)
      let b := BitVec.ofNat n r.val.v.toNat
      let new : BitVec n :=
        match op with
        | .add => old + b
        | .and => old &&& b
        | .or => old ||| b
        | .xor => old ^^^ b
        | .min => if b.slt old then b else old
        | .max => if old.slt b then b else old
        | .swap => b
        | .cas => if old = BitVec.ofNat n r.cmp.v.toNat then b else old
        | _ => old
      ∃ t, exec (.arriveAmo k) s = .next t ∧ readBytes t.mem r.dpa w = new.toNat ∧ s.sameOutside t r.dpa w ∧
        t.replies = s.replies ++ [⟨r, .value ⟨old.signExtend 64, (s.tagAt r.dpa).poison || r.val.p⟩⟩]) ∧
    (∀ w q, r.op = .amo .add w → (w = 4 ∨ w = 8) → r.dpa % w = 0 → r.guest = false → q.guest = false → s.combinable k r = [q] →
      q.key = r.key → s.windowOf (lineOf r.dpa) = none →
      let n := 8 * w
      let old := BitVec.ofNat n (readBytes s.mem r.dpa w)
      let sum := old + BitVec.ofNat n r.val.v.toNat
      let both := (Config.freeWord s.free).toNat.testBit 0
      ∃ t p p', exec (.arriveAmo k) s = .next t ∧ s.sameOutside t r.dpa w ∧
        readBytes t.mem r.dpa w = (if both then sum + BitVec.ofNat n q.val.v.toNat else sum).toNat ∧
        t.replies = s.replies ++ ⟨r, .value ⟨old.signExtend 64, p⟩⟩ :: if both then [⟨q, .value ⟨sum.signExtend 64, p'⟩⟩] else []) ∧
    (r.op = .rdxAdd → r.dpa % 8 = 0 → ∃ t, exec (.arriveRdxAdd k) s = .next t ∧ s.sameOutside t r.dpa 8 ∧
      t.replies = s.replies ++ [⟨r, .done⟩] ∧
      readBytes t.mem r.dpa 8 = (wd (addF 23 0 ((s.word r.dpa).toNat % 2 ^ 32) (r.val.v.toNat % 2 ^ 32))).toNat) ∧
    (∀ tile, r.op = .rdxRead → tile < 1024 → r.slots.all (fun x => x.1 != tile) = true →
      let d := mkDpa false s.package.toNat tile (dpaBank r.dpa) (dpaOff r.dpa)
      let admitted := (if r.slots = [] then s.noteServed r.dpa r.rank else s).noteServed d bankRank
      let o := admitted.openLine { r with dpa := d }
      s.homeWaits d = false →
        exec (.rdxSlotRead k tile) s = .next { o with net := o.net.set k { r with slots := r.slots ++ [(tile, o.gval d)] } } ∧
        (s.opens { r with dpa := d } = true → o.gval d = s.gval d)) ∧
    (r.op = .rdxRead → 1024 ≤ r.slots.length → exec (.rdxSum k) s =
      .next ((({ s with net := s.net.eraseIdx k } : State).answer r (.value (sumSlots r.slots))).unstall)) ∧
    (∀ type, r.op = .watch type → (∀ x ∈ s.watches, x.dpa ≠ wordOf r.dpa) → s.watchRoom r.dpa = true →
      ∃ t, exec (.arriveWatch k) s = .next t ∧ (t.tagAt r.dpa).watched = true ∧ t.mem = s.mem ∧
        t.replies = s.replies ++ [⟨r, .done⟩] ∧ t.watches = s.watches ++ [
          { num := s.freshId, dpa := wordOf r.dpa, ptr := r.ptr, type := type, tile := r.src, package := s.package.toNat
            tenant := r.tenant, part := r.part, house := r.part == 16 }]) ∧
    (r.op = .unwatch → ∃ t, exec (.arriveUnwatch k) s = .next t ∧ (t.tagAt r.dpa).watched = false ∧ t.mem = s.mem ∧
      t.replies = s.replies ++ [⟨r, .done⟩]) ∧
    (∀ quiet dead v, r.op = .mailbox quiet → (∀ x, s.ownerWord r = some x → s.homeWaits x.1 = false) →
      ((s.taken k).openLine r).mailboxDead r = (dead, v) →
      (dead = false → r.dpa % 8 = 0 → s.alone r.dpa → (v.tagAt r.dpa).full = false →
        ∃ t, exec (.mailboxArrive k) s = .next t ∧ readBytes t.mem r.dpa 8 = r.val.v.toNat ∧ v.sameOutside t r.dpa 8 ∧
          (t.tagAt r.dpa).full = true ∧ t.replies = v.replies ++ [⟨r, .done⟩]) ∧
      (dead = true → exec (.mailboxArrive k) s =
        .next ((v.answer r (if quiet then .status 1 else .failed cDEAD_TARGET)).unstall)))

/-- R16, R17, R96, R51, R69, R70, R73: an answer, the first from its home tile, fills the registers that still await it and lets a blocking context go on; a refusal backs
off, and its context then issues the instruction again, and at the limit it traps; a deadline ends a parked reference; a rotation cancels one. -/
def Obligations.Answers : Prop :=
  (∀ (s : State) (k : Nat) (r : Req) (v : GVal), s.replies[k]? = some ⟨r, .value v⟩ → r.op ≠ .claim → (∀ n, r.op ≠ .rowLoad n) → r.slot < 512 →
    (s.tileAt r.src).point ≠ .g → s.replyFirst k ⟨r, .value v⟩ = true →
    let id := ctxId r.src r.slot
    let c := s.ctxAt id
    let bad := r.op.latches && v.p
    (∀ d, r.blocking = false → r.dest = [d] → d < 32 → d ≠ 0 → c.awaits d = r.id →
      exec (.reply k) s = .next
        (({ s with replies := s.replies.eraseIdx k }.setCtxAt id ((c.setG d v).latchIf bad r.wordPtr)).unstall)) ∧
    (∀ d, r.blocking = true → r.dest = [d] → d < 32 → d ≠ 0 → c.st = .blocked (.ref r.id) → c.parkedAt = none →
      exec (.reply k) s = .next
        (({ s with replies := s.replies.eraseIdx k }.setCtxAt id
          { ((c.setG d v).latchIf bad r.wordPtr).advance r.len with st := .ready, wait := none }).unstall))) ∧
  (∀ (s : State) (k : Nat) (r : Req), s.replies[k]? = some ⟨r, .refused⟩ → r.op ≠ .claim → (∀ n, r.op ≠ .rowLoad n) → r.slot < 512 →
    (s.tileAt r.src).point ≠ .g → s.replyFirst k ⟨r, .refused⟩ = true → r.blocking = true → (s.ctxAt (ctxId r.src r.slot)).st = .blocked (.ref r.id) →
    (s.ctxAt (ctxId r.src r.slot)).parkedAt = none →
    let u : State := { s with replies := s.replies.eraseIdx k }
    (r.tries < r.limit → exec (.reply k) s =
      .next (({ u with refused := s.refused ++ [{ r with tries := r.tries + 1 }] } : State).unstall)) ∧
    (r.limit ≤ r.tries → exec (.reply k) s = .next ((u.trapAt (ctxId r.src r.slot) cWAIT_OVERFLOW r.ptr).unstall))) ∧
  (∀ (s : State) (k : Nat) (r : Req), s.refused[k]? = some r → r.slot < 512 →
    let id := ctxId r.src r.slot
    let u : State := { s with refused := s.refused.eraseIdx k }
    ((s.ctxAt id).st = .blocked (.ref r.id) → exec (.refusalRetry k) s =
      .next (u.setCtxAt id { s.ctxAt id with st := .ready, wait := none, again := r.tries })) ∧
    ((s.ctxAt id).st ≠ .blocked (.ref r.id) → exec (.refusalRetry k) s = .next u)) ∧
  (∀ s : State, s.cycle.toNat % 1024 = 0 → ∃ t, exec .deadlineCheck s = .next t ∧
    (∀ w ∈ t.waits, w.expired s.cycle.toNat = false) ∧ (∀ w ∈ s.waits, w.expired s.cycle.toNat = false → w ∈ t.waits) ∧
    (∀ w ∈ s.waits, w.expired s.cycle.toNat = true → w.pkg = s.package → ⟨w.req, .expired⟩ ∈ t.replies) ∧ t.mem = s.mem ∧ t.tags = s.tags) ∧
  (∀ (s : State) (id n : Nat) (rot : Rotation), 
    s.rotations.find? (fun r => r.left.contains id && s.sweeps r id && (s.tileAt (tileOf id)).clocked) = some rot →
    (s.ctxAt id).st = .blocked (.ref n) →
    s.waits.any (fun w => w.req.id == n) = true →
    ∃ t, exec (.cancel id) s = .next t ∧ (t.ctxAt id).st = .swapping ∧ (t.ctxAt id).pc = (s.ctxAt id).pc ∧ t.mem = s.mem ∧
      ((s.ctxAt id).inTrap = false → (t.ctxAt id).epc = (s.ctxAt id).pc) ∧
      ∀ w ∈ t.waits, w.req.id ≠ n)

/-! ### Events of keys, windows and quarantine -/

/-- R123, R125, R120, R121: a quarantine lifts with every word of its lines full and poisoned; a re-key sweeps line by line and ends
ACTIVE, and its completion word fills after that; a draining key that nothing uses is erased, and no line sealed under it opens any more.
R126, R127, R129, R320: the functions of the seal service. A result goes to g4, an index to g5, and the caller goes on. Which cause a
failing call returns, and that a record with reserved bytes, a length above 4,064 or a poisoned word is rejected, are the model's choice
(log 46). -/
def Obligations.Seal : Prop :=
  ((∀ (s : State) (k : Nat) (q : Quarantine), s.quarantines[k]? = some q →
      ∃ t, exec (.quarantineLift k) s = .next t ∧ t.quarantines = s.quarantines.eraseIdx k ∧ t.recorded 0x000E ∧
        ∀ j n, j < q.len / 64 → n < 8 →
          let x := t.tagAt (mkDpa false s.package.toNat q.tile q.bank (q.lo + 64 * j) + 8 * n)
          x.full = true ∧ x.poison = true) ∧
    (∀ (s : State) (r : Rekey) (w : Window), s.rekeys = [r] → r.started = true → r.finished = false →
      s.windows.find? (fun w => w.slot == r.slot) = some w →
      let d := s.homeOf w.region (w.base + r.next)
      let cur := bit (s.kslotAt r.slot) 27
      let owner := (s.lineKey (lineOf d) - 1) / 2 ^ 32
      fld (s.kslotAt r.slot) 63 62 = 2 →
      (r.next < w.size → s.readsWell = true → dpaLoft d = false →
        s.lineFresh (lineOf d) = true ∨ s.lineKey (lineOf d) = 0 ∨ (owner ≠ 2 ^ 16 ∧ s.keyOpens (lineOf d) owner = true) →
        ∃ t, exec (.rekeySweepLine r.slot) s = .next t ∧ t.rekeys = [{ r with next := r.next + 64 }] ∧ t.mem = s.mem ∧
          (∀ x, (t.tagAt x).full = (s.tagAt x).full ∧ (t.tagAt x).watched = (s.tagAt x).watched) ∧
          (s.windowOf (lineOf d) = some w → Map.get (fun _ => false) t.epochs (lineOf d) = cur)) ∧
      (w.size ≤ r.next → r.done = none →
        ∃ t, exec (.rekeyComplete r.slot) s = .next t ∧ t.rekeys = [] ∧ fld (t.kslotAt r.slot) 63 62 = 1 ∧
          fld (t.kslotAt r.slot) 61 0 = fld (s.kslotAt r.slot) 61 0) ∧
      (w.size ≤ r.next → r.done ≠ none →
        ∃ t, exec (.rekeyComplete r.slot) s = .next t ∧ t.rekeys = [{ r with finished := true }] ∧
          fld (t.kslotAt r.slot) 63 62 = 1)) ∧
    (∀ (s : State) (r : Rekey) (p : Word) (x : Target), s.rekeys = [r] → r.finished = true → r.done = some p →
      s.tables.any (fun x => x.1 == r.tenant) = false → Hold.waiting r.hold = false → Hold.lost r.hold = false →
      s.tenantIn r.tile r.part = r.tenant →
      let v := s.portRead r.tile r.part p
      v.reach r.tile r.part r.tenant p 8 needWS = .ok x → v.open8 x.dpa r.tenant (some (unitRank r.tile)) →
      ∃ t, exec (.rekeyComplete r.slot) s = .next t ∧ t.rekeys = [] ∧ t.filled x.dpa 0 ∧ v.sameOutside t x.dpa 8) ∧
    (∀ (s : State) (slot : Nat), fld (s.kslotAt slot) 63 62 = 3 → s.keyInUse slot = false →
      let owner := slotOwner slot (s.kslotAt slot)
      ∃ t, exec (.keyErase slot) s = .next t ∧ t.kslotAt slot = 0 ∧ t.recorded 0x010A ∧ (∀ w ∈ t.windows, w.slot ≠ slot) ∧
        ∀ line, s.lineKey line = keyMark owner (s.keyGen owner) → t.keyOpens line owner = false)) ∧
  ((∀ (s : State) (ctx : Nat) (base : Word) (slot idx : Nat), s.calls ctx 0x400 1 →
      let x := s.callOf ctx
      (x.g5.toNat = 0 ∨ x.g5.toNat % 8 ≠ 0 ∨ 2 ^ 46 < x.g5.toNat ∨ 16 ≤ x.g6.toNat →
        ∃ t, exec (.sealCreate ctx base slot idx) s = .next t ∧ s.returned t ctx cILLEGAL_OPERAND ∧ t.windows = s.windows) ∧
      (x.g5.toNat ≠ 0 → x.g5.toNat % 8 = 0 → x.g5.toNat ≤ 2 ^ 46 → x.g6.toNat < 16 →
        s.placeFits x base slot idx ((x.g5.toNat + 63) / 64 * 64) = true → s.entryStuck x.part idx = false →
        ∃ t, exec (.sealCreate ctx base slot idx) s = .next t ∧ s.returned t ctx 0 ∧
          (t.ctxAt ctx).getG 5 = ⟨wd idx, false⟩ ∧ fld (t.kslotAt slot) 63 60 = 5 ∧ fld (t.kslotAt slot) 59 44 = x.tenant ∧
          ∃ w ∈ t.windows, w.slot = slot ∧ w.creator = x.tenant ∧ w.idx = idx ∧ w.base = fld base 47 0 ∧
            w.region = fld base 53 48)) ∧
    (∀ (s : State) (ctx : Nat) (w : Window), s.calls ctx 0x400 2 →
      let x := s.callOf ctx
      s.windowAt x x.g5.toNat = some w → x.g7.toNat < 16 → x.g6.toNat < 2 ^ 16 →
        ∃ t, exec (.sealOffer ctx) s = .next t ∧ s.returned t ctx 0 ∧
          ∀ v ∈ t.windows, v.slot = w.slot → (x.g6.toNat, x.g7.toNat) ∈ v.offers) ∧
    (∀ (s : State) (ctx idx : Nat) (w : Window), s.calls ctx 0x400 3 →
      let x := s.callOf ctx
      s.windows.find? (fun w => w.idx == fld x.g5 17 0 && w.creator == fld x.g5 33 18 && s.joinable w) = some w →
        (w.offers.all (fun o => o.1 != x.tenant) = true →
          ∃ t, exec (.sealJoin ctx idx) s = .next t ∧ s.returned t ctx cWINDOW_RIGHTS ∧ t.windows = s.windows) ∧
        (w.offers.any (fun o => o.1 == x.tenant) = true → w.sharers.all (fun y => y.2.1 != x.part) = true →
          (w.sharers.filter (fun y => y.2.1 < 16)).length < 16 → s.indexFree x.part idx = true → s.entryStuck x.part idx = false →
          ∃ t, exec (.sealJoin ctx idx) s = .next t ∧ s.returned t ctx 0 ∧ (t.ctxAt ctx).getG 5 = ⟨wd idx, false⟩ ∧
            ∀ v ∈ t.windows, v.slot = w.slot → (x.tenant, x.part, idx) ∈ v.sharers)) ∧
    (∀ (s : State) (ctx : Nat) (w : Window) (y : Nat × Nat × Nat), s.calls ctx 0x400 4 →
      let x := s.callOf ctx
      s.windowAt x x.g5.toNat = some w → w.sharers.find? (fun y => y.1 == x.g6.toNat) = some y → x.g7.toNat < 16 →
        s.entryBusy y.2.1 y.2.2 = false → (s.asTenant y.2.1 y.1).entryStuck y.2.1 y.2.2 = false →
        ∃ t, exec (.sealRights ctx) s = .next t ∧ s.returned t ctx 0 ∧
          t.mem = (s.withTable y.2.1 y.1 (fun s =>
            let o := s.openEntry y.2.1 y.1 y.2.2
            let e := o.entryAt y.2.1 y.2.2
            o.setEntry y.2.1 y.1 y.2.2 { e with w0 := windowW0 x.g7.toNat w.region (e.gen + 1) w.slot y.1 })).mem) ∧
    (∀ (s : State) (ctx : Nat) (w : Window), s.calls ctx 0x400 5 →
      let x := s.callOf ctx
      let left := w.sharers.filter (fun y => !(y.1 == x.tenant && y.2.1 == x.part && y.2.2 == x.g5.toNat))
      s.windowAt x x.g5.toNat = some w → s.entryBusy x.part x.g5.toNat = false → s.entryStuck x.part x.g5.toNat = false →
        ∃ t, exec (.sealLeave ctx) s = .next t ∧ s.returned t ctx 0 ∧ (∀ v ∈ t.windows, v.slot = w.slot → v.sharers = left) ∧
          (left = [] → fld (t.kslotAt w.slot) 63 62 = 3) ∧
          (left ≠ [] → ∃ r ∈ t.rekeys, r.slot = w.slot ∧ r.part = x.part ∧ r.idx = x.g5.toNat)) ∧
    (∀ (s : State) (ctx : Nat) (w : Window) (p : Target), s.calls ctx 0x400 6 →
      let x := s.callOf ctx
      s.windowAt x x.g5.toNat = some w → (s.portRead x.tile x.part x.g6).reach x.tile x.part x.tenant x.g6 8 needWS = .ok p →
        ∃ t, exec (.sealRekey ctx) s = .next t ∧ s.returned t ctx 0 ∧ ∃ r ∈ t.rekeys, r.slot = w.slot ∧ r.done = some x.g6) ∧
    (∀ (s : State) (ctx : Nat) (plain : Option (List Byte)), s.calls ctx 0x400 7 →
      let x := s.callOf ctx
      let rejected (mem : List Host.Cell) : Prop :=
        ∃ t, exec (.sealImport ctx plain) s = .next t ∧ s.returned t ctx cSEAL_INTEGRITY ∧ t.mem = mem ∧ t.recorded 0x000E
      (∀ n p u, s.span x x.g5 4096 needR = (.error (.cause n p), u) → rejected u.mem) ∧
      (∀ src u, s.span x x.g5 4096 needR = (.ok src, u) → u.spanWaits src = false →
        let o := u.openSpan x src x.g5 false
        let word (j : Nat) : Word := o.word (src.getD j { dpa := 0 }).dpa
        let last : Word := Map.get (fun _ => 0) o.sessions x.g7.toNat
        (o.bounceOk x x.g5 = false ∨ o.sessionOk x = false ∨ word 0 ≤ last ∨ plain = none ∨
          src.any (fun t => (o.readAt t.dpa).1.p) = true ∨ 4064 < (word 1).toNat % 2 ^ 32 ∨ (word 1).toNat / 2 ^ 32 ≠ 0 →
          rejected o.mem) ∧
        (∀ bytes dst w, plain = some bytes → o.bounceOk x x.g5 = true → o.sessionOk x = true →
          src.all (fun t => !(o.readAt t.dpa).1.p) = true → last < word 0 → word 1 = wd bytes.length → bytes.length ≤ 4064 →
          o.span x x.g6 bytes.length needW = (.ok dst, w) → w.spanWaits dst = false →
          let q := w.openSpan x dst x.g6 true
          let seq : Word := w.word (src.headD { dpa := 0 }).dpa
          dst.all (fun t => (q.homeStop t.dpa true).isNone) = true →
          ∃ t, exec (.sealImport ctx plain) s = .next t ∧ s.returned t ctx 0 ∧
            t.mem = ({ q with sessions := Map.set (fun _ => 0) q.sessions x.g7.toNat seq }.storeBytes bytes dst).mem ∧
            Map.get (fun _ => 0) t.sessions x.g7.toNat = seq))) ∧
    (∀ (s : State) (ctx : Nat) (sealed : List Byte) (src dst : List Target) (u v : State), s.calls ctx 0x400 8 →
      let x := s.callOf ctx
      let len := bytesNat ((sealed.drop 8).take 4)
      s.span x x.g5 (max len 8) needR = (.ok src, u) → u.span x x.g6 4096 needW = (.ok dst, v) → sealed.length = 4096 → len ≤ 4064 →
        bytesNat ((sealed.drop 12).take 4) = 0 → v.spanWaits src = false → v.spanWaits dst = false →
        let o := (v.openSpan x src x.g5 false).openSpan x dst x.g6 true
        (v.bounceOk x x.g6 = true → v.sessionOk x = true → src.all (fun t => !(o.readAt t.dpa).1.p) = true →
          dst.all (fun t => (o.homeStop t.dpa true).isNone) = true →
          ∃ t, exec (.sealExport ctx sealed) s = .next t ∧ s.returned t ctx 0 ∧ t.mem = (o.storeBytes sealed dst).mem) ∧
        (v.bounceOk x x.g6 = false ∨ v.sessionOk x = false →
          ∃ t, exec (.sealExport ctx sealed) s = .next t ∧ s.returned t ctx cSEAL_INTEGRITY ∧ t.mem = v.mem)))

/-! ### Events of the buffer ports -/

/-- R35, R45, R47, R54: a fetched entry and a found leaf are cached, and the references that waited look again; a missing page joins the
faults of the port, and a malformed entry is recorded.
R54 to R57, R60: one entry for each page and kind, which counts the ports and whose record goes to the host; a grant goes to all of
the ports and empties their caches of the page; a failure frees the entry with one record; the wake and its hold; the reports free a granted entry.
R49 to R51: a shootdown empties the caches of its port of what it names and awaits what is on its way; its acknowledgement takes 1
off the count word. -/
def Obligations.PortEvents : Prop :=
  ((∀ (s : State) (tile k part idx : Nat), (s.tileAt tile).fetches[k]? = some (part, idx) → (s.tileAt tile).clocked = true →
      ∃ t, exec (.bufferEntryFetch tile k) s = .next t ∧ (t.tileAt tile).fetches = (s.tileAt tile).fetches.eraseIdx k ∧
        ⟨part, idx, (s.openTable tile part (btabBase (s.btabOf part) + 32 * idx)).entryAt part idx⟩ ∈ (t.tileAt tile).bcache ∧
        ∀ id page tv use, tileOf id = tile → s.partOf id = part → (s.ctxAt id).st = .blocked (.port idx page tv use) →
          (t.ctxAt id).st = .ready) ∧
    (∀ (s : State) (tile k : Nat) (w : Walk) (b : BCached), (s.tileAt tile).walks[k]? = some w → w.stale = false → (s.tileAt tile).clocked = true →
      (s.tileAt tile).bcache.find? (fun b => b.part == w.part && b.idx == w.idx) = some b →
      let tk := btabRegion (s.btabOf w.part)
      let ra := w.table + 8 * levelIndex w.off w.level
      let pte := (s.openTable tile w.part ra).regionWord tk ra
      let found := s.pteStep tk b.ent.region w.level pte
      (∀ a, found = .table a →
        ∃ t, exec (.pageWalk tile k) s = .next t ∧
          (t.tileAt tile).walks = (s.tileAt tile).walks.set k { w with level := w.level + 1, table := a }) ∧
      (∀ a nw, found = .leaf a nw →
        ∃ t, exec (.pageWalk tile k) s = .next t ∧ (t.tileAt tile).walks = (s.tileAt tile).walks.eraseIdx k ∧
          ⟨w.part, w.idx, b.ent.gen, w.level, pageNumber w.off w.level, a, nw⟩ ∈ (t.tileAt tile).pcache) ∧
      (found = .miss → (s.tileAt tile).wakes = [] →
        ∃ t, exec (.pageWalk tile k) s = .next t ∧ (t.tileAt tile).walks = (s.tileAt tile).walks.eraseIdx k ∧
          ∃ f ∈ (t.tileAt tile).faults, f.part = w.part ∧ f.idx = w.idx ∧ f.page = w.off / 4096 ∧ f.write = false) ∧
      (found = .malformed → ∃ t, exec (.pageWalk tile k) s = .next t ∧ t.recorded 0x0100))) ∧
  ((∀ (s : State) (tile k : Nat) (f : PortFault), (s.tileAt tile).faults[k]? = some f → f.sent = false →
      let same (q : PageReq) : Bool := q.part == f.part && q.idx == f.idx && q.page == f.page && q.write == f.write
      let tenant := s.tenantIn tile f.part
      (s.pageReqs.find? same = none → ∀ shared, s.pageRoom f.part tenant = some shared →
        let q : PageReq :=
          { num := s.freeEntry, part := f.part, tenant := tenant, idx := f.idx, page := f.page, write := f.write
            ports := [tile], posted := s.cycle.toNat, shared := shared }
        ∃ t, exec (.pageRequest tile k) s = .next t ∧ t.pageReqs = s.pageReqs ++ [q] ∧
          ∀ fn, s.ownerFn tenant = some fn → t.hostPosts = s.hostPosts ++ [(fn, q.w0, q.w1)]) ∧
      (s.pageReqs.find? same = none → s.pageRoom f.part tenant = none →
        ∃ t, exec (.pageRequest tile k) s = .next t ∧ t.pageReqs = s.pageReqs ∧
          (t.tileAt tile).faults = (s.tileAt tile).faults.set k { f with sent := true }) ∧
      (∀ q, s.pageReqs.find? same = some q → q.granted = false → q.ports.contains tile = false →
        ∃ t, exec (.pageRequest tile k) s = .next t ∧ ∀ x ∈ t.pageReqs, x.num = q.num → x.ports = q.ports ++ [tile]) ∧
      (∀ q, s.pageReqs.find? same = some q → q.granted = true → 2 ≤ q.refault →
        ∃ t, exec (.pageRequest tile k) s = .next t ∧ t.recorded 0x0007 ∧ ∀ x ∈ t.pageReqs, x.num ≠ q.num)) ∧
    (∀ (s : State) (entry : Nat) (ptes : List (Word × Word)) (q : PageReq),
      s.pageReqs.find? (fun q => q.num == entry && !q.granted) = some q →
      (q.ports ≠ [] → (s.asTenant q.part q.tenant).grantFits q ptes = true → ∃ t, exec (.pageGrant entry ptes) s = .next t ∧
        (∀ x ∈ t.pageReqs, x.num = entry → x.granted = true ∧ x.woken = [] ∧ x.reported = []) ∧
        ∀ n, ∀ c ∈ (t.tileAt n).pcache, c.part = q.part → c.idx = q.idx → c.overlaps q.page 1 = false) ∧
      (∃ t, exec (.pageRequestFail entry) s = .next t ∧ t.recorded 0x0007 ∧ ∀ x ∈ t.pageReqs, x.num ≠ entry)) ∧
    (∀ (s : State) (entry : Nat) (q : PageReq),
      s.pageReqs.find? (fun q => q.num == entry && !q.granted && decide (q.posted + pageTimeout ≤ s.cycle.toNat)) = some q →
      ∃ t, exec (.pageRequestTimeout entry) s = .next t ∧ t.recorded 0x0007 ∧ ∀ x ∈ t.pageReqs, x.num ≠ entry) ∧
    (∀ (s : State) (tile part idx page : Nat),
      ∃ t, exec (.portWake tile part idx page) s = .next t ∧
        (∀ id tv use, tileOf id = tile → s.partOf id = part → (s.ctxAt id).st = .blocked (.port idx page tv use) →
          (t.ctxAt id).st = .ready) ∧
        (s.waitingFor tile part idx page = 0 →
          (t.tileAt tile).wakes = (s.tileAt tile).wakes ++ [(part, idx, page, s.cycle.toNat + 1024)])) ∧
    (∀ (s : State) (tile : Nat), ∃ t, exec (.wakeHoldExpiry tile) s = .next t ∧
      ∀ w, w ∈ (t.tileAt tile).wakes ↔ (w ∈ (s.tileAt tile).wakes ∧ s.cycle.toNat < w.2.2.2)) ∧
    (∀ (s : State) (entry tile : Nat) (q : PageReq),
      s.pageReqs.find? (fun q => q.num == entry && q.granted && q.woken.contains tile && !q.reported.contains tile) = some q →
      s.rewalked q tile = true →
      ∃ t, exec (.rewalkReport entry tile) s = .next t ∧
        (q.ports.all (fun n => (q.reported ++ [tile]).contains n) = true → ∀ x ∈ t.pageReqs, x.num ≠ entry) ∧
        (q.ports.all (fun n => (q.reported ++ [tile]).contains n) = false →
          ∀ x ∈ t.pageReqs, x.num = entry → x.reported = q.reported ++ [tile]))) ∧
  ((∀ (s : State) (k : Nat) (m : Msg), s.msgs[k]? = some m → m.type = 0xFF → m.away = false → s.messageFirst k m = true →
      fld m.m0 63 62 ≠ 3 →
      ∃ t, exec (.shootdown k) s = .next t ∧
        (t.tileAt m.dst).shoot.length = (s.tileAt m.dst).shoot.length + 1 ∧
        (∀ c ∈ (t.tileAt m.dst).pcache, c.part = fld m.m0 61 58 → c.idx = fld m.m0 57 40 →
          c.overlaps (fld m.m0 33 0) (2 ^ fld m.m0 38 34) = false) ∧
        (fld m.m0 63 62 = 1 → ∀ b ∈ (t.tileAt m.dst).bcache, ¬(b.part = fld m.m0 61 58 ∧ b.idx = fld m.m0 57 40)) ∧
        (fld m.m0 63 62 = 2 → (∀ b ∈ (t.tileAt m.dst).bcache, b.part ≠ fld m.m0 61 58) ∧
          ∀ c ∈ (t.tileAt m.dst).pcache, c.part ≠ fld m.m0 61 58)) ∧
    (∀ (s : State) (k : Nat) (m : Msg), s.msgs[k]? = some m → m.type = 0xFF → m.away = false → s.messageFirst k m = true →
      fld m.m0 63 62 = 3 →
      ∃ t, exec (.shootdown k) s = .next t ∧ t.recorded 0x010B ∧ (t.tileAt m.dst).pcache = (s.tileAt m.dst).pcache) ∧
    (∀ (s : State) (tile : Nat) (x : Shoot) (rest : List Shoot) (c w : Target),
      (s.tileAt tile).shoot = x :: rest → x.purge = none → s.net.any (fun r => x.awaited.contains r.id) = false →
      (s.tileAt tile).clocked = true → Hold.waiting x.hold = false →
      let v := (s.portRead tile 16 (padd x.done 8)).portRead tile 16 x.done
      v.reach tile 16 x.tenant (padd x.done 8) 8 { w := true, s := true } = .ok c →
      v.reach tile 16 x.tenant x.done 8 { w := true, s := true } = .ok w →
      v.gated w.dpa = false → v.word c.dpa ≠ 1 → v.open8 c.dpa x.tenant (some (unitRank tile)) →
      ∃ t, exec (.shootdownAck tile) s = .next t ∧ (t.tileAt tile).shoot = rest ∧
        readBytes t.mem c.dpa 8 = (v.word c.dpa - 1).toNat ∧ v.sameOutside t c.dpa 8))

/-! ### Events of the engines -/

/-- R91, R136 to R139, R281, R282, R283, R286, R288, R289: a ready command starts, takes its chunks one by one, ends with one more version, acts
stale, or drains; after a malformed mask every element is poisoned; an await times out. What a chunk makes of an element: a term of two
log codes, the exact integer sum, saturated, the float sum, rounded once, and the array NaN.
R136 to R140, R142, R283: what a chunk makes of an element of the destination: its terms are those of the kept positions, the element
becomes their exact sum added to it, rounded or saturated once, and every NaN is the array NaN.
R84, R320, R332: a format change is asked for, and made once the partition's commands have ended; an engine out of service ends
its commands, and is back after its self-test. -/
def Obligations.EngineEvents : Prop :=
  ((∀ (s : State) (tile : Nat) (m : MCmd), (s.tileAt tile).clocked = true → (s.tileAt tile).matrixDown = false →
      (s.tileAt tile).inArray = none → firstCmd (s.matrixReady tile) [] (s.tileAt tile).mq = some m →
      (m.form = .acopy →
        ∃ t, exec (.matrixStart tile) s = .next t ∧ (∃ x ∈ (t.tileAt tile).mq, x.id = m.id ∧ x.running = true) ∧
          ∀ row i, row < 64 → i < 64 → (t.tileAt tile).lane m.dst row i = (s.tileAt tile).lane m.src row i) ∧
      (m.form ≠ .acopy → (s.tileAt tile).descFault m.part m.dst m.form m.lo m.hi = none →
        ∃ t, exec (.matrixStart tile) s = .next t ∧ (∃ x ∈ (t.tileAt tile).mq, x.id = m.id ∧ x.running = true ∧ x.chunk = 0 ∧
            x.left = m.chunks (s.tileAt tile)) ∧
          ∀ row i, row < 64 → i < 64 → (t.tileAt tile).lane m.dst row i =
            if m.form = .z then (0, false) else (s.tileAt tile).lane m.dst row i)) ∧
    (∀ (s : State) (tile : Nat) (m : MCmd), (s.tileAt tile).clocked = true → (s.tileAt tile).matrixDown = false →
      (s.tileAt tile).inArray = some m →
      ∃ t, exec (.matrixStart tile) s = .next t ∧ ∃ x ∈ (t.tileAt tile).mq, x.id = m.id ∧ x.running = true ∧
        x.chunk = m.chunk + 1 ∧ x.left = m.left - 1) ∧
    (∀ (s : State) (tile : Nat) (m : MCmd), (s.tileAt tile).clocked = true →
      s.nextCmd tile = none → (s.tileAt tile).firstRunning = some m →
      ∃ t, exec (.matrixComplete tile) s = .next t ∧ (t.tileAt tile).version m.dst = (s.tileAt tile).version m.dst + 1 ∧
        (∀ x ∈ (t.tileAt tile).mq, x.id ≠ m.id) ∧
        (m.badMask = true → t.recorded 0x0010) ∧
        ∀ row i, row < 64 → i < 64 → (t.tileAt tile).lane m.dst row i =
          (((s.tileAt tile).lane m.dst row i).1, ((s.tileAt tile).lane m.dst row i).2 || m.badMask)) ∧
    (∀ (s : State) (tile : Nat) (m : MCmd), (s.tileAt tile).clocked = true →
      firstCmd (fun before m => m.stale && before.all (fun x => x.ghost || x.dst != m.dst) && !s.heldBack tile m.part m.id) []
        (s.tileAt tile).mq = some m →
      ∃ t, exec (.staleCommand tile) s = .next t ∧ (t.tileAt tile).version m.dst = (s.tileAt tile).version m.dst + 1 ∧
        t.recorded (m.staleCode % 2 ^ 16) ∧
        ∀ row i, row < 64 → i < 64 →
          (t.tileAt tile).lane m.dst row i = (((s.tileAt tile).lane m.dst row i).1, true)) ∧
    (∀ (s : State) (tile : Nat) (m : MCmd), (s.tileAt tile).clocked = true →
      (s.tileAt tile).mq.find? (fun m => m.form.isDrain && !(s.tileAt tile).loadsRow m.dst && !s.heldBack tile m.part m.id) = some m →
      ∃ t, exec (.drainRun tile) s = .next t ∧ (t.tileAt tile).version m.dst = (s.tileAt tile).version m.dst + 1 ∧
        (∀ x ∈ (t.tileAt tile).mq, x.id ≠ m.id) ∧ ∃ c ∈ (t.tileAt tile).cq, c.id = m.id ∧ c.hi = ⟨m.lo, false⟩ ∧ c.done = m.done) ∧
    (∀ (s : State) (ctx acc v d : Nat), (s.ctxAt ctx).st = .blocked (.await acc v (some d)) → d ≤ s.cycle.toNat →
      exec (.awaitTimeout ctx) s = .next (s.trapAt ctx cWAIT_TIMEOUT (wd v)))) ∧
  ((∀ (s : State) (tile : Nat) (m : MCmd) (path : Path), (s.tileAt tile).clocked = true → (s.tileAt tile).matrixDown = false →
      (s.tileAt tile).inArray = some m → s.badBonds = [] → m.form.kept = 24 →
      let t₀ := s.tileAt tile
      let la := t₀.fmtAt (descAbank m.lo)
      let lb := t₀.fmtAt 32
      pairPath (lfmtFmt la) (lfmtFmt lb) = some path →
      let first := m.chunk * path.chunk
      let last := min (descK m.lo) (first + path.chunk)
      let a (i k : Nat) := s.elemAt (s.loftDpa tile (descAbank m.lo * 0x20000 + (descArow m.lo + i) * (lfmtPitch la * 8))) (lfmtFmt la) k
      let b (k n : Nat) := s.elemAt (s.loftDpa tile (0x400000 + n * 0x10000 + descBoff m.lo)) (lfmtFmt lb) k
      let term (i n k : Nat) : Term := mulTerm path (lfmtFmt la) (lfmtFmt lb) (a i k).1 (b k n).1
      let ks (i n : Nat) : List Nat := ((List.range (last - first)).map (fun j => first + j)).filter (fun k => term i n k != .none)
      let kmin (i n : Nat) : Option Nat :=
        match m.marks.find? (fun x => x.1 == i * 64 + n) with
        | some x => some x.2
        | none => (ks i n).find? (fun k => (term i n k).special)
      ∃ t, exec (.matrixStart tile) s = .next t ∧ ∀ i n, i < 64 → n < 64 →
        (t.tileAt tile).lane m.dst i n =
          (el (stepChunk path tile (if path = .int then 0 else lfmtScale la + lfmtScale lb) (t₀.lane m.dst i n).1.toNat
            ((ks i n).map (term i n)) (kmin i n) first),
          (t₀.lane m.dst i n).2 || (ks i n).any (fun k => (a i k).2 || (b k n).2))) ∧
    (∀ fa fb x y n1 n2 e1 e2, decodeElem fa 0 x = .log n1 e1 → decodeElem fb 0 y = .log n2 e2 →
      mulTerm .log fa fb x y = .num (n1 != n2) (tableT ((e1 + e2) % 8).toNat) ((e1 + e2) / 8 - 10)) ∧
    (∀ fa fb x y, (decodeElem fa 0 x = .num false 0 0 → (∀ p, decodeElem fb 0 y ≠ .nan p) → mulTerm .log fa fb x y = .none) ∧
      ((∃ p, decodeElem fa 0 x = .nan p) ∨ (∃ p, decodeElem fb 0 y = .nan p) → mulTerm .log fa fb x y = .nan)) ∧
    (∀ (xs : List (Nat × Nat)) (tile acc : Nat) (kmin : Option Nat) (first : Nat), xs ≠ [] →
      stepChunk .int tile 0 acc (xs.map (fun x => mulTerm .int fI8 fI8 x.1 x.2)) kmin first =
        intBits 32 (max (-2 ^ 31) (min (2 ^ 31 - 1) (signed 32 acc + (xs.map (fun x => signed 8 x.1 * signed 8 x.2)).sum)))) ∧
    (∀ (path : Path) (tile : Nat) (scale : Int) (acc : Nat) (terms : List Term) (kmin : Option Nat) (first : Nat), path ≠ .int →
      stepChunk path tile scale acc [] kmin first = acc ∧
      (isNanF 23 acc = true → stepChunk path tile scale acc terms kmin first = acc) ∧
      (isNanF 23 acc = false → .nan ∈ terms ∨ (.inf false ∈ terms ∧ .inf true ∈ terms) →
        stepChunk path tile scale acc terms kmin first = arrayNan tile (kmin.getD first)) ∧
      (∀ neg, isNanF 23 acc = false → .nan ∉ terms → .inf neg ∈ terms → .inf (!neg) ∉ terms →
        stepChunk path tile scale acc terms kmin first = if acc = infF 23 (!neg) then arrayNan tile first else infF 23 neg) ∧
      (∀ neg m e, terms ≠ [] → decodeF 23 acc = .fin neg m e → (∀ x ∈ terms, ∃ n k f, x = .num n k f) →
        let low : Int := terms.foldl (fun (l : Int) x => min l (x.low + scale)) e
        let sum : Int := scaled neg m e low + (terms.map (fun x => x.count (low - scale))).sum
        let negative : Bool := decide (path = .ieee) && neg && m == 0 && terms.all (fun x => x == .num true 0 x.low)
        stepChunk path tile scale acc terms kmin first = roundInt 23 0 sum low negative))) ∧
  ((∀ (s : State) (ctx : Nat), s.calls ctx 0x401 1 → (s.tileAt (tileOf ctx)).formats.all (fun x => x.1 != ctx) = true →
      let x := s.callOf ctx
      let bank := x.g5.toNat
      (2 ≤ bank → bank ≤ 32 → (s.tileAt (tileOf ctx)).lownAt (bank + 14) = s.partOf ctx → fld x.g6 63 32 = 0 →
        fld x.g6 21 19 = 0 → fld x.g6 15 12 = 0 → fld x.g6 23 22 ≠ 3 →
        ∃ t, exec (.loftSetFormat ctx) s = .next t ∧ (t.ctxAt ctx).st = .blocked (.service 0x401) ∧
          ∃ n, (t.tileAt (tileOf ctx)).formats = (s.tileAt (tileOf ctx)).formats ++ [(ctx, bank, x.g6, n)]) ∧
      (2 ≤ bank → bank ≤ 32 → (s.tileAt (tileOf ctx)).lownAt (bank + 14) ≠ s.partOf ctx →
        ∃ t, exec (.loftSetFormat ctx) s = .next t ∧ s.returned t ctx cRIGHTS)) ∧
    (∀ (s : State) (ctx bank n : Nat) (v : Word),
      (s.tileAt (tileOf ctx)).formats.find? (fun x => x.1 == ctx) = some (ctx, bank, v, n) → s.formatDue (tileOf ctx) ctx n = true →
      (s.tileAt (tileOf ctx)).clocked = true →
      ∃ t, exec (.loftFormatApply ctx) s = .next t ∧ s.returned t ctx 0 ∧ (t.tileAt (tileOf ctx)).fmtAt bank = v ∧
        ∀ x ∈ (t.tileAt (tileOf ctx)).formats, x.1 ≠ ctx) ∧
    (∀ (s : State) (tile : Nat), (s.tileAt tile).running = true →
      (∃ t, exec (.engineOutOfService tile true) s = .next t ∧ (t.tileAt tile).copyDown = true ∧
        ∀ c ∈ (t.tileAt tile).cq, (∃ a b, c.st = .ending a b) ∨ c.st = .filled) ∧
      (∃ t, exec (.engineOutOfService tile false) s = .next t ∧ (t.tileAt tile).matrixDown = true ∧ (t.tileAt tile).mq = [])) ∧
    (∀ (s : State) (tile : Nat), (s.tileAt tile).herd.fenced = false →
      ∃ t, exec (.engineSelfTestEnd tile) s = .next t ∧ (t.tileAt tile).copyDown = false ∧ (t.tileAt tile).matrixDown = false))

/-- R300, R59, R302: a copy command starts once its records are read, or ends on them; it walks element by element, waits for a page, and goes
on. A filled word holds its pattern. A write that has waited for its tile is made once that is clocked, or skipped.
R303, R304: a command that has ended fills its completion word with its status and frees its entry; a follow-on becomes ready in
the issuing tile, or is queued in another one. -/
def Obligations.CopyEvents : Prop :=
  ((∀ (s : State) (tile : Nat) (c : CCmd) (ws : List Word) (u : State), (s.tileAt tile).clocked = true →
      (s.tileAt tile).copyFree = true →
      (s.tileAt tile).cq.find? (fun c => decide (c.st = .queued) && !s.heldBack tile c.part c.id) = some c →
      s.readRecord tile c [] ((if c.noSource then [] else wordsFrom c.lo.v 8) ++ wordsFrom c.hi.v 8) = (.ok ws, u) →
      let x : CCmd := { c with st := .running, src := ws.take (ws.length - 8), dst := ws.drop (ws.length - 8), page := none }
      let v := u.updCopy tile c.id (fun _ => some x)
      (v.recordFault tile x = none → ∃ t, exec (.copyStart tile) s = .next t ∧ x ∈ (t.tileAt tile).cq) ∧
      (∀ cause p, v.recordFault tile x = some (cause, p) → ∃ t, exec (.copyStart tile) s = .next t ∧
        ∃ y ∈ (t.tileAt tile).cq, y.id = c.id ∧ y.st = .ending (copyStatus 1 cause allOnes48) p)) ∧
    (∀ (s : State) (tile k : Nat) (c : CCmd), (s.tileAt tile).cq[k]? = some c → s.lateDue tile c = none → c.st = .running →
      c.pos < c.count → (s.tileAt tile).clocked = true → s.handing c.part = false →
      (∀ u, s.copyElem tile c = (.ok (), u) → ∃ t, exec (.copyElement tile k) s = .next t ∧
        ∃ y ∈ (t.tileAt tile).cq, y.id = c.id ∧ y.pos = c.pos + 1) ∧
      (∀ u f q, s.copyElem tile c = (.error (.page f q), u) → ∃ t, exec (.copyElement tile k) s = .next t ∧
        ∃ y ∈ (t.tileAt tile).cq, y.id = c.id ∧ y.st = .suspended ∧ y.page = some f) ∧
      (∀ u n p, s.copyElem tile c = (.error (.cause n p), u) → ∃ t, exec (.copyElement tile k) s = .next t ∧
        ∃ y ∈ (t.tileAt tile).cq, y.id = c.id ∧ y.st = .ending (copyStatus 1 n c.pos) p) ∧
      (∀ e x, c.form = .fill → c.destIndex = some e →
        let v := s.portElem tile c c.dst e
        v.destPlaces tile c e ⟨c.lo.v.toNat, c.lo.p, fRAW, 0⟩ {} [tile] = .ok { now := [x] } →
        x.bits = 64 → x.dpa2 = x.dpa → v.open8 x.dpa c.tenant (some (unitRank tile)) →
        ∃ t, exec (.copyElement tile k) s = .next t ∧ t.filled x.dpa c.lo.v ∧ v.sameOutside t x.dpa 8)) ∧
    (∀ (s : State) (tile k : Nat) (c : CCmd) (l : Late), (s.tileAt tile).cq[k]? = some c → s.lateDue tile c = some l →
      ∃ t, exec (.copyElement tile k) s = .next t ∧ ∃ y ∈ (t.tileAt tile).cq, y.id = c.id ∧
        (c.isMc = false ∨ (s.tileAt l.tile).running = true → y.late = c.late.erase l) ∧
        (c.isMc = true → (s.tileAt l.tile).running = false → l.tile ∈ y.skipped ∧ ∀ z ∈ y.late, z.tile ≠ l.tile)) ∧
    (∀ (s : State) (tile k : Nat) (c : CCmd), (s.tileAt tile).cq[k]? = some c → c.st = .suspended → c.page = none → c.dst ≠ [] →
      (s.tileAt tile).clocked = true → (s.tileAt tile).copyFree = true → s.handing c.part = false →
      ∃ t, exec (.copyResume tile k) s = .next t ∧ ∃ y ∈ (t.tileAt tile).cq, y.id = c.id ∧ y.st = .running ∧ y.pos = c.pos)) ∧
  ((∀ (s : State) (tile k : Nat) (c : CCmd) (status ptr : Word), (s.tileAt tile).cq[k]? = some c →
      (s.tileAt tile).clocked = true → c.page = none → s.handing c.part = false → c.fate = some (status, ptr) →
      c.unsent tile = [] →
      (c.done = none → ∃ t, exec (.copyComplete tile k) s = .next t ∧ ∀ x ∈ (t.tileAt tile).cq, x.id ≠ c.id) ∧
      (∀ p x, c.done = some p →
        let v := s.portRead tile c.part p
        v.reach tile c.part c.tenant p 8 needWS = .ok x → v.open8 x.dpa c.tenant (some (unitRank tile)) →
        ∃ t, exec (.copyComplete tile k) s = .next t ∧ t.filled x.dpa status ∧ v.sameOutside t x.dpa 8 ∧
          ∀ y ∈ (t.tileAt tile).cq, y.id ≠ c.id)) ∧
    (∀ (s : State) (tile k : Nat) (c : CCmd), (s.tileAt tile).cq[k]? = some c → (s.tileAt tile).clocked = true →
      s.handing c.part = false →
      (∀ id, c.follow = some id → c.fsent.contains tile = false → (c.targets tile).contains tile = true → c.st = .running →
        c.over_ tile = true →
        ∃ t, exec (.followOnReady tile k tile) s = .next t ∧
          ∀ m ∈ (t.tileAt tile).mq, m.id = id → m.waits = false ∧ m.ghost = false) ∧
      (∀ dst, c.follow.isSome = true → dst ≠ tile → (c.unsent tile).contains dst = true → (s.tileAt dst).mq.length < 32 →
        (s.tileAt dst).clocked = true →
        ∃ t, exec (.followOnReady tile k dst) s = .next t ∧ ∃ m, (t.tileAt dst).mq = (s.tileAt dst).mq ++ [m] ∧
          m.form = c.fform ∧ m.dst = c.facc ∧ m.lo = c.fdesc.1 ∧ m.hi = c.fdesc.2)))

/-! ### Events of the task, message and barrier units -/

/-- R154, R156, R158 to R161: the newest entry of a deque is popped by its owner and the oldest is given to a thief; a claimed frame starts
its slot; a mark changes the state word.
R50, R158, R163, R164, R238, R239, R409: a reservation takes an entry at TAIL; the release part makes the entry visible, in the ring in
memory too, with its frame UNSTARTED and w0 empty; the help procedure claims an unstarted frame and adopts it one level deeper, takes
the helper's registers back when it has ended, or issues its wait again. -/
def Obligations.TaskEvents : Prop :=
  ((∀ (s : State) (ctx : Nat) (es : List DEntry) (n : Nat) (f : Word) (x : Target), s.takesWork ctx = true →
      let tile := tileOf ctx
      let part := s.partOf ctx
      let d := (s.tileAt tile).dequeAt part
      let left : Deque := { d with tail := d.tail - 1, entries := es }
      let v := (s.setDeque tile part left).portRead tile part (padd f 8)
      d.entries = es ++ [⟨n, f, .visible⟩] → Hold.lost (s.ctxAt ctx).hold = false →
      v.reach tile part (s.tenantFor ctx) (padd f 8) 8 needRWS = .ok x →
      ∃ t r, exec (.pop ctx) s = .next t ∧ (t.ctxAt ctx).st = .blocked (.claim false) ∧ (t.tileAt tile).dequeAt part = left ∧
        t.net = v.net ++ [r] ∧ r.op = .claim ∧ r.dpa = x.dpa ∧ r.ptr = f) ∧
    (∀ (s : State) (k : Nat) (r : Req) (ws : List GVal) (stolen : Bool), s.replies[k]? = some ⟨r, .claimed ws⟩ → r.op = .claim →
      s.replyFirst k ⟨r, .claimed ws⟩ = true →
      (s.tileAt r.src).point ≠ .g → (s.ctxAt (ctxId r.src r.slot)).st = .blocked (.claim stolen) →
      targetFault (ws.getD 0 {}).v = none →
      ∃ t, exec (.frameStart k) s = .next t ∧
        let c := t.ctxAt (ctxId r.src r.slot)
        c.st = .ready ∧ c.pc = (ws.getD 0 {}).v ∧ c.getG 2 = ⟨r.ptr, false⟩ ∧ c.getG 4 = ws.getD 1 {} ∧ c.getG 5 = ws.getD 2 {} ∧
          c.getG 6 = ws.getD 3 {} ∧ c.getG 7 = ws.getD 4 {} ∧ c.getG 3 = (s.ctxAt (ctxId r.src r.slot)).getG 3 ∧ c.inTrap = false ∧
          c.depth = 0 ∧ c.retry = 12 ∧ c.limit = 3 ∧ c.trapvec = 0 ∧ c.tenant = BitVec.ofNat 16 r.tenant ∧ c.own = r.ptr ∧
          c.fenced = s.codeOld.length) ∧
    (∀ (s : State) (k : Nat) (r : Req) (stolen : Bool), s.replies[k]? = some ⟨r, .notClaimed⟩ → r.op = .claim →
      s.replyFirst k ⟨r, .notClaimed⟩ = true →
      (s.tileAt r.src).point ≠ .g → r.slot < 512 → (s.ctxAt (ctxId r.src r.slot)).st = .blocked (.claim stolen) →
      let part := s.partOf (ctxId r.src r.slot)
      ∃ t, exec (.frameStart k) s = .next t ∧ (t.ctxAt (ctxId r.src r.slot)).st = .idle ∧
        ((t.tileAt r.src).dequeAt part).failed =
          (if stolen then (((s.tileAt r.src).dequeAt part).failed + 1) % 64 else ((s.tileAt r.src).dequeAt part).failed)) ∧
    (∀ (s : State) (ctx : Nat), s.takesWork ctx = true → tileOf ctx < 1024 →
      let d := (s.tileAt (tileOf ctx)).dequeAt (s.partOf ctx)
      d.count = 0 → d.wait = none →
      ∃ t victim, exec (.stealAttempt ctx) s = .next t ∧ (t.ctxAt ctx).st = .blocked (.steal victim) ∧ victim ≠ tileOf ctx ∧
        victim < 1024 ∧ (d.attempts < 62 → victim / 64 = tileOf ctx / 64)) ∧
    (∀ (s : State) (ctx victim : Nat), (s.ctxAt ctx).st = .blocked (.steal victim) → victim ≠ tileOf ctx →
      let tile := tileOf ctx
      let part := s.partOf ctx
      let v := (s.tileAt victim).dequeAt part
      let d := (s.tileAt tile).dequeAt part
      (s.tileAt victim).running = true → s.dequeTenant victim part = s.tenantFor ctx →
      (s.tileAt victim).point ≠ .g → (s.tileAt tile).point ≠ .g → s.ownerFirst victim part = false →
      (∀ y ∈ s.served, y.1 = dequeUnit victim → y.2 ≤ tile * 1024 + slotOf ctx) →
      (v.entries = [] → ∃ t, exec (.stealAnswer ctx) s = .next t ∧ (t.ctxAt ctx).st = .idle ∧
        (t.tileAt tile).dequeAt part = { d with
          failed := (d.failed + 1) % 64, wait := if d.failed + 1 = 64 then some (s.cycle.toNat + 4096) else d.wait }) ∧
      (∀ n f es x, v.entries = ⟨n, f, .visible⟩ :: es →
        let u : State := { s.setDeque victim part { v with head := v.head + 1, entries := es } with
          served := s.served ++ [(dequeUnit victim, tile * 1024 + slotOf ctx)] }
        let w := u.portRead tile part (padd f 8)
        Hold.lost (s.ctxAt ctx).hold = false → w.reach tile part (s.tenantFor ctx) (padd f 8) 8 needRWS = .ok x →
        ∃ t r, exec (.stealAnswer ctx) s = .next t ∧ (t.ctxAt ctx).st = .blocked (.claim true) ∧ t.net = w.net ++ [r] ∧ r.op = .claim ∧
          r.dpa = x.dpa ∧ r.ptr = f ∧ (t.tileAt victim).dequeAt part = { v with head := v.head + 1, entries := es })) ∧
    (∀ (s : State) (tile part n : Nat), ((s.tileAt tile).dequeAt part).wait = some n → n ≤ s.cycle.toNat →
      ∃ t, exec (.stealBackoff tile part) s = .next t ∧ ((t.tileAt tile).dequeAt part).wait = none) ∧
    (∀ (s : State) (k : Nat) (m : Mark) (x : Target) (v : Word), s.marks[k]? = some m →
      (s.marks.take k).all (fun y => tileOf y.ctx != tileOf m.ctx) = true →
      (s.tileAt (tileOf m.ctx)).clocked = true → Hold.waiting m.hold = false → Hold.lost m.hold = false →
      let u := s.portRead (tileOf m.ctx) (s.partOf m.ctx) (padd m.frame 8)
      u.reach (tileOf m.ctx) (s.partOf m.ctx) m.tenant (padd m.frame 8) 8 needWS = .ok x →
      u.open8 x.dpa m.tenant (some (unitRank (tileOf m.ctx))) →
      (u.tagAt x.dpa).poison = false → markWord (u.word x.dpa) (tileOf m.ctx) (slotOf m.ctx) m.parked = some v →
      ∃ t, exec (.stateMark k) s = .next t ∧ t.marks = u.marks.eraseIdx k ∧ readBytes t.mem x.dpa 8 = v.toNat ∧
        u.sameOutside t x.dpa 8 ∧ swState v = if m.parked.isSome then 2 else 1)) ∧
  ((∀ (s : State) (k : Nat) (r : Req) (dest part : Nat), s.net[k]? = some r → r.op = .spawn dest part 0 → s.mayArrive k r = true →
      (s.tileAt dest).running = true →
      let d := (s.tileAt dest).dequeAt part
      (d.count < 4096 → ∃ t id q, exec (.dequeReserve k) s = .next t ∧ (t.tileAt dest).dequeAt part = d.reserve id r.val.v ∧
        t.net = s.net.eraseIdx k ++ [q] ∧ q.id = r.id ∧ q.op = .spawn dest part id ∧ q.dpa = r.cmp.v.toNat ∧ q.ptr = r.val.v ∧
        t.replies = s.replies ++ [⟨r, .done⟩]) ∧
      (4096 ≤ d.count → ∃ t, exec (.dequeReserve k) s = .next t ∧ t.replies = s.replies ++ [⟨r, .refused⟩])) ∧
    (∀ (s u : State) (k : Nat) (r : Req) (dest part entry : Nat) (place : Option Nat), s.net[k]? = some r → s.mayArrive k r = true →
      r.op = .spawn dest part entry → entry ≠ 0 → Hold.waiting r.hold = false →
      let p := ((s.tileAt dest).dequeAt part).placeOf entry
      s.ringPlace dest part r.tenant p (Hold.lost r.hold) = (.ok place, u) → u.arrives k r → u.net = s.net →
      r.dpa % 8 = 0 → 8 ≤ r.dpa → u.alone r.dpa → u.alone (r.dpa - 8) → u.retiredAt (r.dpa - 8) = false →
      ¬(bit (u.word r.dpa) 63 = true ∧ (swState (u.word r.dpa) = 1 ∨ swState (u.word r.dpa) = 2)) →
      let b := (((u.taken k).openLine r).spawnHome r dest part entry).answer r .done
      (readBytes b.mem r.dpa 8 = (swUnstarted (u.word r.dpa)).toNat ∧ u.sameOutside b r.dpa 8 ∧
        (b.tagAt (r.dpa - 8)).full = false ∧ b.replies = u.replies ++ [⟨r, .done⟩] ∧
        ∀ e ∈ ((b.tileAt dest).dequeAt part).entries, e.id = entry → e.st = .visible) ∧
      (place = none → exec (.spawnRelease k) s = .next b.unstall) ∧
      (∀ e x, place = some x →
        ((b.tileAt dest).dequeAt part).entries.find? (fun e => e.id == entry && decide (e.st = .visible)) = some e →
        b.open8 x r.tenant →
        ∃ t, exec (.spawnRelease k) s = .next t ∧ readBytes t.mem x 8 = e.frame.toNat ∧ b.sameOutside t x 8)) ∧
    (∀ (s : State) (ctx : Nat) (r : Req) (own : Word), (s.ctxAt ctx).st = .blocked (.helping r own none) → s.quiet ctx = true →
      (s.tileAt (tileOf ctx)).clocked = true →
      let c := s.ctxAt ctx
      (c.deferred.isSome = true → ∃ t, exec (.helpProcedure ctx) s = .next t ∧ (t.ctxAt ctx).st = .ready ∧ (t.ctxAt ctx).pc = c.pc ∧
        (t.ctxAt ctx).deferred = c.deferred ∧ t.net = s.net) ∧
      (c.deferred = none → ∀ u : State,
        let found := s.helpLoop ctx (if c.adoptOff then 0 else c.limit.toNat) (if r.op = .probe then 1 else 8) 1 own
        (found = (.reissue, u) → r.op = .probe → ∃ t, exec (.helpProcedure ctx) s = .next t ∧ (t.ctxAt ctx).st = .ready ∧
          (t.ctxAt ctx).pc = (u.ctxAt ctx).pc + wd r.len ∧ t.net = u.net) ∧
        (found = (.reissue, u) → r.op ≠ .probe → ∃ t, exec (.helpProcedure ctx) s = .next t ∧ (t.ctxAt ctx).st = .ready ∧
          (t.ctxAt ctx).pc = (u.ctxAt ctx).pc ∧ (t.ctxAt ctx).wait = none ∧ (t.ctxAt ctx).plainWait = true ∧ t.net = u.net) ∧
        (∀ f d, found = (.claim f d, u) → u.open8 d c.tenant.toNat →
          ∃ t ws, exec (.helpProcedure ctx) s = .next t ∧ (t.ctxAt ctx).st = .blocked (.adopting r f ws false none) ∧
            readBytes t.mem d 8 = (swRunning (u.word d) (tileOf ctx) (slotOf ctx) ((u.ctxAt ctx).depth.toNat + 1)).toNat ∧
            u.sameOutside t d 8 ∧ ws = [2, 4, 5, 6, 7].map (fun j => u.gval (d - 8 + 8 * j))))) ∧
    (∀ (s : State) (ctx : Nat) (r : Req) (f : Word) (ws : List GVal) (ts : List Target) (u : State),
      (s.ctxAt ctx).st = .blocked (.adopting r f ws false none) → s.quiet ctx = true → (s.tileAt (tileOf ctx)).clocked = true →
      let part := s.partOf ctx
      let tenant := (s.ctxAt ctx).tenant.toNat
      let sp := (s.ctxAt ctx).adoptsp
      s.unitReads (tileOf ctx) part tenant needWS (wordsFrom sp 50) = (.ok ts, u) →
      let ds := ts.map (fun t => t.dpa)
      let rank := some (unitRank (tileOf ctx))
      let o := ds.foldl (fun (s : State) x => s.openUnit x tenant part sp true rank) u
      let c := o.ctxAt ctx
      ds.any (fun x => u.gated x rank) = false → ds.any o.quarantined = false → ds.any (fun x => (o.homeStop x true).isSome) = false →
      targetFault (ws.headD {}).v = none →
      ∃ t, exec (.helpProcedure ctx) s = .next t ∧ (t.ctxAt ctx).st = .ready ∧ (t.ctxAt ctx).depth = c.depth + 1 ∧
        (t.ctxAt ctx).adoptsp = c.adoptsp + 512 ∧ (t.ctxAt ctx).pc = (ws.headD {}).v ∧ (t.ctxAt ctx).getG 2 = ⟨f, false⟩ ∧
        (t.ctxAt ctx).getG 3 = c.getG 3 ∧ ∀ j, j < 4 → (t.ctxAt ctx).getG (4 + j) = ws.getD (1 + j) {}) ∧
    (∀ (s : State) (ctx : Nat) (lost : Bool) (ws : List GVal) (u : State), (s.ctxAt ctx).st = .blocked (.returning lost none) →
      s.quiet ctx = true → (s.tileAt (tileOf ctx)).clocked = true →
      s.stackWords ctx lost [] (wordsFrom ((s.ctxAt ctx).adoptsp - 512) 50) = (.ok ws, u) →
      exec (.helpProcedure ctx) s = .next (u.setCtxAt ctx ((s.ctxAt ctx).unadopt ws)).unstall))

/-- R246, R247: a message starts a handler in the lowest idle slot of its class, waits in the inbox, is refused, or finds a dead tile;
a queued one starts a handler later.
R167, R169: an arrival sets its bit, and completes a root with a release; a release lets each waiting member go on with the status;
the launcher starts the members of a gang one by one. -/
def Obligations.MessageEvents : Prop :=
  ((∀ (s : State) (k : Nat) (m : Msg) (id d : Nat), s.msgs[k]? = some m → m.type ≠ 0xFF → m.away = false → s.messageFirst k m = true →
      m.origin = .ctx id d → d < 32 → (s.ctxAt id).st = .blocked (.answer m.id) →
      (s.tileAt (tileOf id)).point ≠ .g →
      let to_ := s.tileAt m.dst
      let e := s.vectorFor m
      (to_.running = false → exec (.messageArrive k) s =
        .next (({ s with msgs := s.msgs.eraseIdx k }.trapAt id cDEAD_TARGET m.target).unstall)) ∧
      (to_.running = true → vectOk m.table e = false → exec (.messageArrive k) s =
        .next (({ s with msgs := s.msgs.eraseIdx k }.trapAt id cILLEGAL_OPERAND m.target).unstall)) ∧
      (to_.running = true → vectOk m.table e = true → m.user = true → to_.tenantOf m.table ≠ m.tenant →
        exec (.messageArrive k) s = .next (({ s with msgs := s.msgs.eraseIdx k }.trapAt id cRIGHTS m.target).unstall)) ∧
      (to_.running = true → vectOk m.table e = true → (m.user && to_.tenantOf m.table != m.tenant) = false →
        let queues := to_.point = .g ∨ s.turning m.table = true ∨ to_.inbox.any (fun x => x.table == m.table) = true ∨
          s.idleOf m.dst m.table = none
        (¬queues → ∀ sl, s.idleOf m.dst m.table = some sl → ∃ t, exec (.messageArrive k) s = .next t ∧
          t.handles (ctxId m.dst sl) e m ∧ (t.ctxAt (ctxId m.dst sl)).fenced = s.codeOld.length ∧
          (t.ctxAt id).st = .ready ∧ (t.ctxAt id).pc = (s.ctxAt id).pc + 4 ∧ (t.ctxAt id).getG d = {}) ∧
        (queues → to_.inboxRoom m.table = true → ∃ t, exec (.messageArrive k) s = .next t ∧
          (t.tileAt m.dst).inbox = to_.inbox ++ [m] ∧ (t.ctxAt id).st = .ready) ∧
        (queues → to_.inboxRoom m.table = false → m.tries < m.limit →
          ∃ t, exec (.messageArrive k) s = .next t ∧ t.refusedMsgs = s.refusedMsgs ++ [{ m with tries := m.tries + 1 }] ∧
            t.ctxAt id = s.ctxAt id) ∧
        (queues → to_.inboxRoom m.table = false → m.limit ≤ m.tries → exec (.messageArrive k) s =
          .next (({ s with msgs := s.msgs.eraseIdx k }.trapAt id cMSG_REJECT m.target).unstall)))) ∧
    (∀ (s : State) (ctx : Nat) (m : Msg) (id d : Nat), m.origin = .ctx id d →
      let tile := tileOf ctx
      let part := s.partOf ctx
      (s.tileAt tile).clocked = true → s.turning part = false → s.idleOf tile part = some (slotOf ctx) →
      (s.tileAt tile).nextMsg part = some m →
      ∃ t, exec (.handlerStart ctx) s = .next t ∧ t.handles ctx ((s.tileAt tile).vectAt m.table m.type.toNat) m ∧
        (t.ctxAt ctx).fenced = s.codeOld.length ∧ ∀ x ∈ (t.tileAt tile).inbox, x.id ≠ m.id)) ∧
  ((∀ (s : State) (k : Nat) (r : Req) (tile obj : Nat), s.net[k]? = some r → r.op = .arrive tile obj → s.mayArrive k r = true →
      let b := s.barAt tile obj
      let b' : Barrier := { b with arrived := setBitIf b.arrived r.slot true }
      b.v = true → b.members.getLsbD r.slot = true →
      ∃ t, exec (.barrierReport k) s = .next t ∧ (t.barAt tile obj).arrived.getLsbD r.slot = true ∧
        (b'.complete = true → b.root = true → b.reported = false → b.rootless = none → (s.tileAt tile).point ≠ .g →
          (tile, obj, barStatus (b.episode + 1) b.lost) ∈ t.releases)) ∧
    (∀ (s : State) (k tile obj : Nat) (status : Word), s.releases[k]? = some (tile, obj, status) →
      let b := s.barAt tile obj
      s.releases.any (fun x => !b.root && (x.1 == b.ptile.toNat && x.2.1 == b.pobj.toNat)) = false →
      (s.tileAt tile).running = true → (s.tileAt tile).point ≠ .g →
      ∃ t, exec (.barrierRelease k) s = .next t ∧ (t.barAt tile obj).arrived = 0 ∧ (t.barAt tile obj).carrived = 0 ∧
        ∀ slot d, slot < 512 → b.members.getLsbD slot = true → b.arrived.getLsbD slot = true →
          (s.ctxAt (ctxId tile slot)).st = .blocked (.barrier d) → d ≠ 0 → s.handedOver (ctxId tile slot) = none →
          (t.ctxAt (ctxId tile slot)).st = .ready ∧ (t.ctxAt (ctxId tile slot)).getG d = ⟨status, false⟩ ∧
            (t.ctxAt (ctxId tile slot)).pc = (s.ctxAt (ctxId tile slot)).pc + 4) ∧
    (∀ (s : State) (k : Nat) (l : Launch) (j id : Nat) (rest : List (Nat × Nat)), s.launches[k]? = some l →
      l.plan = (j, id) :: rest → (s.ctxAt id).st = .blocked (.member l.id) →
      ∃ t, exec (.gangMemberStart k) s = .next t ∧
        let c := t.ctxAt id
        c.st = .ready ∧ c.gang = true ∧ c.pc = codePtr (wd (fld (l.w 1) 17 0)) ∧ c.getG 4 = ⟨l.w 2, false⟩ ∧
          c.getG 5 = ⟨wd j, false⟩ ∧ c.getG 2 = {} ∧ c.stage = (s.ctxAt id).stage ∧ c.obj = (s.ctxAt id).obj ∧
          c.fenced = s.codeOld.length))

/-- R147 to R151, R318, R320, R321, R330: Carousel issues from an eligible slot of its tile; a trap that no vector takes ends the
context with a record, once a house slot has taken it; a nap ends; an unknown service function returns 2. -/
def Obligations.ContextEvents : Prop :=
  (∀ (s : State) (tile : Nat), s.issuing = false → (s.tileAt tile).clocked = true →
    (s.tileAt tile).point.ticks s.cycle.toNat = true → s.issued tile = false → tile < 1024 →
    ((∃ p, p < 17 ∧ s.candidates tile p ≠ []) →
      ∃ t slot, exec (.carouselIssue tile) s = .next t ∧ slot < 512 ∧ s.eligible tile slot = true ∧
        (t.ctxAt (ctxId tile slot)).lastIssue = some s.cycle.toNat ∧
        (s.rotations.any (fun r => r.left.contains (ctxId tile slot)) = false → t.issuing = true ∧ t.cur = ctxId tile slot) ∧
        (s.rotations.any (fun r => r.left.contains (ctxId tile slot)) = true →
          t.issuing = false ∧ (t.ctxAt (ctxId tile slot)).st = .swapping)) ∧
    ((∀ p, p < 17 → s.candidates tile p = []) →
      exec (.carouselIssue tile) s = .next (s.setTileAt tile { s.tileAt tile with deficit := [] }))) ∧
  (∀ (s : State) (ctx cause : Nat) (epc tval : Word), (s.ctxAt ctx).st = .blocked (.escalated cause epc tval none) →
    s.houseFault (tileOf ctx) = false → s.quiet ctx = true → s.marksDone ctx = true → (s.tileAt (tileOf ctx)).clocked = true →
    (∀ sl, (s.ctxAt ctx).handledBy = none → s.houseFor ctx = some sl → ctx ≠ ctxId (tileOf ctx) sl →
      ∃ t, exec (.escalation ctx) s = .next t ∧ t.ctxAt ctx = { s.ctxAt ctx with handledBy := some sl } ∧
        (t.ctxAt (ctxId (tileOf ctx) sl)).handling = true ∧ t.mem = s.mem) ∧
    (∀ sl, (s.ctxAt ctx).handledBy = some sl → ((s.ctxAt ctx).getG 2).v = 0 → (s.ctxAt ctx).depth = 0 → (s.ctxAt ctx).gang = false →
      cause < 256 →
      ∃ t, exec (.escalation ctx) s = .next t ∧ (t.ctxAt ctx).st = .idle ∧ t.recorded cause ∧ t.mem = s.mem)) ∧
  (∀ (s : State) (ctx n f : Nat), s.calls ctx n f → serviceHas n f = false →
    ∃ t, exec (.serviceCall ctx) s = .next t ∧ s.returned t ctx 2 ∧ t.mem = s.mem) ∧
  (∀ (s : State) (ctx n : Nat), (s.ctxAt ctx).st = .blocked (.nap n) → n ≤ s.cycle.toNat →
    ∃ t, exec (.napExpiry ctx) s = .next t ∧ (t.ctxAt ctx).st = .ready ∧ (t.ctxAt ctx).pc = (s.ctxAt ctx).pc + 4) ∧
  (∀ (s : State) (ctx : Nat), (s.ctxAt ctx).st ≠ .idle → (s.ctxAt ctx).st ≠ .swapping → (s.ctxAt ctx).st ≠ .borrowed →
    (s.tileAt (tileOf ctx)).running = true → (s.ctxAt ctx).held = [] → (s.ctxAt ctx).gang = false →
    ∃ t, exec (.contextStateError ctx) s = .next t ∧ (t.ctxAt ctx).st = .idle ∧ t.recorded cPOISON_CONSUMED ∧ t.mem = s.mem)

/-! ### Launches and rotation -/

/-- R24, R157, R175 to R177, R361, R364, R366, R371: a record is copied and its ring place emptied; a launch that is over fills its completion word; a
rotation names its slots, saves each once it is at rest and loads the incoming tenant's state into it, and hands over the loft of each tile. -/
def Obligations.LaunchAndRotation : Prop :=
  (∀ (s v : State) (fn : Nat) (ts : List Target), s.booted = true → s.present fn = true →
    let f := s.fnAt fn
    let n := 2 ^ fld f.lqcfg 59 56
    let d := (ts.getD 0 { dpa := 0 }).dpa
    let base := padd f.lqbase (wd (64 * (f.lqnext % n)))
    let u := v.openUnit d (hostTenant fn) (hostPartOf fn) base
    bit f.lqcfg 63 = true → 1 ≤ fld f.lqcfg 59 56 → fld f.lqcfg 59 56 ≤ 12 → fld f.lqbase 5 0 = 0 → s.bindWaits fn = false →
    s.launches.all (fun l => !(l.fn == fn && !l.placed)) = true → f.lqhold.all (fun h => decide (h.st = .woken)) = true →
    s.unitReads 0 (hostPartOf fn) (hostTenant fn) needRWS (wordsFrom base 8) = (.ok ts, v) →
    ts.all (fun t => !v.gated t.dpa && (u.homeStop t.dpa true).isNone) = true → (v.tagAt d).full = true →
    v.open8 d (hostTenant fn) →
    ∃ t l, exec (.launchAcquire fn) s = .next t ∧ t.launches = u.launches ++ [l] ∧ l.fn = fn ∧
      l.words = ts.map (fun x => u.word x.dpa) ∧ l.part = bindPart (u.bindOf fn) ∧ l.tenant = bindTenant (u.bindOf fn) ∧
      (t.fnAt fn).lqnext = f.lqnext + 1 ∧ (t.tagAt d).full = false ∧ t.mem = u.mem) ∧
  (∀ (s : State) (k : Nat) (l : Launch), s.launches[k]? = some l → l.placed = true → (l.invalid = true ∨ l.live = []) →
    Hold.waiting l.hold = false →
    (∀ v u, l.kind = 1 → l.invalid = false → l.discarded = false → l.result = none → s.transferRun l = (.ok v, u) →
      exec (.launchDone k) s = .next ((u.updLaunch l.id (fun l => { l with result := some v, hold := none })).unstall)) ∧
    (l.kind ≠ 1 ∨ l.invalid = true ∨ l.discarded = true ∨ l.result ≠ none →
      (l.w 6 = 0 → ∃ t, exec (.launchDone k) s = .next t ∧ t.launches = s.launches.eraseIdx k) ∧
      (∀ x u, l.w 6 ≠ 0 → Hold.lost l.hold = false →
        s.unitReads 0 (hostPartOf l.fn) (hostTenant l.fn) needWS [l.w 6] = (.ok [x], u) → u.open8 x.dpa (hostTenant l.fn) →
        let v := if l.invalid then copyStatus 1 cILLEGAL_OPERAND allOnes48 else if l.discarded then copyStatus 2 0 0
          else if l.kind = 1 then l.result.getD 0
          else match l.failed with
            | some (g, cause) => copyStatus 1 cause g
            | none => 0
        ∃ t, exec (.launchDone k) s = .next t ∧ t.launches = u.launches.eraseIdx k ∧ t.filled x.dpa v ∧
          u.sameOutside t x.dpa 8))) ∧
  (∀ (s : State) (part tenant : Nat), part < 16 → (s.tileAt 0).tenantOf part ≠ tenant → s.turning part = false →
    s.vfbind.any (fun x => bindValid x.2 && bindPart x.2 == part && bindTenant x.2 == tenant) = true →
    s.tables.any (fun x => x.1 == tenant) = true →
    (s.offTile part = none → ∃ t r, exec (.slotRotation part tenant) s = .next t ∧ t.rotations = s.rotations ++ [r] ∧ r.part = part ∧
      r.incoming = tenant ∧ r.outgoing = (s.tileAt 0).tenantOf part ∧ r.left = s.partSlots part ∧
      ∀ n, n < 1024 → (t.tileAt n).tenantOf part = tenant) ∧
    (s.offTile part ≠ none → ∃ t, exec (.slotRotation part tenant) s = .next t ∧ t.recorded 0x010B ∧ t.rotations = s.rotations ∧
      t.tiles = s.tiles)) ∧
  (∀ (s : State) (ctx : Nat) (r : Rotation) (x : Ctx), s.rotations.find? (fun r => r.left.contains ctx) = some r →
    (s.tileAt (tileOf ctx)).clocked = true → (s.ctxAt ctx).forSaving s.cycle.toNat = some x → s.quiet ctx = true →
    (s.ctxAt ctx).pend = [] → (s.ctxAt ctx).borrowed = [] → s.marksDone ctx = true → ¬(s.issuing = true ∧ s.cur = ctx) →
    ((s.ctxAt ctx).st = .swapping ∨ s.sweeps r ctx = true) → r.incoming ≠ r.outgoing →
    let old := s.saved.find? (fun y => y.tenant == r.incoming && y.ctx == ctx)
    ∃ t, exec (.slotSwap ctx) s = .next t ∧
      (r.outgoing ≠ 0 → { tenant := r.outgoing, ctx := ctx, c := x } ∈ t.saved) ∧
      (old = none → (t.ctxAt ctx).st = .idle ∧ (t.ctxAt ctx).getG 2 = {} ∧
        (1 ≤ r.incoming → r.incoming < 0x10000 → (t.ctxAt ctx).getG 3 = ⟨stackTop (tileOf ctx) (slotOf ctx), false⟩ ∧
          (t.ctxAt ctx).adoptsp = adoptBase (tileOf ctx) (slotOf ctx) ∧ (t.ctxAt ctx).tenant.toNat = r.incoming)) ∧
      (∀ y, old = some y → y.c.st = .ready → t.ctxAt ctx = { y.c with fenced := s.codeOld.length })) ∧
  (∀ (s : State) (tile part : Nat) (r : Rotation), s.rotations = [r] → r.part = part → r.left = [] → tile ∈ r.tiles →
    ((s.tileAt tile).running = false ∨ ((s.tileAt tile).clocked = true ∧ s.handQuiet tile r = true)) →
    ∃ t, exec (.loftHandover tile part) s = .next t ∧
      t.rotations = (if r.tiles.erase tile = [] then [] else [{ r with tiles := r.tiles.erase tile }]) ∧
      ((s.tileAt tile).running = true → r.incoming ≠ r.outgoing →
        (r.outgoing ≠ 0 → s.saveTile tile r ∈ t.savedTiles ∧
          ∀ m ∈ (s.tileAt tile).mq, m.part = part → ∃ y ∈ t.savedTiles, m ∈ y.mq) ∧
        (s.savedTiles.all (fun y => !(y.tenant == r.incoming && y.tile == tile)) = true →
          (∀ m ∈ (t.tileAt tile).mq, m.part ≠ part) ∧ (∀ c ∈ (t.tileAt tile).cq, c.part ≠ part) ∧
          (t.tileAt tile).dequeAt part = {})))

/-! ### Power, memory faults and links -/

/-- R22 to R26, R336 to R339, R360, R370: a point is taken where it may be, for a device that has an owner; a throttle moves every allocated tile
that is not at OFF; a failing bank is spared row by row, or retired; links and channels. -/
def Obligations.PowerAndVault : Prop :=
  (∀ (s : State) (tile n : Nat) (p : Point), tile < 1024 → pointOf n = some p →
    (s.owned = false → exec (.operatingPointChange tile n) s = .next s) ∧
    (s.owned = true →
      (p ≠ .off → s.infraAt (tile / 64) ≠ .off →
        ∃ t, exec (.operatingPointChange tile n) s = .next t ∧ (t.tileAt tile).point = p ∧ t.mem = s.mem) ∧
      (p = .off → (s.tileAt tile).mayStop = true →
        ∃ t, exec (.operatingPointChange tile n) s = .next t ∧ (t.tileAt tile).point = .off ∧
          ∀ id, tileOf id = tile → (t.ctxAt id).st = .idle) ∧
      (p = .off → (s.tileAt tile).mayStop = false →
        ∃ t, exec (.operatingPointChange tile n) s = .next t ∧ t.recorded 0x010B ∧ t.tiles = s.tiles))) ∧
  (∀ (s : State) (n : Nat) (p : Point), n < 3 → pointOf n = some p →
    ∃ t, exec (.powerThrottle n) s = .next t ∧ exec (.thermalThrottle n) s = .next t ∧
      ∀ k, (s.tileAt k).allocated = true → (s.tileAt k).point ≠ .off → (t.tileAt k).point = p) ∧
  (∀ s : State, ∃ t, exec (.powerThrottle 3) s = .next t ∧ exec (.thermalThrottle 3) s = .next t ∧
    ∀ k, (s.tileAt k).allocated = true → t.tileAt k = s.tileAt k) ∧
  (∀ (s : State) (tile bank index : Nat), tile < 1024 → bank < 32 →
    ∃ t, exec (.dramParityAlert tile bank index []) s = .next t ∧ t.recorded 0x0103 ∧ t.mem = s.mem ∧ t.spares = s.spares) ∧
  (∀ (s : State) (tile bank : Nat), tile < 1024 → bank < 32 →
    (s.spareAt tile).retired.all (fun y => y.1 != bank) = true →
    ((s.spareAt tile).bank = none → (s.spareAt tile).used = false →
      ∃ t, exec (.sparingStart tile bank) s = .next t ∧ (t.spareAt tile).bank = some bank ∧ (t.spareAt tile).bnd = 0) ∧
    ((s.spareAt tile).used = true → (s.spareAt tile).bank ≠ some bank →
      ∃ t, exec (.bankRetire tile bank) s = .next t ∧ (bank, 0) ∈ (t.spareAt tile).retired ∧ t.recorded 0x0104)) ∧
  (∀ (s : State) (tile bank : Nat), (s.spareAt tile).bank = some bank →
    ((s.spareAt tile).bnd + 1 < bankBytes / rowBytes →
      ∃ t, exec (.sparingRowCopy tile) s = .next t ∧ (t.spareAt tile).bnd = (s.spareAt tile).bnd + 1) ∧
    (bankBytes / rowBytes ≤ (s.spareAt tile).bnd + 1 →
      ∃ t, exec (.sparingRowCopy tile) s = .next t ∧ (t.spareAt tile).bank = none ∧ (t.spareAt tile).used = true ∧
        t.recorded 0x0104)) ∧
  (∀ (s : State) (link k chan : Nat),
    (∃ t, exec (.flitResend link true) s = .next t ∧ t.recorded 0x0105 ∧ t.mem = s.mem) ∧
    exec (.flitResend link false) s = .next s ∧ exec (.endToEndResend k) s = .next s ∧
    ∃ t, exec (.channelRetire chan) s = .next t ∧ t.recorded 0x0101 ∧ t.net = s.net ∧
      (Map.get (fun _ => {}) t.channels chan : Channel).mapgen = (Map.get (fun _ => {}) s.channels chan : Channel).mapgen + 1)

/-! ### The Herd Vote -/

/-- R340 to R345, R347, R348, R352, R381: heartbeats go to each neighbour and are judged; a neighbour not heard for a third period in a row is
SILENT, and one that crowds its link is BABBLING; a tile that enough voters are against is fenced, and nothing that it sent is performed any more; its frames are recovered,
one step for each, and its self-test leads to OFF, to an appeal, or after a tile reset to its readmission. The count of a link's packets is
an operand (log 34), and which neighbours vote is the model's reading (log 23). -/
def Obligations.HerdVote : Prop :=
  (∀ (s : State) (tile j n : Nat), s.cycle.toNat % 4096 = 0 → (s.herd tile).sent ≤ s.period → tile < 1024 → j < 4 →
    s.infraAt (tile / 64) ≠ .off → (s.herd tile).silent = false → neighbour tile j = some n →
    ∃ t hb, exec (.heartbeatSend tile) s = .next t ∧ (t.herd tile).seq = (s.herd tile).seq + 1 ∧
      Map.get (fun _ => none) (t.herd n).wires (opposite j) = some hb ∧ hb.seq = (s.herd tile).seq + 1 ∧
      hb.hung = (s.herd tile).hung ∧ hb.fenced = (s.herd tile).fenced ∧ hb.appeal = (s.herd tile).appealing) ∧
  (∀ (s : State) (tile j n : Nat) (intact : Bool) (hb : Heartbeat), Map.get (fun _ => none) (s.herd tile).wires j = some hb →
    neighbour tile j = some n →
    ∃ t, exec (.heartbeatReceive tile j intact) s = .next t ∧ Map.get (fun _ => none) (t.herd tile).wires j = none ∧
      ((t.herd tile).nbrAt j).heard = true ∧ ((t.herd tile).nbrAt j).seq = hb.seq ∧
      (hb.malformed n ((s.herd tile).nbrAt j).seq intact = true → ((t.herd tile).nbrAt j).broken = true)) ∧
  (∀ (s : State) (tile j n : Nat) (crowd : BitVec 4), (s.herd tile).judged < s.period → tile < 1024 →
    (s.herd tile).appealing = false → j < 4 →
    neighbour tile j = some n → (s.herd n).fenced = false →
    let x := (s.herd tile).nbrAt j
    x.broken = false → x.bad = [] →
    ∃ t, exec (.judgement tile crowd) s = .next t ∧ (t.herd tile).judged = s.period ∧
      (crowd.getLsbD j = true → ((t.herd tile).nbrAt j).judge = 2) ∧
      (crowd.getLsbD j = false → x.heard = false → 2 ≤ x.missed → ((t.herd tile).nbrAt j).judge = 1) ∧
      (crowd.getLsbD j = false → x.heard = false → x.missed < 2 → ((t.herd tile).nbrAt j).judge = if against x.judge then x.judge else 0)) ∧
  (∀ (s : State) (tile : Nat) (v : Nat × Nat), (s.herd tile).fenced = false → tile < 1024 → s.fencer tile = some v →
    ∃ t, exec (.fence tile) s = .next t ∧ (t.herd tile).fenced = true ∧ t.recorded 0x0107 ∧
      ∀ r ∈ t.net, r.src = tile → r.slot = 513) ∧
  (∀ (s u : State) (tile me : Nat) (others : List Nat) (x : Recover) (rest : List Recover) (f : Word) (slot : Option Nat)
    (r : RecordSpec) (d : Target), (s.tileAt tile).recover = x :: rest → x.what = .frame f slot r → x.hold = none →
    s.recoverIn tile = me :: others → (s.tileAt me).clocked = true → r.code < 2 ^ 16 → r.sev < 8 → r.engine < 32 → r.scope < 4 →
    s.unitReads me x.part x.tenant needRWS [padd f 8] = (.ok [d], u) → u.open8 d.dpa x.tenant (some (houseRank me)) →
    (u.tagAt d.dpa).poison = false →
    let w := u.word d.dpa
    let mine := bit w 63 = true ∧ (swState w = 1 ∨ swState w = 2) ∧ swTile w = tile ∧ slot.getD (swSlot w) = swSlot w
    ∃ t, exec (.frameRecovery tile) s = .next t ∧
      (¬mine → (t.tileAt tile).recover = rest ∧ u.sameOutside t 0 0) ∧
      (mine → bit w 59 = true → t.word d.dpa = swUnstarted w ∧ u.sameOutside t d.dpa 8 ∧
        (t.tileAt tile).recover = { x with what := .entry f (some { r with action := 9 }), hold := none } :: rest) ∧
      (mine → bit w 59 = false → 8 ≤ d.dpa → u.open8 (d.dpa - 8) x.tenant →
        t.word d.dpa = swWith w 4 ∧ t.word (d.dpa - 8) = f ∧ (t.tagAt (d.dpa - 8)).full = true ∧
        (t.tagAt (d.dpa - 8)).poison = true ∧ (t.tileAt tile).recover = rest ∧ t.recorded r.code)) ∧
  (∀ (s : State) (tile : Nat), (s.tileAt tile).recover = [] → (s.herd tile).fenced = true → (s.herd tile).recovered = false →
    (s.tileAt tile).deque.all (fun x => x.2.entries.isEmpty) = true → s.stranded tile = none →
    ∃ t, exec (.frameRecovery tile) s = .next t ∧ (t.herd tile).recovered = true ∧ ∀ id, tileOf id = tile → (t.ctxAt id).st = .idle) ∧
  (∀ (s : State) (tile : Nat), (s.herd tile).selfTest = true → (s.herd tile).fenced = true → (s.herd tile).recovered = true →
    (∃ t, exec (.selfTestEnd tile false) s = .next t ∧ (t.tileAt tile).point = .off ∧ (t.herd tile).selfTest = false) ∧
    (s.testOver tile = true → ∃ t, exec (.selfTestEnd tile true) s = .next t ∧ (t.tileAt tile).point = .off ∧
      (t.herd tile).selfTest = false) ∧
    (s.testOver tile = false → (s.herd tile).resetting = false → s.appealsOf tile < 3 →
      ∃ t, exec (.selfTestEnd tile true) s = .next t ∧ (t.herd tile).appealing = true ∧
        (t.herd tile).appeals = (s.herd tile).appeals ++ [s.cycle.toNat]) ∧
    (s.testOver tile = false → (s.herd tile).resetting = false → 3 ≤ s.appealsOf tile →
      ∃ t, exec (.selfTestEnd tile true) s = .next t ∧ (t.herd tile).appealing = (s.herd tile).appealing ∧
        (t.herd tile).selfTest = false)) ∧
  (∀ (s : State) (tile : Nat), (s.herd tile).selfTest = true → (s.herd tile).resetting = true → (s.herd tile).recovered = true →
    s.testOver tile = false →
    ∃ t, exec (.selfTestEnd tile true) s = .next t ∧ (t.herd tile).fenced = false ∧ (t.herd tile).resetting = false ∧ t.recorded 0x0108)

/-! ### The host side -/

/-- R356, R54: the aliases of BAR2. A plain write leaves presence, a fill sets it; a read of poison is an uncorrectable completion; the status
alias tells presence and poison; what is not allowed is discarded with a record, and what misses its page waits for it.
R357, R360 to R362, R367, R369, R373, R378: management registers, MSI-X, error queues, binding, teardown and attestation. -/
def Obligations.HostSide : Prop :=
  ((∀ (s v : State) (fn : Nat) (off value : Word) (width : Nat), s.present fn = true → fn < 128 → widthOk width = true →
      let p := s.barPtr fn off
      let part := hostPartOf fn
      let tenant := hostTenant fn
      s.barWaits.find? (fun w => w.fn == fn) = none → v = s.portRead 0 part p →
      (∀ c q, barAlias off = 0 → v.reach 0 part tenant p width needW = .error (.cause c q) →
        ∃ t, exec (.bar2PlainWrite fn off width value) s = .next t ∧ t.mem = v.mem ∧ t.recorded 0x010C) ∧
      (∀ f queued, barAlias off = 0 → v.reach 0 part tenant p width needW = .error (.page f queued) →
        ∃ t, exec (.bar2PlainWrite fn off width value) s = .next t ∧ t.mem = v.mem ∧
          ({ fn := fn, ev := .plainWrite off width value, hold := f.held 0 } : BarWait) ∈ t.barWaits) ∧
      (∀ x, barAlias off = 0 → v.reach 0 part tenant p width needW = .ok x → v.gated x.dpa = false →
        v.homeStop x.dpa true = none → v.readsWell = true → v.retiredAt x.dpa = false → v.opens (v.unitReq x.dpa tenant) = true →
        ∃ t, exec (.bar2PlainWrite fn off width value) s = .next t ∧ readBytes t.mem x.dpa width = value.toNat % 2 ^ (8 * width) ∧
          v.sameOutside t x.dpa width ∧ ∀ y, (t.tagAt y).full = (v.tagAt y).full) ∧
      (barAlias off = 2 → exec (.bar2PlainWrite fn off width value) s = .next s) ∧
      (∀ x, barAlias off = 0 → v.reach 0 part tenant p width needR = .ok x → v.gated x.dpa = false →
        v.homeStop x.dpa false = none → v.readsWell = true → v.retiredAt x.dpa = false → v.opens (v.unitReq x.dpa tenant) = true →
        x.dpa % width = 0 →
        ∃ t, exec (.bar2PlainRead fn off width) s = .next t ∧ t.mem = v.mem ∧
          t.hostRead =
            if (v.tagAt x.dpa).poison then some (BitVec.allOnes 64, true) else some (wd (readBytes v.mem x.dpa width), false)) ∧
      (barAlias off = 1 → ∃ t, exec (.bar2PlainRead fn off width) s = .next t ∧ t.hostRead = some (BitVec.allOnes 64, false)) ∧
      (∀ x, barAlias off = 1 → width = 8 → v.reach 0 part tenant p 8 needWS = .ok x → v.open8 x.dpa tenant →
        ∃ t, exec (.bar2FillWrite fn off width value) s = .next t ∧ t.filled x.dpa value ∧ v.sameOutside t x.dpa 8) ∧
      (barAlias off = 1 → width ≠ 8 → exec (.bar2FillWrite fn off width value) s = .next s)) ∧
    (∀ (s v : State) (fn : Nat) (off : Word), s.present fn = true → fn < 128 →
      let p := s.barPtr fn (wd (off.toNat / 8 * 8))
      let part := hostPartOf fn
      let tenant := hostTenant fn
      (∀ x, barAlias off = 2 → s.barWaits.find? (fun w => w.fn == fn) = none → v = s.portRead 0 part p →
        v.reach 0 part tenant p 8 needR = .ok x → v.gated x.dpa = false → v.homeStop x.dpa false = none → v.readsWell = true →
        v.retiredAt x.dpa = false → v.opens (v.unitReq x.dpa tenant) = true →
        ∃ t, exec (.bar2StatusRead fn off) s = .next t ∧ t.mem = v.mem ∧
          t.hostRead = some (wd (b2n (v.tagAt x.dpa).full + 2 * b2n (v.tagAt x.dpa).poison), false)) ∧
      (barAlias off = 3 → exec (.bar2ReservedAlias fn off true) s = .next (s.hostDiscard fn off) ∧
        ∃ t, exec (.bar2ReservedAlias fn off false) s = .next t ∧ t.hostRead = some (BitVec.allOnes 64, false)))) ∧
  ((∀ (s : State) (fn off : Nat) (value : Word) (f : Fn), s.window (fn / 64) fn off = true → fn < 128 →
      off % 8 = 0 → quietOffset (fn % 64 == 0) off = false → ((fn % 64 == 0) && off == 0x50) = false → (s.fnAt fn).write off value = some f →
      exec (.mgmtRegisterWrite (fn / 64) fn off value) s = .next (s.setFn fn f)) ∧
    (∀ (s : State) (master fn off : Nat) (value : Word), s.window master fn off = true → off % 8 ≠ 0 →
      exec (.mgmtRegisterWrite master fn off value) s = .next (s.discardBy master fn (wd off))) ∧
    (∀ (s : State) (master fn : Nat) (value : Word), s.window master fn 0x50 = true → fn % 64 = 0 →
      (s.owns master = true → 1 ≤ fld value 15 0 → fld value 15 0 ≤ 3600 →
        ∃ t, exec (.mgmtRegisterWrite master fn 0x50 value) s = .next t ∧ t.pwrlim = wd (fld value 15 0)) ∧
      (s.owns master = false →
        ∃ t, exec (.mgmtRegisterWrite master fn 0x50 value) s = .next t ∧ t.pwrlim = s.pwrlim)) ∧
    (∀ (s : State) (fn vec : Nat), s.present fn = true → fn < 128 → vec < vectors fn →
      ∃ t, exec (.msixUnmask fn vec) s = .next t ∧ (t.fnAt fn).masked vec = false ∧
        t.msixSent = s.msixSent ++ if Map.get (fun _ => false) (s.fnAt fn).pba vec then [(t.fnAt fn).entry vec] else []) ∧
    (∀ (s : State) (fn vec : Nat), vec < vectors fn → 0 < Map.get (fun _ => 0) (s.fnAt fn).pending vec →
      fld (s.fnAt fn).icoal 15 0 ≠ 0 →
      Map.get (fun _ => 0) (s.fnAt fn).since vec + fld (s.fnAt fn).icoal 15 0 * microCycles ≤ s.cycle.toNat →
      ∃ t, exec (.icoalTimer fn vec) s = .next t ∧ Map.get (fun _ => 0) (t.fnAt fn).pending vec = 0 ∧
        ((s.fnAt fn).masked vec = false → t.msixSent = s.msixSent ++ [(s.fnAt fn).entry vec]) ∧
        ((s.fnAt fn).masked vec = true → Map.get (fun _ => false) (t.fnAt fn).pba vec = true ∧ t.msixSent = s.msixSent)) ∧
    (∀ (s : State) (fn : Nat) (value : Word), s.present fn = true → fn < 128 →
      let f := s.fnAt fn
      let v := BitVec.ofNat 32 (fld value 31 0)
      ((v - f.eqtail).toInt ≤ 0 → exec (.eqheadWrite fn value) s = .next (s.setFn fn { f with eqhead := v })) ∧
      (0 < (v - f.eqtail).toInt → exec (.eqheadWrite fn value) s = .next (s.hostDiscard fn 0x40))) ∧
    (∀ (s : State) (r : Record) (rest : List Record), s.records = r :: rest → r.wide = true → r.w5 ≠ s.cycle →
      rest.all (fun x => x.w5 != r.w5) = true → fld r.w0 63 48 ≠ 0x010D → bit (s.fnAt 0).eqcfg 63 = false →
      (fld (s.fnAt 0).eqcfg 50 48 ≤ recordSev r → (s.fnAt 0).buffer.length < 256 →
        ∃ t more, exec .errorRecordWrite s = .next t ∧ t.records = rest ++ more ∧ (t.fnAt 0).buffer = (s.fnAt 0).buffer ++ [r]) ∧
      (recordSev r < fld (s.fnAt 0).eqcfg 50 48 →
        ∃ t more, exec .errorRecordWrite s = .next t ∧ t.records = rest ++ more ∧ (t.fnAt 0).buffer = (s.fnAt 0).buffer ∧
          (t.fnAt 0).below = (s.fnAt 0).below + 1)) ∧
    (∀ (s : State) (r r' : Record), s.records = [r, r'] → r.w5 = r'.w5 → r.w5 ≠ s.cycle → fld r'.w1 21 12 < fld r.w1 21 12 →
      ∃ t more, exec .errorRecordWrite s = .next t ∧ t.records = r :: more) ∧
    (∀ (s : State) (master vf : Nat) (value : Word), s.window master (vf / 64 * 64) (0x400 + 8 * (vf % 64)) = true → vf % 64 ≠ 0 →
      vf < 128 →
      (s.owns master = true → bit value 63 = true → bindTenant value ≠ 0 → bindTenant value ≤ 0xEFFF →
        ∃ t, exec (.vfbindWrite master vf value) s = .next t ∧
          Map.get (fun _ => 0) t.vfbind vf = value &&& 0x80000000000FFFFF ∧ t.bound = s.bound) ∧
      (s.owns master = false → ∃ t, exec (.vfbindWrite master vf value) s = .next t ∧ t.vfbind = s.vfbind)) ∧
    (∀ (s : State) (link : Nat), link < 2 →
      (Map.get (fun _ => false) s.vfEnable link = true →
        (List.range 64).all (fun v => !s.turning (bindPart (s.bindOf (64 * link + v))) &&
          !s.turning (bindPart (Map.get (fun _ => 0) s.vfbind (64 * link + v)))) = true →
        ∃ t, exec (.vfEnableClear link) s = .next t ∧ Map.get (fun _ => false) t.vfEnable link = false ∧
          ∀ v, 0 < v → v < 64 → bindValid (s.bindOf (64 * link + v)) = true →
            ∀ r ∈ t.net, r.tenant ≠ bindTenant (s.bindOf (64 * link + v))) ∧
      (s.teardowns.contains link = false →
        ∃ t, exec (.vfEnableSet link) s = .next t ∧ Map.get (fun _ => false) t.vfEnable link = true)) ∧
    (∀ (s : State) (master fn off : Nat) (rest : List Turn), s.issuing = false → s.agenda = .mgmtReads master fn off :: rest →
      s.window master fn off = true →
      ∃ t, step s = .next t ∧ t.hostRead = some (s.readReg fn off, false) ∧ t.mem = s.mem) ∧
    (∀ (s : State) (part k : Nat) (b : Nat × Word), part < 16 →
      s.vfbind.find? (fun x => bindValid x.2 && bindPart x.2 == part) = some b → s.kslotAt (256 + part) = 0 →
      (List.range 256).find? (fun k => k != 0 && s.kslotAt k == 0) = some k →
      ∃ t, exec (.attestation part) s = .next t ∧ Map.get (fun _ => false) t.attested part = true ∧
        fld (t.kslotAt (256 + part)) 63 60 = 4 ∧ fld (t.kslotAt (256 + part)) 59 44 = bindTenant b.2 ∧
        fld (t.kslotAt k) 63 60 = 6 ∧ fld (t.kslotAt k) 59 44 = bindTenant b.2))

/-- R359: every row of the table of ownership, the lowest of the claims of one cycle, and that a write which matches no row has no
effect. R358: EPOCH counts the changes of owner.
R352, R353, R372, R380, R381: the causes of a package reset and what it leaves; the boot check; the reset of one tile. That lines read as
fresh after a package reset is the model's reading (log 35). -/
def Obligations.OwnershipAndResets : Prop :=
  (∀ (s : State),
      let r := s.rm
      let now := s.cycle.toNat
      (∀ m, m < 3 → r.state = 0 → ∃ t, exec (.rmownClaim m) s = .next t ∧ t.rm.state = 1 ∧ t.rm.owner.toNat = m ∧
        t.rm.epoch = r.epoch + 1 ∧ t.rm.claimed = some now) ∧
      (∀ m, r.state = 1 → r.claimed = some now → m < r.owner.toNat → ∃ t, exec (.rmownClaim m) s = .next t ∧ t.rm.state = 1 ∧
        t.rm.owner.toNat = m ∧ t.rm.epoch = r.epoch ∧ t.rm.claimed = some now) ∧
      (∀ m, r.state ≠ 0 → ¬(r.state = 1 ∧ r.claimed = some now ∧ m < r.owner.toNat) → exec (.rmownClaim m) s = .next s) ∧
      (∀ m n, r.state = 1 → r.owner.toNat = m → m < 3 → n < 3 → ∃ t, exec (.rmownHandover m n) s = .next t ∧ t.rm.state = 2 ∧
        t.rm.owner = r.owner ∧ t.rm.target.toNat = n ∧ t.rm.epoch = r.epoch ∧ t.rm.since = now) ∧
      (∀ m n, ¬(r.state = 1 ∧ r.owner.toNat = m ∧ m < 3 ∧ n < 3) → exec (.rmownHandover m n) s = .next s) ∧
      (∀ m, r.state = 2 → r.target.toNat = m → m < 3 → now < r.since + secondCycles →
        ∃ t, exec (.rmownAccept m) s = .next t ∧ t.rm.state = 1 ∧ t.rm.owner.toNat = m ∧ t.rm.target = 3 ∧
          t.rm.epoch = if r.owner = r.target then r.epoch else r.epoch + 1) ∧
      (∀ m, ¬(r.state = 2 ∧ r.target.toNat = m ∧ m < 3 ∧ now < r.since + secondCycles) → exec (.rmownAccept m) s = .next s) ∧
      (∀ m, r.state = 2 → r.owner.toNat = m → m < 3 → ∃ t, exec (.rmownCancel m) s = .next t ∧ t.rm.state = 1 ∧
        t.rm.owner = r.owner ∧ t.rm.target = 3 ∧ t.rm.epoch = r.epoch) ∧
      (∀ m, ¬(r.state = 2 ∧ r.owner.toNat = m ∧ m < 3) → exec (.rmownCancel m) s = .next s) ∧
      (r.state = 2 → r.since + secondCycles ≤ now → ∃ t, exec .handoverTimeout s = .next t ∧ t.rm.state = 1 ∧
        t.rm.owner = r.owner ∧ t.rm.epoch = r.epoch) ∧
      (∃ t, exec .i3cHeartbeat s = .next t ∧ t.rm.beat = now ∧ t.rm.owner = r.owner) ∧
      (r.state = 1 ∨ r.state = 2 → r.owner ≠ 2 ∨ r.beat + 3 * beatCycles ≤ now →
        ∃ t, exec .ownerLost s = .next t ∧ t.rm.state = 3 ∧ t.rm.since = now ∧ t.rm.owner = r.owner) ∧
      (r.state = 3 → now < r.since + 2 * secondCycles → ∃ t, exec .ownerReturn s = .next t ∧ t.rm.state = 1 ∧
        t.rm.owner = r.owner ∧ t.rm.epoch = r.epoch) ∧
      (r.state = 3 → r.since + 2 * secondCycles ≤ now → ∃ t, exec .electionTimeout s = .next t ∧ t.rm.state = 0 ∧ t.rm.owner = 3 ∧
        t.rm.epoch = r.epoch + 1)) ∧
  ((∀ (s : State) (cause : Nat), cause < 256 →
      let t := s.packageReset cause
      fld t.rstcause 63 56 = cause ∧ fld t.rstcause 55 48 = fld s.rstcause 63 56 ∧
        fld t.rstcause 47 32 = min (fld s.rstcause 47 32 + 1) 0xFFFF ∧ t.ctxs = [] ∧ t.tiles = [] ∧ t.mem = [] ∧ t.tags = [] ∧
        t.kslot = [] ∧ t.net = [] ∧ t.booted = false ∧ t.rm = {} ∧ t.recorded 0x010F ∧
        (Map.wf freshLine s.ctr = true → ∀ d, lineCount (t.lineCtr d) = lineCount (s.lineCtr d) ∧ t.lineFresh d = true)) ∧
    (∀ s : State, exec .powerOn s = .next (s.packageReset 0) ∧ exec .mcResetRequest s = .next (s.packageReset 3) ∧
      exec .thermalReset s = .next (s.packageReset 4) ∧ exec .supplyFault s = .next (s.packageReset 5) ∧
      exec .firmwareWatchdog s = .next (s.packageReset 7) ∧
      (∀ m, s.owns m = true → exec (.ownerResetRequest m) s = .next (s.packageReset 2)) ∧
      (∀ m, s.owns m = false → exec (.ownerResetRequest m) s = .next s) ∧
      (∀ l, l < 2 → s.owns l = true → exec (.pcieFundamentalReset l) s = .next (s.packageReset 1)) ∧
      (s.booted = false →
        (s.rollback.toNat ≤ s.image.rollback.toNat →
          ∃ t, exec (.firmwareBoot true) s = .next t ∧ t.booted = true ∧ t.rstcause = s.rstcause ∧ t.image = s.image) ∧
        (s.image.rollback.toNat < s.rollback.toNat →
          ∃ t, exec (.firmwareBoot true) s = .next t ∧ t.booted = true ∧ fld t.rstcause 63 56 = 6 ∧ t.image = s.prevImage) ∧
        ∃ t, exec (.firmwareBoot false) s = .next t ∧ t.booted = true ∧ fld t.rstcause 63 56 = 6 ∧ t.image = s.prevImage)) ∧
    (∀ (s : State) (tile cause : Nat), s.mayResetTile tile cause = true →
      ∃ t, exec (.tileReset tile cause) s = .next t ∧ (t.herd tile).resetting = true ∧ (t.herd tile).selfTest = true ∧
        t.recorded 0x010F ∧ fld t.rstcause 31 22 = tile ∧ fld t.rstcause 21 16 = cause ∧
        (∀ id, tileOf id = tile → (t.ctxAt id).st = .idle) ∧ ∀ n, n ≠ tile → t.tileAt n = s.tileAt n))

/-! ### What an instruction leaves unchanged -/

/-- R17, R95, R96: memory changes at homes only. No instruction changes a byte or a tag of memory when it issues, but the
ends of a frame and firmware's register writes, record and copy; what the others store travels first. -/
def Obligations.MemoryChangesAtHomes : Prop :=
  ∀ (i : Instr) (s t : State), i.isInstruction = true → actsAtOnce i = false → exec i s = .next t →
    t.mem = s.mem ∧ (∀ a, readByte t.mem a = readByte s.mem a) ∧ t.tags = s.tags

/-- R186, R201, R203 to R216, R325: a scalar instruction writes one general register, and the pc; or it traps, or waits.
R95, R96, R317, R325, R409: a reference changes no register and no special register when it issues, but for what the trap that it takes
writes; what it reads comes with the answer.
R260 to R274: a row instruction writes one row of the bound accumulator and the pc; or it traps, or waits. -/
def Obligations.InstructionFrames : Prop :=
  (∀ (i : Instr) (s t : State) (d : Nat), scalarDest i = some d → exec i s = .next t →
      s.onlyMe t ∧ (s.trapped t ∨
        (s.me.keeps t.me d ∧ t.me = { s.me.standsAs t.me with g := t.me.g, pend := t.me.pend }))) ∧
  (∀ (i : Instr) (s t : State), isReference i = true → exec i s = .next t →
      (∀ id, id ≠ s.cur → t.ctxAt id = s.ctxAt id) ∧ t.mem = s.mem ∧ t.tags = s.tags ∧
      (∀ n, t.me.getG n = s.me.getG n ∧ t.me.getE n = s.me.getE n) ∧
      ((∃ c cause tval, (c = s.me ∨ c = { s.me with deferred := none }) ∧ t.me = c.enter cause s.me.pc tval) ∨
        t.me = { s.me.standsAs t.me with pend := t.me.pend, wait := t.me.wait }) ∧
      ∀ a row i, (t.myTile).lane a row i = (s.myTile).lane a row i) ∧
  (∀ (i : Instr) (s t : State) (d : Nat), rowDest i = some d → exec i s = .next t →
      (s.onlyMe t ∧ s.trapped t) ∨
        (t = { s with ctxs := t.ctxs, tiles := t.tiles } ∧ (∀ id, id ≠ s.cur → t.ctxAt id = s.ctxAt id) ∧
          (∀ n, n ≠ tileOf s.cur → t.tileAt n = s.tileAt n) ∧ t.myTile = { s.myTile with acc := t.myTile.acc } ∧
          t.me = s.me.standsAs t.me ∧
          ∀ a row i, row < 64 → i < 64 → ¬(a = s.boundAcc ∧ row = d) → t.myTile.lane a row i = s.myTile.lane a row i))
end

