-- ==== Sys2Proof/Laws/Map.lean ====
section
/-! SUPPORT. Sparse maps: what a key reads as after a write, an erasure or an insertion, and that each keeps the canonical form. -/

namespace Sys2Proof.Laws

open Sys2Proof.Machine

variable {β : Type} {d : Nat → β}

@[simp] theorem get_nil (k : Nat) : Map.get d [] k = d k := rfl

theorem get_erase_same (m : Map β) (k : Nat) : Map.get d (Map.erase m k) k = d k := by
  induction m with
  | nil => rfl
  | cons x m ih =>
    obtain ⟨a, v⟩ := x
    by_cases h : a = k <;> simp [Map.erase, Map.get, h, ih]

theorem get_erase_ne (m : Map β) {k j : Nat} (h : j ≠ k) : Map.get d (Map.erase m k) j = Map.get d m j := by
  induction m with
  | nil => rfl
  | cons x m ih =>
    obtain ⟨a, v⟩ := x
    by_cases ha : a = k
    · subst ha
      simp [Map.erase, Map.get, ih, Ne.symm h]
    · simp [Map.erase, Map.get, ha, ih]

theorem get_insert_ne (m : Map β) (v : β) {k j : Nat} (h : j ≠ k) : Map.get d (Map.insert m k v) j = Map.get d m j := by
  induction m with
  | nil => simp [Map.insert, Map.get, Ne.symm h]
  | cons x m ih =>
    obtain ⟨a, w⟩ := x
    by_cases ha : k < a <;> simp [Map.insert, Map.get, ha, ih, Ne.symm h]

/-- Where the key had no entry. -/
theorem get_insert_erase (m : Map β) (k : Nat) (v : β) : Map.get d (Map.insert (Map.erase m k) k v) k = v := by
  induction m with
  | nil => simp [Map.erase, Map.insert, Map.get]
  | cons x m ih =>
    obtain ⟨a, w⟩ := x
    by_cases ha : a = k
    · simp [Map.erase, ha, ih]
    · by_cases hk : k < a <;> simp [Map.erase, Map.insert, Map.get, ha, hk, ih]

variable [DecidableEq β]

@[simp] theorem get_set_same (m : Map β) (k : Nat) (v : β) : Map.get d (Map.set d m k v) k = v := by
  unfold Map.set
  split
  · rename_i h; rw [get_erase_same, h]
  · exact get_insert_erase m k v

theorem get_set_ne (m : Map β) (v : β) {k j : Nat} (h : j ≠ k) : Map.get d (Map.set d m k v) j = Map.get d m j := by
  unfold Map.set
  split
  · exact get_erase_ne m h
  · rw [get_insert_ne _ _ h, get_erase_ne m h]

theorem get_set (m : Map β) (k j : Nat) (v : β) : Map.get d (Map.set d m k v) j = if j = k then v else Map.get d m j := by
  split
  · rename_i h; rw [h, get_set_same]
  · rename_i h; exact get_set_ne m v h

/-! ### The canonical form -/

theorem wfAbove_weaken {b c : Option Nat} (m : Map β) (h : ∀ x, c = some x → ∃ y, b = some y ∧ x ≤ y) (hm : Map.wfAbove d b m = true) :
    Map.wfAbove d c m = true := by
  cases m with
  | nil => rfl
  | cons x m =>
    obtain ⟨a, v⟩ := x
    simp only [Map.wfAbove, Bool.and_eq_true] at hm ⊢
    refine ⟨⟨?_, hm.1.2⟩, hm.2⟩
    cases c with
    | none => rfl
    | some x =>
      obtain ⟨y, hy, hxy⟩ := h x rfl
      simp only [hy, decide_eq_true_eq] at hm ⊢
      omega

theorem wfAbove_erase (m : Map β) (k : Nat) : ∀ b, Map.wfAbove d b m = true → Map.wfAbove d b (Map.erase m k) = true := by
  induction m with
  | nil => exact fun _ h => h
  | cons x m ih =>
    obtain ⟨a, v⟩ := x
    intro b h
    simp only [Map.wfAbove, Bool.and_eq_true] at h
    by_cases ha : a = k
    · have h' : Map.wfAbove d b m = true := wfAbove_weaken m (fun x hx => ⟨a, rfl, by simp [hx] at h; omega⟩) h.2
      simpa [Map.erase, ha] using ih b h'
    · simp only [Map.erase, ha, if_false, Map.wfAbove, Bool.and_eq_true]
      exact ⟨h.1, ih _ h.2⟩

theorem wfAbove_insert (m : Map β) (k : Nat) (v : β) (hv : v ≠ d k) :
    ∀ b, (∀ x, b = some x → x < k) → Map.wfAbove d b (Map.erase m k) = true → Map.wfAbove d b (Map.insert (Map.erase m k) k v) = true := by
  induction m with
  | nil =>
    intro b hb _
    cases b with
    | none => simp [Map.erase, Map.insert, Map.wfAbove, hv]
    | some x => simp [Map.erase, Map.insert, Map.wfAbove, hv, hb x rfl]
  | cons x m ih =>
    obtain ⟨a, w⟩ := x
    intro b hb h
    by_cases ha : a = k
    · simp only [Map.erase, ha, if_true] at h ⊢
      exact ih b hb h
    · simp only [Map.erase, ha, if_false] at h ⊢
      by_cases hk : k < a
      · simp only [Map.insert, hk, if_true]
        simp only [Map.wfAbove, Bool.and_eq_true] at h ⊢
        refine ⟨⟨?_, by simpa using hv⟩, ⟨by simpa using hk, h.1.2⟩, h.2⟩
        cases b with
        | none => rfl
        | some x => simpa using hb x rfl
      · simp only [Map.insert, hk, if_false]
        simp only [Map.wfAbove, Bool.and_eq_true] at h ⊢
        exact ⟨h.1, ih _ (fun x hx => by cases hx; omega) h.2⟩

theorem wf_erase {m : Map β} (k : Nat) (h : Map.wf d m = true) : Map.wf d (Map.erase m k) = true := wfAbove_erase m k none h

theorem wf_set {m : Map β} (k : Nat) (v : β) (h : Map.wf d m = true) : Map.wf d (Map.set d m k v) = true := by
  unfold Map.set
  split
  · exact wf_erase k h
  · rename_i hv; exact wfAbove_insert m k v hv none (fun _ hx => nomatch hx) (wf_erase k h)

theorem wfAbove_filter (p : Nat × β → Bool) (m : Map β) : ∀ b, Map.wfAbove d b m = true → Map.wfAbove d b (m.filter p) = true := by
  induction m with
  | nil => exact fun _ h => h
  | cons x m ih =>
    obtain ⟨a, v⟩ := x
    intro b h
    simp only [Map.wfAbove, Bool.and_eq_true] at h
    by_cases hp : p (a, v) = true
    · simp only [List.filter_cons, hp, if_true, Map.wfAbove, Bool.and_eq_true]
      exact ⟨h.1, ih _ h.2⟩
    · simp only [List.filter_cons, hp]
      exact ih b (wfAbove_weaken m (fun x hx => ⟨a, rfl, by simp [hx] at h; omega⟩) h.2)

theorem wf_filter (p : Nat × β → Bool) {m : Map β} (h : Map.wf d m = true) : Map.wf d (m.filter p) = true := wfAbove_filter p m none h

end Sys2Proof.Laws
end

