-- ==== Sys2Proof/Laws/Memory.lean ====
section
/-! SUPPORT. Bytes, words and tags of memory: a read after a write, and that every memory operation keeps the canonical form. -/

namespace Sys2Proof.Laws

open Sys2Proof Sys2Proof.Machine

/-! ### Bytes -/

@[simp] theorem readByte_writeByte_same (m : List Host.Cell) (a : Nat) (b : Byte) : readByte (writeByte m a b) a = b := get_set_same m a b

theorem readByte_writeByte_ne (m : List Host.Cell) (b : Byte) {a x : Nat} (h : x ≠ a) : readByte (writeByte m a b) x = readByte m x :=
  get_set_ne m b h

theorem readByte_writeBytes_outside (n : Nat) :
    ∀ (m : List Host.Cell) (a w : Nat) {x : Nat}, x < a ∨ a + n ≤ x → readByte (writeBytes m a n w) x = readByte m x := by
  induction n with
  | zero => exact fun _ _ _ _ _ => rfl
  | succ n ih =>
    intro m a w x h
    rw [writeBytes, ih _ _ _ (by omega), readByte_writeByte_ne _ _ (by omega)]

theorem readBytes_congr (n : Nat) : ∀ {m m' : List Host.Cell} {a : Nat}, (∀ x, a ≤ x → x < a + n → readByte m x = readByte m' x) →
    readBytes m a n = readBytes m' a n := by
  induction n with
  | zero => exact fun _ => rfl
  | succ n ih =>
    intro m m' a h
    rw [readBytes, readBytes, h a (by omega) (by omega), ih (fun x h1 h2 => h x (by omega) (by omega))]

/-- A read of the bytes just written gives the value, cut to their number. -/
theorem readBytes_writeBytes_same (n : Nat) : ∀ (m : List Host.Cell) (a w : Nat), readBytes (writeBytes m a n w) a n = w % 256 ^ n := by
  induction n with
  | zero => intro m a w; simp [readBytes, Nat.mod_one]
  | succ n ih =>
    intro m a w
    have hb : (readByte (writeBytes (writeByte m a (BitVec.ofNat 8 w)) (a + 1) n (w / 256)) a).toNat = w % 256 := by
      rw [readByte_writeBytes_outside _ _ _ _ (Or.inl (Nat.lt_succ_self a)), readByte_writeByte_same, BitVec.toNat_ofNat]
    rw [readBytes, writeBytes, ih, hb, show 256 ^ (n + 1) = 256 * 256 ^ n by rw [Nat.pow_succ, Nat.mul_comm], Nat.mod_mul]

/-- A write leaves every read apart from it alone. -/
theorem readBytes_writeBytes_apart {m : List Host.Cell} {a b n k w : Nat} (h : a + n ≤ b ∨ b + k ≤ a) :
    readBytes (writeBytes m a n w) b k = readBytes m b k :=
  readBytes_congr k fun x _ _ => readByte_writeBytes_outside n m a w (by omega)

theorem readBytes_lt (m : List Host.Cell) (n : Nat) : ∀ a, readBytes m a n < 256 ^ n := by
  induction n with
  | zero => intro a; simp [readBytes]
  | succ n ih =>
    intro a
    have h1 := ih (a + 1)
    have h2 : (readByte m a).toNat < 256 := (readByte m a).isLt
    rw [readBytes, Nat.pow_succ]
    omega

/-! ### The canonical form -/

theorem wf_writeByte {m : List Host.Cell} (a : Nat) (b : Byte) (h : Memory.wf m = true) : Memory.wf (writeByte m a b) = true := wf_set a b h

theorem wf_writeBytes (n : Nat) : ∀ {m : List Host.Cell} (a w : Nat), Memory.wf m = true → Memory.wf (writeBytes m a n w) = true := by
  induction n with
  | zero => exact fun _ _ h => h
  | succ n ih => exact fun a w h => ih _ _ (wf_writeByte _ _ h)

theorem wf_poke {s : State} (d width v : Nat) (h : Memory.wf s.mem = true) : Memory.wf (s.poke d width v).mem = true := by
  unfold State.poke
  split
  · exact h
  · exact wf_writeBytes _ _ _ h

theorem wf_setTagAt {s : State} (d : Nat) (t : Tag) (h : Map.wf (fun _ => ({} : Tag)) s.tags = true) :
    Map.wf (fun _ => ({} : Tag)) (s.setTagAt d t).tags = true := wf_set _ t h

theorem wf_reset : Memory.wf State.reset.mem = true := rfl

/-! ### Words and tags -/

theorem word_poke_same {s : State} {d : Nat} (v : Nat) (hd : d % 8 = 0) (hr : s.retiredAt d = false) : (s.poke d 8 v).word d = wd v := by
  have h : wordOf d = d := by unfold wordOf; omega
  simp only [State.word, State.poke, hr, Bool.false_eq_true, if_false, h, readBytes_writeBytes_same, wd]
  apply BitVec.eq_of_toNat_eq
  simp only [BitVec.toNat_ofNat]
  omega

theorem word_poke_apart {s : State} {d x width : Nat} (v : Nat) (h : d + width ≤ wordOf x ∨ wordOf x + 8 ≤ d) :
    (s.poke d width v).word x = s.word x := by
  unfold State.poke
  split
  · rfl
  · simp only [State.word, readBytes_writeBytes_apart h]

@[simp] theorem tagAt_poke (s : State) (d width v x : Nat) : (s.poke d width v).tagAt x = s.tagAt x := by
  unfold State.poke; split <;> rfl

@[simp] theorem retiredAt_setTagAt (s : State) (d x : Nat) (t : Tag) : (s.setTagAt d t).retiredAt x = s.retiredAt x := rfl

theorem tagAt_eq (s : State) (d : Nat) (hr : s.retiredAt d = false) : s.tagAt d = Map.get (fun _ => {}) s.tags (wordOf d) := by
  simp [State.tagAt, hr]

theorem tagAt_setTagAt_same {s : State} {d : Nat} (t : Tag) (hr : s.retiredAt d = false) : (s.setTagAt d t).tagAt d = t := by
  rw [tagAt_eq _ _ (by simpa using hr)]
  exact get_set_same _ _ _

theorem tagAt_setTagAt_apart (s : State) (t : Tag) {d x : Nat} (h : wordOf x ≠ wordOf d) : (s.setTagAt d t).tagAt x = s.tagAt x := by
  have e : Map.get (fun _ => ({} : Tag)) (s.setTagAt d t).tags (wordOf x) = Map.get (fun _ => {}) s.tags (wordOf x) := get_set_ne _ _ h
  simp only [State.tagAt, retiredAt_setTagAt, e]

end Sys2Proof.Laws
end

