-- ==== Sys2Proof/Laws/State.lean ====
section
/-! SUPPORT. What each update of the state leaves and what it sets, field by field, so that no proof unfolds a record update. -/

namespace Sys2Proof.Laws

open Sys2Proof Sys2Proof.Machine

/-! ### A context -/

@[simp] theorem setCtxAt_agenda (s : State) (id : Nat) (c : Ctx) : (s.setCtxAt id c).agenda = s.agenda := rfl
@[simp] theorem setCtxAt_cur (s : State) (id : Nat) (c : Ctx) : (s.setCtxAt id c).cur = s.cur := rfl
@[simp] theorem setCtxAt_issuing (s : State) (id : Nat) (c : Ctx) : (s.setCtxAt id c).issuing = s.issuing := rfl
@[simp] theorem setCtxAt_cycle (s : State) (id : Nat) (c : Ctx) : (s.setCtxAt id c).cycle = s.cycle := rfl
@[simp] theorem setCtxAt_fresh (s : State) (id : Nat) (c : Ctx) : (s.setCtxAt id c).fresh = s.fresh := rfl
@[simp] theorem setCtxAt_free (s : State) (id : Nat) (c : Ctx) : (s.setCtxAt id c).free = s.free := rfl
@[simp] theorem setCtxAt_package (s : State) (id : Nat) (c : Ctx) : (s.setCtxAt id c).package = s.package := rfl
@[simp] theorem setCtxAt_domain (s : State) (id : Nat) (c : Ctx) : (s.setCtxAt id c).domain = s.domain := rfl
@[simp] theorem setCtxAt_members (s : State) (id : Nat) (c : Ctx) : (s.setCtxAt id c).members = s.members := rfl
@[simp] theorem setCtxAt_infra (s : State) (id : Nat) (c : Ctx) : (s.setCtxAt id c).infra = s.infra := rfl
@[simp] theorem setCtxAt_tiles (s : State) (id : Nat) (c : Ctx) : (s.setCtxAt id c).tiles = s.tiles := rfl
@[simp] theorem setCtxAt_ctxs (s : State) (id : Nat) (c : Ctx) : (s.setCtxAt id c).ctxs = Map.set (fun _ => {}) s.ctxs id c := rfl
@[simp] theorem setCtxAt_mem (s : State) (id : Nat) (c : Ctx) : (s.setCtxAt id c).mem = s.mem := rfl
@[simp] theorem setCtxAt_codeOld (s : State) (id : Nat) (c : Ctx) : (s.setCtxAt id c).codeOld = s.codeOld := rfl
@[simp] theorem setCtxAt_dataOld (s : State) (id : Nat) (c : Ctx) : (s.setCtxAt id c).dataOld = s.dataOld := rfl
@[simp] theorem setCtxAt_tags (s : State) (id : Nat) (c : Ctx) : (s.setCtxAt id c).tags = s.tags := rfl
@[simp] theorem setCtxAt_net (s : State) (id : Nat) (c : Ctx) : (s.setCtxAt id c).net = s.net := rfl
@[simp] theorem setCtxAt_replies (s : State) (id : Nat) (c : Ctx) : (s.setCtxAt id c).replies = s.replies := rfl
@[simp] theorem setCtxAt_refused (s : State) (id : Nat) (c : Ctx) : (s.setCtxAt id c).refused = s.refused := rfl
@[simp] theorem setCtxAt_waits (s : State) (id : Nat) (c : Ctx) : (s.setCtxAt id c).waits = s.waits := rfl
@[simp] theorem setCtxAt_idleWaits (s : State) (id : Nat) (c : Ctx) : (s.setCtxAt id c).idleWaits = s.idleWaits := rfl
@[simp] theorem setCtxAt_waking (s : State) (id : Nat) (c : Ctx) : (s.setCtxAt id c).waking = s.waking := rfl
@[simp] theorem setCtxAt_looked (s : State) (id : Nat) (c : Ctx) : (s.setCtxAt id c).looked = s.looked := rfl
@[simp] theorem setCtxAt_lostRecs (s : State) (id : Nat) (c : Ctx) : (s.setCtxAt id c).lostRecs = s.lostRecs := rfl
@[simp] theorem setCtxAt_heldAnswers (s : State) (id : Nat) (c : Ctx) : (s.setCtxAt id c).heldAnswers = s.heldAnswers := rfl
@[simp] theorem setCtxAt_barWaits (s : State) (id : Nat) (c : Ctx) : (s.setCtxAt id c).barWaits = s.barWaits := rfl
@[simp] theorem setCtxAt_image (s : State) (id : Nat) (c : Ctx) : (s.setCtxAt id c).image = s.image := rfl
@[simp] theorem setCtxAt_prevImage (s : State) (id : Nat) (c : Ctx) : (s.setCtxAt id c).prevImage = s.prevImage := rfl
@[simp] theorem setCtxAt_rollback (s : State) (id : Nat) (c : Ctx) : (s.setCtxAt id c).rollback = s.rollback := rfl
@[simp] theorem setCtxAt_reports (s : State) (id : Nat) (c : Ctx) : (s.setCtxAt id c).reports = s.reports := rfl
@[simp] theorem setCtxAt_served (s : State) (id : Nat) (c : Ctx) : (s.setCtxAt id c).served = s.served := rfl
@[simp] theorem setCtxAt_watches (s : State) (id : Nat) (c : Ctx) : (s.setCtxAt id c).watches = s.watches := rfl
@[simp] theorem setCtxAt_msgs (s : State) (id : Nat) (c : Ctx) : (s.setCtxAt id c).msgs = s.msgs := rfl
@[simp] theorem setCtxAt_refusedMsgs (s : State) (id : Nat) (c : Ctx) : (s.setCtxAt id c).refusedMsgs = s.refusedMsgs := rfl
@[simp] theorem setCtxAt_marks (s : State) (id : Nat) (c : Ctx) : (s.setCtxAt id c).marks = s.marks := rfl
@[simp] theorem setCtxAt_releases (s : State) (id : Nat) (c : Ctx) : (s.setCtxAt id c).releases = s.releases := rfl
@[simp] theorem setCtxAt_ircfg (s : State) (id : Nat) (c : Ctx) : (s.setCtxAt id c).ircfg = s.ircfg := rfl
@[simp] theorem setCtxAt_irhash (s : State) (id : Nat) (c : Ctx) : (s.setCtxAt id c).irhash = s.irhash := rfl
@[simp] theorem setCtxAt_btab (s : State) (id : Nat) (c : Ctx) : (s.setCtxAt id c).btab = s.btab := rfl
@[simp] theorem setCtxAt_houseBtab (s : State) (id : Nat) (c : Ctx) : (s.setCtxAt id c).houseBtab = s.houseBtab := rfl
@[simp] theorem setCtxAt_kslot (s : State) (id : Nat) (c : Ctx) : (s.setCtxAt id c).kslot = s.kslot := rfl
@[simp] theorem setCtxAt_ctr (s : State) (id : Nat) (c : Ctx) : (s.setCtxAt id c).ctr = s.ctr := rfl
@[simp] theorem setCtxAt_epochs (s : State) (id : Nat) (c : Ctx) : (s.setCtxAt id c).epochs = s.epochs := rfl
@[simp] theorem setCtxAt_lineKeys (s : State) (id : Nat) (c : Ctx) : (s.setCtxAt id c).lineKeys = s.lineKeys := rfl
@[simp] theorem setCtxAt_keyGens (s : State) (id : Nat) (c : Ctx) : (s.setCtxAt id c).keyGens = s.keyGens := rfl
@[simp] theorem setCtxAt_counters (s : State) (id : Nat) (c : Ctx) : (s.setCtxAt id c).counters = s.counters := rfl
@[simp] theorem setCtxAt_sroot (s : State) (id : Nat) (c : Ctx) : (s.setCtxAt id c).sroot = s.sroot := rfl
@[simp] theorem setCtxAt_badLines (s : State) (id : Nat) (c : Ctx) : (s.setCtxAt id c).badLines = s.badLines := rfl
@[simp] theorem setCtxAt_badBonds (s : State) (id : Nat) (c : Ctx) : (s.setCtxAt id c).badBonds = s.badBonds := rfl
@[simp] theorem setCtxAt_badCounters (s : State) (id : Nat) (c : Ctx) : (s.setCtxAt id c).badCounters = s.badCounters := rfl
@[simp] theorem setCtxAt_quarantines (s : State) (id : Nat) (c : Ctx) : (s.setCtxAt id c).quarantines = s.quarantines := rfl
@[simp] theorem setCtxAt_rekeys (s : State) (id : Nat) (c : Ctx) : (s.setCtxAt id c).rekeys = s.rekeys := rfl
@[simp] theorem setCtxAt_windows (s : State) (id : Nat) (c : Ctx) : (s.setCtxAt id c).windows = s.windows := rfl
@[simp] theorem setCtxAt_sessions (s : State) (id : Nat) (c : Ctx) : (s.setCtxAt id c).sessions = s.sessions := rfl
@[simp] theorem setCtxAt_spares (s : State) (id : Nat) (c : Ctx) : (s.setCtxAt id c).spares = s.spares := rfl
@[simp] theorem setCtxAt_pageReqs (s : State) (id : Nat) (c : Ctx) : (s.setCtxAt id c).pageReqs = s.pageReqs := rfl
@[simp] theorem setCtxAt_ranges (s : State) (id : Nat) (c : Ctx) : (s.setCtxAt id c).ranges = s.ranges := rfl
@[simp] theorem setCtxAt_hostPosts (s : State) (id : Nat) (c : Ctx) : (s.setCtxAt id c).hostPosts = s.hostPosts := rfl
@[simp] theorem setCtxAt_records (s : State) (id : Nat) (c : Ctx) : (s.setCtxAt id c).records = s.records := rfl
@[simp] theorem setCtxAt_rotations (s : State) (id : Nat) (c : Ctx) : (s.setCtxAt id c).rotations = s.rotations := rfl
@[simp] theorem setCtxAt_saved (s : State) (id : Nat) (c : Ctx) : (s.setCtxAt id c).saved = s.saved := rfl
@[simp] theorem setCtxAt_savedTiles (s : State) (id : Nat) (c : Ctx) : (s.setCtxAt id c).savedTiles = s.savedTiles := rfl
@[simp] theorem setCtxAt_tables (s : State) (id : Nat) (c : Ctx) : (s.setCtxAt id c).tables = s.tables := rfl
@[simp] theorem setCtxAt_launches (s : State) (id : Nat) (c : Ctx) : (s.setCtxAt id c).launches = s.launches := rfl
@[simp] theorem setCtxAt_rm (s : State) (id : Nat) (c : Ctx) : (s.setCtxAt id c).rm = s.rm := rfl
@[simp] theorem setCtxAt_rstcause (s : State) (id : Nat) (c : Ctx) : (s.setCtxAt id c).rstcause = s.rstcause := rfl
@[simp] theorem setCtxAt_pwrlim (s : State) (id : Nat) (c : Ctx) : (s.setCtxAt id c).pwrlim = s.pwrlim := rfl
@[simp] theorem setCtxAt_fns (s : State) (id : Nat) (c : Ctx) : (s.setCtxAt id c).fns = s.fns := rfl
@[simp] theorem setCtxAt_vfbind (s : State) (id : Nat) (c : Ctx) : (s.setCtxAt id c).vfbind = s.vfbind := rfl
@[simp] theorem setCtxAt_vfEnable (s : State) (id : Nat) (c : Ctx) : (s.setCtxAt id c).vfEnable = s.vfEnable := rfl
@[simp] theorem setCtxAt_bound (s : State) (id : Nat) (c : Ctx) : (s.setCtxAt id c).bound = s.bound := rfl
@[simp] theorem setCtxAt_images (s : State) (id : Nat) (c : Ctx) : (s.setCtxAt id c).images = s.images := rfl
@[simp] theorem setCtxAt_teardowns (s : State) (id : Nat) (c : Ctx) : (s.setCtxAt id c).teardowns = s.teardowns := rfl
@[simp] theorem setCtxAt_attested (s : State) (id : Nat) (c : Ctx) : (s.setCtxAt id c).attested = s.attested := rfl
@[simp] theorem setCtxAt_hostRead (s : State) (id : Nat) (c : Ctx) : (s.setCtxAt id c).hostRead = s.hostRead := rfl
@[simp] theorem setCtxAt_msixSent (s : State) (id : Nat) (c : Ctx) : (s.setCtxAt id c).msixSent = s.msixSent := rfl
@[simp] theorem setCtxAt_discards (s : State) (id : Nat) (c : Ctx) : (s.setCtxAt id c).discards = s.discards := rfl
@[simp] theorem setCtxAt_discarded (s : State) (id : Nat) (c : Ctx) : (s.setCtxAt id c).discarded = s.discarded := rfl
@[simp] theorem setCtxAt_channels (s : State) (id : Nat) (c : Ctx) : (s.setCtxAt id c).channels = s.channels := rfl
@[simp] theorem setCtxAt_booted (s : State) (id : Nat) (c : Ctx) : (s.setCtxAt id c).booted = s.booted := rfl

/-! ### The issuing context -/

@[simp] theorem setMe_agenda (s : State) (c : Ctx) : (s.setMe c).agenda = s.agenda := rfl
@[simp] theorem setMe_cur (s : State) (c : Ctx) : (s.setMe c).cur = s.cur := rfl
@[simp] theorem setMe_issuing (s : State) (c : Ctx) : (s.setMe c).issuing = s.issuing := rfl
@[simp] theorem setMe_cycle (s : State) (c : Ctx) : (s.setMe c).cycle = s.cycle := rfl
@[simp] theorem setMe_fresh (s : State) (c : Ctx) : (s.setMe c).fresh = s.fresh := rfl
@[simp] theorem setMe_free (s : State) (c : Ctx) : (s.setMe c).free = s.free := rfl
@[simp] theorem setMe_package (s : State) (c : Ctx) : (s.setMe c).package = s.package := rfl
@[simp] theorem setMe_domain (s : State) (c : Ctx) : (s.setMe c).domain = s.domain := rfl
@[simp] theorem setMe_members (s : State) (c : Ctx) : (s.setMe c).members = s.members := rfl
@[simp] theorem setMe_infra (s : State) (c : Ctx) : (s.setMe c).infra = s.infra := rfl
@[simp] theorem setMe_tiles (s : State) (c : Ctx) : (s.setMe c).tiles = s.tiles := rfl
@[simp] theorem setMe_ctxs (s : State) (c : Ctx) : (s.setMe c).ctxs = Map.set (fun _ => {}) s.ctxs s.cur c := rfl
@[simp] theorem setMe_mem (s : State) (c : Ctx) : (s.setMe c).mem = s.mem := rfl
@[simp] theorem setMe_codeOld (s : State) (c : Ctx) : (s.setMe c).codeOld = s.codeOld := rfl
@[simp] theorem setMe_dataOld (s : State) (c : Ctx) : (s.setMe c).dataOld = s.dataOld := rfl
@[simp] theorem setMe_tags (s : State) (c : Ctx) : (s.setMe c).tags = s.tags := rfl
@[simp] theorem setMe_net (s : State) (c : Ctx) : (s.setMe c).net = s.net := rfl
@[simp] theorem setMe_replies (s : State) (c : Ctx) : (s.setMe c).replies = s.replies := rfl
@[simp] theorem setMe_refused (s : State) (c : Ctx) : (s.setMe c).refused = s.refused := rfl
@[simp] theorem setMe_waits (s : State) (c : Ctx) : (s.setMe c).waits = s.waits := rfl
@[simp] theorem setMe_idleWaits (s : State) (c : Ctx) : (s.setMe c).idleWaits = s.idleWaits := rfl
@[simp] theorem setMe_waking (s : State) (c : Ctx) : (s.setMe c).waking = s.waking := rfl
@[simp] theorem setMe_looked (s : State) (c : Ctx) : (s.setMe c).looked = s.looked := rfl
@[simp] theorem setMe_lostRecs (s : State) (c : Ctx) : (s.setMe c).lostRecs = s.lostRecs := rfl
@[simp] theorem setMe_heldAnswers (s : State) (c : Ctx) : (s.setMe c).heldAnswers = s.heldAnswers := rfl
@[simp] theorem setMe_barWaits (s : State) (c : Ctx) : (s.setMe c).barWaits = s.barWaits := rfl
@[simp] theorem setMe_image (s : State) (c : Ctx) : (s.setMe c).image = s.image := rfl
@[simp] theorem setMe_prevImage (s : State) (c : Ctx) : (s.setMe c).prevImage = s.prevImage := rfl
@[simp] theorem setMe_rollback (s : State) (c : Ctx) : (s.setMe c).rollback = s.rollback := rfl
@[simp] theorem setMe_reports (s : State) (c : Ctx) : (s.setMe c).reports = s.reports := rfl
@[simp] theorem setMe_served (s : State) (c : Ctx) : (s.setMe c).served = s.served := rfl
@[simp] theorem setMe_watches (s : State) (c : Ctx) : (s.setMe c).watches = s.watches := rfl
@[simp] theorem setMe_msgs (s : State) (c : Ctx) : (s.setMe c).msgs = s.msgs := rfl
@[simp] theorem setMe_refusedMsgs (s : State) (c : Ctx) : (s.setMe c).refusedMsgs = s.refusedMsgs := rfl
@[simp] theorem setMe_marks (s : State) (c : Ctx) : (s.setMe c).marks = s.marks := rfl
@[simp] theorem setMe_releases (s : State) (c : Ctx) : (s.setMe c).releases = s.releases := rfl
@[simp] theorem setMe_ircfg (s : State) (c : Ctx) : (s.setMe c).ircfg = s.ircfg := rfl
@[simp] theorem setMe_irhash (s : State) (c : Ctx) : (s.setMe c).irhash = s.irhash := rfl
@[simp] theorem setMe_btab (s : State) (c : Ctx) : (s.setMe c).btab = s.btab := rfl
@[simp] theorem setMe_houseBtab (s : State) (c : Ctx) : (s.setMe c).houseBtab = s.houseBtab := rfl
@[simp] theorem setMe_kslot (s : State) (c : Ctx) : (s.setMe c).kslot = s.kslot := rfl
@[simp] theorem setMe_ctr (s : State) (c : Ctx) : (s.setMe c).ctr = s.ctr := rfl
@[simp] theorem setMe_epochs (s : State) (c : Ctx) : (s.setMe c).epochs = s.epochs := rfl
@[simp] theorem setMe_lineKeys (s : State) (c : Ctx) : (s.setMe c).lineKeys = s.lineKeys := rfl
@[simp] theorem setMe_keyGens (s : State) (c : Ctx) : (s.setMe c).keyGens = s.keyGens := rfl
@[simp] theorem setMe_counters (s : State) (c : Ctx) : (s.setMe c).counters = s.counters := rfl
@[simp] theorem setMe_sroot (s : State) (c : Ctx) : (s.setMe c).sroot = s.sroot := rfl
@[simp] theorem setMe_badLines (s : State) (c : Ctx) : (s.setMe c).badLines = s.badLines := rfl
@[simp] theorem setMe_badBonds (s : State) (c : Ctx) : (s.setMe c).badBonds = s.badBonds := rfl
@[simp] theorem setMe_badCounters (s : State) (c : Ctx) : (s.setMe c).badCounters = s.badCounters := rfl
@[simp] theorem setMe_quarantines (s : State) (c : Ctx) : (s.setMe c).quarantines = s.quarantines := rfl
@[simp] theorem setMe_rekeys (s : State) (c : Ctx) : (s.setMe c).rekeys = s.rekeys := rfl
@[simp] theorem setMe_windows (s : State) (c : Ctx) : (s.setMe c).windows = s.windows := rfl
@[simp] theorem setMe_sessions (s : State) (c : Ctx) : (s.setMe c).sessions = s.sessions := rfl
@[simp] theorem setMe_spares (s : State) (c : Ctx) : (s.setMe c).spares = s.spares := rfl
@[simp] theorem setMe_pageReqs (s : State) (c : Ctx) : (s.setMe c).pageReqs = s.pageReqs := rfl
@[simp] theorem setMe_ranges (s : State) (c : Ctx) : (s.setMe c).ranges = s.ranges := rfl
@[simp] theorem setMe_hostPosts (s : State) (c : Ctx) : (s.setMe c).hostPosts = s.hostPosts := rfl
@[simp] theorem setMe_records (s : State) (c : Ctx) : (s.setMe c).records = s.records := rfl
@[simp] theorem setMe_rotations (s : State) (c : Ctx) : (s.setMe c).rotations = s.rotations := rfl
@[simp] theorem setMe_saved (s : State) (c : Ctx) : (s.setMe c).saved = s.saved := rfl
@[simp] theorem setMe_savedTiles (s : State) (c : Ctx) : (s.setMe c).savedTiles = s.savedTiles := rfl
@[simp] theorem setMe_tables (s : State) (c : Ctx) : (s.setMe c).tables = s.tables := rfl
@[simp] theorem setMe_launches (s : State) (c : Ctx) : (s.setMe c).launches = s.launches := rfl
@[simp] theorem setMe_rm (s : State) (c : Ctx) : (s.setMe c).rm = s.rm := rfl
@[simp] theorem setMe_rstcause (s : State) (c : Ctx) : (s.setMe c).rstcause = s.rstcause := rfl
@[simp] theorem setMe_pwrlim (s : State) (c : Ctx) : (s.setMe c).pwrlim = s.pwrlim := rfl
@[simp] theorem setMe_fns (s : State) (c : Ctx) : (s.setMe c).fns = s.fns := rfl
@[simp] theorem setMe_vfbind (s : State) (c : Ctx) : (s.setMe c).vfbind = s.vfbind := rfl
@[simp] theorem setMe_vfEnable (s : State) (c : Ctx) : (s.setMe c).vfEnable = s.vfEnable := rfl
@[simp] theorem setMe_bound (s : State) (c : Ctx) : (s.setMe c).bound = s.bound := rfl
@[simp] theorem setMe_images (s : State) (c : Ctx) : (s.setMe c).images = s.images := rfl
@[simp] theorem setMe_teardowns (s : State) (c : Ctx) : (s.setMe c).teardowns = s.teardowns := rfl
@[simp] theorem setMe_attested (s : State) (c : Ctx) : (s.setMe c).attested = s.attested := rfl
@[simp] theorem setMe_hostRead (s : State) (c : Ctx) : (s.setMe c).hostRead = s.hostRead := rfl
@[simp] theorem setMe_msixSent (s : State) (c : Ctx) : (s.setMe c).msixSent = s.msixSent := rfl
@[simp] theorem setMe_discards (s : State) (c : Ctx) : (s.setMe c).discards = s.discards := rfl
@[simp] theorem setMe_discarded (s : State) (c : Ctx) : (s.setMe c).discarded = s.discarded := rfl
@[simp] theorem setMe_channels (s : State) (c : Ctx) : (s.setMe c).channels = s.channels := rfl
@[simp] theorem setMe_booted (s : State) (c : Ctx) : (s.setMe c).booted = s.booted := rfl

/-! ### A tile -/

@[simp] theorem setTileAt_agenda (s : State) (n : Nat) (t : Tile) : (s.setTileAt n t).agenda = s.agenda := rfl
@[simp] theorem setTileAt_cur (s : State) (n : Nat) (t : Tile) : (s.setTileAt n t).cur = s.cur := rfl
@[simp] theorem setTileAt_issuing (s : State) (n : Nat) (t : Tile) : (s.setTileAt n t).issuing = s.issuing := rfl
@[simp] theorem setTileAt_cycle (s : State) (n : Nat) (t : Tile) : (s.setTileAt n t).cycle = s.cycle := rfl
@[simp] theorem setTileAt_fresh (s : State) (n : Nat) (t : Tile) : (s.setTileAt n t).fresh = s.fresh := rfl
@[simp] theorem setTileAt_free (s : State) (n : Nat) (t : Tile) : (s.setTileAt n t).free = s.free := rfl
@[simp] theorem setTileAt_package (s : State) (n : Nat) (t : Tile) : (s.setTileAt n t).package = s.package := rfl
@[simp] theorem setTileAt_domain (s : State) (n : Nat) (t : Tile) : (s.setTileAt n t).domain = s.domain := rfl
@[simp] theorem setTileAt_members (s : State) (n : Nat) (t : Tile) : (s.setTileAt n t).members = s.members := rfl
@[simp] theorem setTileAt_infra (s : State) (n : Nat) (t : Tile) : (s.setTileAt n t).infra = s.infra := rfl
@[simp] theorem setTileAt_tiles (s : State) (n : Nat) (t : Tile) : (s.setTileAt n t).tiles = Map.set (fun _ => {}) s.tiles n t := rfl
@[simp] theorem setTileAt_ctxs (s : State) (n : Nat) (t : Tile) : (s.setTileAt n t).ctxs = s.ctxs := rfl
@[simp] theorem setTileAt_mem (s : State) (n : Nat) (t : Tile) : (s.setTileAt n t).mem = s.mem := rfl
@[simp] theorem setTileAt_codeOld (s : State) (n : Nat) (t : Tile) : (s.setTileAt n t).codeOld = s.codeOld := rfl
@[simp] theorem setTileAt_dataOld (s : State) (n : Nat) (t : Tile) : (s.setTileAt n t).dataOld = s.dataOld := rfl
@[simp] theorem setTileAt_tags (s : State) (n : Nat) (t : Tile) : (s.setTileAt n t).tags = s.tags := rfl
@[simp] theorem setTileAt_net (s : State) (n : Nat) (t : Tile) : (s.setTileAt n t).net = s.net := rfl
@[simp] theorem setTileAt_replies (s : State) (n : Nat) (t : Tile) : (s.setTileAt n t).replies = s.replies := rfl
@[simp] theorem setTileAt_refused (s : State) (n : Nat) (t : Tile) : (s.setTileAt n t).refused = s.refused := rfl
@[simp] theorem setTileAt_waits (s : State) (n : Nat) (t : Tile) : (s.setTileAt n t).waits = s.waits := rfl
@[simp] theorem setTileAt_idleWaits (s : State) (n : Nat) (t : Tile) : (s.setTileAt n t).idleWaits = s.idleWaits := rfl
@[simp] theorem setTileAt_waking (s : State) (n : Nat) (t : Tile) : (s.setTileAt n t).waking = s.waking := rfl
@[simp] theorem setTileAt_looked (s : State) (n : Nat) (t : Tile) : (s.setTileAt n t).looked = s.looked := rfl
@[simp] theorem setTileAt_lostRecs (s : State) (n : Nat) (t : Tile) : (s.setTileAt n t).lostRecs = s.lostRecs := rfl
@[simp] theorem setTileAt_heldAnswers (s : State) (n : Nat) (t : Tile) : (s.setTileAt n t).heldAnswers = s.heldAnswers := rfl
@[simp] theorem setTileAt_barWaits (s : State) (n : Nat) (t : Tile) : (s.setTileAt n t).barWaits = s.barWaits := rfl
@[simp] theorem setTileAt_image (s : State) (n : Nat) (t : Tile) : (s.setTileAt n t).image = s.image := rfl
@[simp] theorem setTileAt_prevImage (s : State) (n : Nat) (t : Tile) : (s.setTileAt n t).prevImage = s.prevImage := rfl
@[simp] theorem setTileAt_rollback (s : State) (n : Nat) (t : Tile) : (s.setTileAt n t).rollback = s.rollback := rfl
@[simp] theorem setTileAt_reports (s : State) (n : Nat) (t : Tile) : (s.setTileAt n t).reports = s.reports := rfl
@[simp] theorem setTileAt_served (s : State) (n : Nat) (t : Tile) : (s.setTileAt n t).served = s.served := rfl
@[simp] theorem setTileAt_watches (s : State) (n : Nat) (t : Tile) : (s.setTileAt n t).watches = s.watches := rfl
@[simp] theorem setTileAt_msgs (s : State) (n : Nat) (t : Tile) : (s.setTileAt n t).msgs = s.msgs := rfl
@[simp] theorem setTileAt_refusedMsgs (s : State) (n : Nat) (t : Tile) : (s.setTileAt n t).refusedMsgs = s.refusedMsgs := rfl
@[simp] theorem setTileAt_marks (s : State) (n : Nat) (t : Tile) : (s.setTileAt n t).marks = s.marks := rfl
@[simp] theorem setTileAt_releases (s : State) (n : Nat) (t : Tile) : (s.setTileAt n t).releases = s.releases := rfl
@[simp] theorem setTileAt_ircfg (s : State) (n : Nat) (t : Tile) : (s.setTileAt n t).ircfg = s.ircfg := rfl
@[simp] theorem setTileAt_irhash (s : State) (n : Nat) (t : Tile) : (s.setTileAt n t).irhash = s.irhash := rfl
@[simp] theorem setTileAt_btab (s : State) (n : Nat) (t : Tile) : (s.setTileAt n t).btab = s.btab := rfl
@[simp] theorem setTileAt_houseBtab (s : State) (n : Nat) (t : Tile) : (s.setTileAt n t).houseBtab = s.houseBtab := rfl
@[simp] theorem setTileAt_kslot (s : State) (n : Nat) (t : Tile) : (s.setTileAt n t).kslot = s.kslot := rfl
@[simp] theorem setTileAt_ctr (s : State) (n : Nat) (t : Tile) : (s.setTileAt n t).ctr = s.ctr := rfl
@[simp] theorem setTileAt_epochs (s : State) (n : Nat) (t : Tile) : (s.setTileAt n t).epochs = s.epochs := rfl
@[simp] theorem setTileAt_lineKeys (s : State) (n : Nat) (t : Tile) : (s.setTileAt n t).lineKeys = s.lineKeys := rfl
@[simp] theorem setTileAt_keyGens (s : State) (n : Nat) (t : Tile) : (s.setTileAt n t).keyGens = s.keyGens := rfl
@[simp] theorem setTileAt_counters (s : State) (n : Nat) (t : Tile) : (s.setTileAt n t).counters = s.counters := rfl
@[simp] theorem setTileAt_sroot (s : State) (n : Nat) (t : Tile) : (s.setTileAt n t).sroot = s.sroot := rfl
@[simp] theorem setTileAt_badLines (s : State) (n : Nat) (t : Tile) : (s.setTileAt n t).badLines = s.badLines := rfl
@[simp] theorem setTileAt_badBonds (s : State) (n : Nat) (t : Tile) : (s.setTileAt n t).badBonds = s.badBonds := rfl
@[simp] theorem setTileAt_badCounters (s : State) (n : Nat) (t : Tile) : (s.setTileAt n t).badCounters = s.badCounters := rfl
@[simp] theorem setTileAt_quarantines (s : State) (n : Nat) (t : Tile) : (s.setTileAt n t).quarantines = s.quarantines := rfl
@[simp] theorem setTileAt_rekeys (s : State) (n : Nat) (t : Tile) : (s.setTileAt n t).rekeys = s.rekeys := rfl
@[simp] theorem setTileAt_windows (s : State) (n : Nat) (t : Tile) : (s.setTileAt n t).windows = s.windows := rfl
@[simp] theorem setTileAt_sessions (s : State) (n : Nat) (t : Tile) : (s.setTileAt n t).sessions = s.sessions := rfl
@[simp] theorem setTileAt_spares (s : State) (n : Nat) (t : Tile) : (s.setTileAt n t).spares = s.spares := rfl
@[simp] theorem setTileAt_pageReqs (s : State) (n : Nat) (t : Tile) : (s.setTileAt n t).pageReqs = s.pageReqs := rfl
@[simp] theorem setTileAt_ranges (s : State) (n : Nat) (t : Tile) : (s.setTileAt n t).ranges = s.ranges := rfl
@[simp] theorem setTileAt_hostPosts (s : State) (n : Nat) (t : Tile) : (s.setTileAt n t).hostPosts = s.hostPosts := rfl
@[simp] theorem setTileAt_records (s : State) (n : Nat) (t : Tile) : (s.setTileAt n t).records = s.records := rfl
@[simp] theorem setTileAt_rotations (s : State) (n : Nat) (t : Tile) : (s.setTileAt n t).rotations = s.rotations := rfl
@[simp] theorem setTileAt_saved (s : State) (n : Nat) (t : Tile) : (s.setTileAt n t).saved = s.saved := rfl
@[simp] theorem setTileAt_savedTiles (s : State) (n : Nat) (t : Tile) : (s.setTileAt n t).savedTiles = s.savedTiles := rfl
@[simp] theorem setTileAt_tables (s : State) (n : Nat) (t : Tile) : (s.setTileAt n t).tables = s.tables := rfl
@[simp] theorem setTileAt_launches (s : State) (n : Nat) (t : Tile) : (s.setTileAt n t).launches = s.launches := rfl
@[simp] theorem setTileAt_rm (s : State) (n : Nat) (t : Tile) : (s.setTileAt n t).rm = s.rm := rfl
@[simp] theorem setTileAt_rstcause (s : State) (n : Nat) (t : Tile) : (s.setTileAt n t).rstcause = s.rstcause := rfl
@[simp] theorem setTileAt_pwrlim (s : State) (n : Nat) (t : Tile) : (s.setTileAt n t).pwrlim = s.pwrlim := rfl
@[simp] theorem setTileAt_fns (s : State) (n : Nat) (t : Tile) : (s.setTileAt n t).fns = s.fns := rfl
@[simp] theorem setTileAt_vfbind (s : State) (n : Nat) (t : Tile) : (s.setTileAt n t).vfbind = s.vfbind := rfl
@[simp] theorem setTileAt_vfEnable (s : State) (n : Nat) (t : Tile) : (s.setTileAt n t).vfEnable = s.vfEnable := rfl
@[simp] theorem setTileAt_bound (s : State) (n : Nat) (t : Tile) : (s.setTileAt n t).bound = s.bound := rfl
@[simp] theorem setTileAt_images (s : State) (n : Nat) (t : Tile) : (s.setTileAt n t).images = s.images := rfl
@[simp] theorem setTileAt_teardowns (s : State) (n : Nat) (t : Tile) : (s.setTileAt n t).teardowns = s.teardowns := rfl
@[simp] theorem setTileAt_attested (s : State) (n : Nat) (t : Tile) : (s.setTileAt n t).attested = s.attested := rfl
@[simp] theorem setTileAt_hostRead (s : State) (n : Nat) (t : Tile) : (s.setTileAt n t).hostRead = s.hostRead := rfl
@[simp] theorem setTileAt_msixSent (s : State) (n : Nat) (t : Tile) : (s.setTileAt n t).msixSent = s.msixSent := rfl
@[simp] theorem setTileAt_discards (s : State) (n : Nat) (t : Tile) : (s.setTileAt n t).discards = s.discards := rfl
@[simp] theorem setTileAt_discarded (s : State) (n : Nat) (t : Tile) : (s.setTileAt n t).discarded = s.discarded := rfl
@[simp] theorem setTileAt_channels (s : State) (n : Nat) (t : Tile) : (s.setTileAt n t).channels = s.channels := rfl
@[simp] theorem setTileAt_booted (s : State) (n : Nat) (t : Tile) : (s.setTileAt n t).booted = s.booted := rfl

/-! ### The issuing tile -/

@[simp] theorem setMyTile_agenda (s : State) (t : Tile) : (s.setMyTile t).agenda = s.agenda := rfl
@[simp] theorem setMyTile_cur (s : State) (t : Tile) : (s.setMyTile t).cur = s.cur := rfl
@[simp] theorem setMyTile_issuing (s : State) (t : Tile) : (s.setMyTile t).issuing = s.issuing := rfl
@[simp] theorem setMyTile_cycle (s : State) (t : Tile) : (s.setMyTile t).cycle = s.cycle := rfl
@[simp] theorem setMyTile_fresh (s : State) (t : Tile) : (s.setMyTile t).fresh = s.fresh := rfl
@[simp] theorem setMyTile_free (s : State) (t : Tile) : (s.setMyTile t).free = s.free := rfl
@[simp] theorem setMyTile_package (s : State) (t : Tile) : (s.setMyTile t).package = s.package := rfl
@[simp] theorem setMyTile_domain (s : State) (t : Tile) : (s.setMyTile t).domain = s.domain := rfl
@[simp] theorem setMyTile_members (s : State) (t : Tile) : (s.setMyTile t).members = s.members := rfl
@[simp] theorem setMyTile_infra (s : State) (t : Tile) : (s.setMyTile t).infra = s.infra := rfl
@[simp] theorem setMyTile_tiles (s : State) (t : Tile) : (s.setMyTile t).tiles = Map.set (fun _ => {}) s.tiles (tileOf s.cur) t := rfl
@[simp] theorem setMyTile_ctxs (s : State) (t : Tile) : (s.setMyTile t).ctxs = s.ctxs := rfl
@[simp] theorem setMyTile_mem (s : State) (t : Tile) : (s.setMyTile t).mem = s.mem := rfl
@[simp] theorem setMyTile_codeOld (s : State) (t : Tile) : (s.setMyTile t).codeOld = s.codeOld := rfl
@[simp] theorem setMyTile_dataOld (s : State) (t : Tile) : (s.setMyTile t).dataOld = s.dataOld := rfl
@[simp] theorem setMyTile_tags (s : State) (t : Tile) : (s.setMyTile t).tags = s.tags := rfl
@[simp] theorem setMyTile_net (s : State) (t : Tile) : (s.setMyTile t).net = s.net := rfl
@[simp] theorem setMyTile_replies (s : State) (t : Tile) : (s.setMyTile t).replies = s.replies := rfl
@[simp] theorem setMyTile_refused (s : State) (t : Tile) : (s.setMyTile t).refused = s.refused := rfl
@[simp] theorem setMyTile_waits (s : State) (t : Tile) : (s.setMyTile t).waits = s.waits := rfl
@[simp] theorem setMyTile_idleWaits (s : State) (t : Tile) : (s.setMyTile t).idleWaits = s.idleWaits := rfl
@[simp] theorem setMyTile_waking (s : State) (t : Tile) : (s.setMyTile t).waking = s.waking := rfl
@[simp] theorem setMyTile_looked (s : State) (t : Tile) : (s.setMyTile t).looked = s.looked := rfl
@[simp] theorem setMyTile_lostRecs (s : State) (t : Tile) : (s.setMyTile t).lostRecs = s.lostRecs := rfl
@[simp] theorem setMyTile_heldAnswers (s : State) (t : Tile) : (s.setMyTile t).heldAnswers = s.heldAnswers := rfl
@[simp] theorem setMyTile_barWaits (s : State) (t : Tile) : (s.setMyTile t).barWaits = s.barWaits := rfl
@[simp] theorem setMyTile_image (s : State) (t : Tile) : (s.setMyTile t).image = s.image := rfl
@[simp] theorem setMyTile_prevImage (s : State) (t : Tile) : (s.setMyTile t).prevImage = s.prevImage := rfl
@[simp] theorem setMyTile_rollback (s : State) (t : Tile) : (s.setMyTile t).rollback = s.rollback := rfl
@[simp] theorem setMyTile_reports (s : State) (t : Tile) : (s.setMyTile t).reports = s.reports := rfl
@[simp] theorem setMyTile_served (s : State) (t : Tile) : (s.setMyTile t).served = s.served := rfl
@[simp] theorem setMyTile_watches (s : State) (t : Tile) : (s.setMyTile t).watches = s.watches := rfl
@[simp] theorem setMyTile_msgs (s : State) (t : Tile) : (s.setMyTile t).msgs = s.msgs := rfl
@[simp] theorem setMyTile_refusedMsgs (s : State) (t : Tile) : (s.setMyTile t).refusedMsgs = s.refusedMsgs := rfl
@[simp] theorem setMyTile_marks (s : State) (t : Tile) : (s.setMyTile t).marks = s.marks := rfl
@[simp] theorem setMyTile_releases (s : State) (t : Tile) : (s.setMyTile t).releases = s.releases := rfl
@[simp] theorem setMyTile_ircfg (s : State) (t : Tile) : (s.setMyTile t).ircfg = s.ircfg := rfl
@[simp] theorem setMyTile_irhash (s : State) (t : Tile) : (s.setMyTile t).irhash = s.irhash := rfl
@[simp] theorem setMyTile_btab (s : State) (t : Tile) : (s.setMyTile t).btab = s.btab := rfl
@[simp] theorem setMyTile_houseBtab (s : State) (t : Tile) : (s.setMyTile t).houseBtab = s.houseBtab := rfl
@[simp] theorem setMyTile_kslot (s : State) (t : Tile) : (s.setMyTile t).kslot = s.kslot := rfl
@[simp] theorem setMyTile_ctr (s : State) (t : Tile) : (s.setMyTile t).ctr = s.ctr := rfl
@[simp] theorem setMyTile_epochs (s : State) (t : Tile) : (s.setMyTile t).epochs = s.epochs := rfl
@[simp] theorem setMyTile_lineKeys (s : State) (t : Tile) : (s.setMyTile t).lineKeys = s.lineKeys := rfl
@[simp] theorem setMyTile_keyGens (s : State) (t : Tile) : (s.setMyTile t).keyGens = s.keyGens := rfl
@[simp] theorem setMyTile_counters (s : State) (t : Tile) : (s.setMyTile t).counters = s.counters := rfl
@[simp] theorem setMyTile_sroot (s : State) (t : Tile) : (s.setMyTile t).sroot = s.sroot := rfl
@[simp] theorem setMyTile_badLines (s : State) (t : Tile) : (s.setMyTile t).badLines = s.badLines := rfl
@[simp] theorem setMyTile_badBonds (s : State) (t : Tile) : (s.setMyTile t).badBonds = s.badBonds := rfl
@[simp] theorem setMyTile_badCounters (s : State) (t : Tile) : (s.setMyTile t).badCounters = s.badCounters := rfl
@[simp] theorem setMyTile_quarantines (s : State) (t : Tile) : (s.setMyTile t).quarantines = s.quarantines := rfl
@[simp] theorem setMyTile_rekeys (s : State) (t : Tile) : (s.setMyTile t).rekeys = s.rekeys := rfl
@[simp] theorem setMyTile_windows (s : State) (t : Tile) : (s.setMyTile t).windows = s.windows := rfl
@[simp] theorem setMyTile_sessions (s : State) (t : Tile) : (s.setMyTile t).sessions = s.sessions := rfl
@[simp] theorem setMyTile_spares (s : State) (t : Tile) : (s.setMyTile t).spares = s.spares := rfl
@[simp] theorem setMyTile_pageReqs (s : State) (t : Tile) : (s.setMyTile t).pageReqs = s.pageReqs := rfl
@[simp] theorem setMyTile_ranges (s : State) (t : Tile) : (s.setMyTile t).ranges = s.ranges := rfl
@[simp] theorem setMyTile_hostPosts (s : State) (t : Tile) : (s.setMyTile t).hostPosts = s.hostPosts := rfl
@[simp] theorem setMyTile_records (s : State) (t : Tile) : (s.setMyTile t).records = s.records := rfl
@[simp] theorem setMyTile_rotations (s : State) (t : Tile) : (s.setMyTile t).rotations = s.rotations := rfl
@[simp] theorem setMyTile_saved (s : State) (t : Tile) : (s.setMyTile t).saved = s.saved := rfl
@[simp] theorem setMyTile_savedTiles (s : State) (t : Tile) : (s.setMyTile t).savedTiles = s.savedTiles := rfl
@[simp] theorem setMyTile_tables (s : State) (t : Tile) : (s.setMyTile t).tables = s.tables := rfl
@[simp] theorem setMyTile_launches (s : State) (t : Tile) : (s.setMyTile t).launches = s.launches := rfl
@[simp] theorem setMyTile_rm (s : State) (t : Tile) : (s.setMyTile t).rm = s.rm := rfl
@[simp] theorem setMyTile_rstcause (s : State) (t : Tile) : (s.setMyTile t).rstcause = s.rstcause := rfl
@[simp] theorem setMyTile_pwrlim (s : State) (t : Tile) : (s.setMyTile t).pwrlim = s.pwrlim := rfl
@[simp] theorem setMyTile_fns (s : State) (t : Tile) : (s.setMyTile t).fns = s.fns := rfl
@[simp] theorem setMyTile_vfbind (s : State) (t : Tile) : (s.setMyTile t).vfbind = s.vfbind := rfl
@[simp] theorem setMyTile_vfEnable (s : State) (t : Tile) : (s.setMyTile t).vfEnable = s.vfEnable := rfl
@[simp] theorem setMyTile_bound (s : State) (t : Tile) : (s.setMyTile t).bound = s.bound := rfl
@[simp] theorem setMyTile_images (s : State) (t : Tile) : (s.setMyTile t).images = s.images := rfl
@[simp] theorem setMyTile_teardowns (s : State) (t : Tile) : (s.setMyTile t).teardowns = s.teardowns := rfl
@[simp] theorem setMyTile_attested (s : State) (t : Tile) : (s.setMyTile t).attested = s.attested := rfl
@[simp] theorem setMyTile_hostRead (s : State) (t : Tile) : (s.setMyTile t).hostRead = s.hostRead := rfl
@[simp] theorem setMyTile_msixSent (s : State) (t : Tile) : (s.setMyTile t).msixSent = s.msixSent := rfl
@[simp] theorem setMyTile_discards (s : State) (t : Tile) : (s.setMyTile t).discards = s.discards := rfl
@[simp] theorem setMyTile_discarded (s : State) (t : Tile) : (s.setMyTile t).discarded = s.discarded := rfl
@[simp] theorem setMyTile_channels (s : State) (t : Tile) : (s.setMyTile t).channels = s.channels := rfl
@[simp] theorem setMyTile_booted (s : State) (t : Tile) : (s.setMyTile t).booted = s.booted := rfl

/-! ### A tag -/

@[simp] theorem setTagAt_agenda (s : State) (d : Nat) (t : Tag) : (s.setTagAt d t).agenda = s.agenda := rfl
@[simp] theorem setTagAt_cur (s : State) (d : Nat) (t : Tag) : (s.setTagAt d t).cur = s.cur := rfl
@[simp] theorem setTagAt_issuing (s : State) (d : Nat) (t : Tag) : (s.setTagAt d t).issuing = s.issuing := rfl
@[simp] theorem setTagAt_cycle (s : State) (d : Nat) (t : Tag) : (s.setTagAt d t).cycle = s.cycle := rfl
@[simp] theorem setTagAt_fresh (s : State) (d : Nat) (t : Tag) : (s.setTagAt d t).fresh = s.fresh := rfl
@[simp] theorem setTagAt_free (s : State) (d : Nat) (t : Tag) : (s.setTagAt d t).free = s.free := rfl
@[simp] theorem setTagAt_package (s : State) (d : Nat) (t : Tag) : (s.setTagAt d t).package = s.package := rfl
@[simp] theorem setTagAt_domain (s : State) (d : Nat) (t : Tag) : (s.setTagAt d t).domain = s.domain := rfl
@[simp] theorem setTagAt_members (s : State) (d : Nat) (t : Tag) : (s.setTagAt d t).members = s.members := rfl
@[simp] theorem setTagAt_infra (s : State) (d : Nat) (t : Tag) : (s.setTagAt d t).infra = s.infra := rfl
@[simp] theorem setTagAt_tiles (s : State) (d : Nat) (t : Tag) : (s.setTagAt d t).tiles = s.tiles := rfl
@[simp] theorem setTagAt_ctxs (s : State) (d : Nat) (t : Tag) : (s.setTagAt d t).ctxs = s.ctxs := rfl
@[simp] theorem setTagAt_mem (s : State) (d : Nat) (t : Tag) : (s.setTagAt d t).mem = s.mem := rfl
@[simp] theorem setTagAt_codeOld (s : State) (d : Nat) (t : Tag) : (s.setTagAt d t).codeOld = s.codeOld := rfl
@[simp] theorem setTagAt_dataOld (s : State) (d : Nat) (t : Tag) : (s.setTagAt d t).dataOld = s.dataOld := rfl
@[simp] theorem setTagAt_tags (s : State) (d : Nat) (t : Tag) : (s.setTagAt d t).tags = Map.set (fun _ => {}) s.tags (wordOf d) t := rfl
@[simp] theorem setTagAt_net (s : State) (d : Nat) (t : Tag) : (s.setTagAt d t).net = s.net := rfl
@[simp] theorem setTagAt_replies (s : State) (d : Nat) (t : Tag) : (s.setTagAt d t).replies = s.replies := rfl
@[simp] theorem setTagAt_refused (s : State) (d : Nat) (t : Tag) : (s.setTagAt d t).refused = s.refused := rfl
@[simp] theorem setTagAt_waits (s : State) (d : Nat) (t : Tag) : (s.setTagAt d t).waits = s.waits := rfl
@[simp] theorem setTagAt_idleWaits (s : State) (d : Nat) (t : Tag) : (s.setTagAt d t).idleWaits = s.idleWaits := rfl
@[simp] theorem setTagAt_waking (s : State) (d : Nat) (t : Tag) : (s.setTagAt d t).waking = s.waking := rfl
@[simp] theorem setTagAt_looked (s : State) (d : Nat) (t : Tag) : (s.setTagAt d t).looked = s.looked := rfl
@[simp] theorem setTagAt_lostRecs (s : State) (d : Nat) (t : Tag) : (s.setTagAt d t).lostRecs = s.lostRecs := rfl
@[simp] theorem setTagAt_heldAnswers (s : State) (d : Nat) (t : Tag) : (s.setTagAt d t).heldAnswers = s.heldAnswers := rfl
@[simp] theorem setTagAt_barWaits (s : State) (d : Nat) (t : Tag) : (s.setTagAt d t).barWaits = s.barWaits := rfl
@[simp] theorem setTagAt_image (s : State) (d : Nat) (t : Tag) : (s.setTagAt d t).image = s.image := rfl
@[simp] theorem setTagAt_prevImage (s : State) (d : Nat) (t : Tag) : (s.setTagAt d t).prevImage = s.prevImage := rfl
@[simp] theorem setTagAt_rollback (s : State) (d : Nat) (t : Tag) : (s.setTagAt d t).rollback = s.rollback := rfl
@[simp] theorem setTagAt_reports (s : State) (d : Nat) (t : Tag) : (s.setTagAt d t).reports = s.reports := rfl
@[simp] theorem setTagAt_served (s : State) (d : Nat) (t : Tag) : (s.setTagAt d t).served = s.served := rfl
@[simp] theorem setTagAt_watches (s : State) (d : Nat) (t : Tag) : (s.setTagAt d t).watches = s.watches := rfl
@[simp] theorem setTagAt_msgs (s : State) (d : Nat) (t : Tag) : (s.setTagAt d t).msgs = s.msgs := rfl
@[simp] theorem setTagAt_refusedMsgs (s : State) (d : Nat) (t : Tag) : (s.setTagAt d t).refusedMsgs = s.refusedMsgs := rfl
@[simp] theorem setTagAt_marks (s : State) (d : Nat) (t : Tag) : (s.setTagAt d t).marks = s.marks := rfl
@[simp] theorem setTagAt_releases (s : State) (d : Nat) (t : Tag) : (s.setTagAt d t).releases = s.releases := rfl
@[simp] theorem setTagAt_ircfg (s : State) (d : Nat) (t : Tag) : (s.setTagAt d t).ircfg = s.ircfg := rfl
@[simp] theorem setTagAt_irhash (s : State) (d : Nat) (t : Tag) : (s.setTagAt d t).irhash = s.irhash := rfl
@[simp] theorem setTagAt_btab (s : State) (d : Nat) (t : Tag) : (s.setTagAt d t).btab = s.btab := rfl
@[simp] theorem setTagAt_houseBtab (s : State) (d : Nat) (t : Tag) : (s.setTagAt d t).houseBtab = s.houseBtab := rfl
@[simp] theorem setTagAt_kslot (s : State) (d : Nat) (t : Tag) : (s.setTagAt d t).kslot = s.kslot := rfl
@[simp] theorem setTagAt_ctr (s : State) (d : Nat) (t : Tag) : (s.setTagAt d t).ctr = s.ctr := rfl
@[simp] theorem setTagAt_epochs (s : State) (d : Nat) (t : Tag) : (s.setTagAt d t).epochs = s.epochs := rfl
@[simp] theorem setTagAt_lineKeys (s : State) (d : Nat) (t : Tag) : (s.setTagAt d t).lineKeys = s.lineKeys := rfl
@[simp] theorem setTagAt_keyGens (s : State) (d : Nat) (t : Tag) : (s.setTagAt d t).keyGens = s.keyGens := rfl
@[simp] theorem setTagAt_counters (s : State) (d : Nat) (t : Tag) : (s.setTagAt d t).counters = s.counters := rfl
@[simp] theorem setTagAt_sroot (s : State) (d : Nat) (t : Tag) : (s.setTagAt d t).sroot = s.sroot := rfl
@[simp] theorem setTagAt_badLines (s : State) (d : Nat) (t : Tag) : (s.setTagAt d t).badLines = s.badLines := rfl
@[simp] theorem setTagAt_badBonds (s : State) (d : Nat) (t : Tag) : (s.setTagAt d t).badBonds = s.badBonds := rfl
@[simp] theorem setTagAt_badCounters (s : State) (d : Nat) (t : Tag) : (s.setTagAt d t).badCounters = s.badCounters := rfl
@[simp] theorem setTagAt_quarantines (s : State) (d : Nat) (t : Tag) : (s.setTagAt d t).quarantines = s.quarantines := rfl
@[simp] theorem setTagAt_rekeys (s : State) (d : Nat) (t : Tag) : (s.setTagAt d t).rekeys = s.rekeys := rfl
@[simp] theorem setTagAt_windows (s : State) (d : Nat) (t : Tag) : (s.setTagAt d t).windows = s.windows := rfl
@[simp] theorem setTagAt_sessions (s : State) (d : Nat) (t : Tag) : (s.setTagAt d t).sessions = s.sessions := rfl
@[simp] theorem setTagAt_spares (s : State) (d : Nat) (t : Tag) : (s.setTagAt d t).spares = s.spares := rfl
@[simp] theorem setTagAt_pageReqs (s : State) (d : Nat) (t : Tag) : (s.setTagAt d t).pageReqs = s.pageReqs := rfl
@[simp] theorem setTagAt_ranges (s : State) (d : Nat) (t : Tag) : (s.setTagAt d t).ranges = s.ranges := rfl
@[simp] theorem setTagAt_hostPosts (s : State) (d : Nat) (t : Tag) : (s.setTagAt d t).hostPosts = s.hostPosts := rfl
@[simp] theorem setTagAt_records (s : State) (d : Nat) (t : Tag) : (s.setTagAt d t).records = s.records := rfl
@[simp] theorem setTagAt_rotations (s : State) (d : Nat) (t : Tag) : (s.setTagAt d t).rotations = s.rotations := rfl
@[simp] theorem setTagAt_saved (s : State) (d : Nat) (t : Tag) : (s.setTagAt d t).saved = s.saved := rfl
@[simp] theorem setTagAt_savedTiles (s : State) (d : Nat) (t : Tag) : (s.setTagAt d t).savedTiles = s.savedTiles := rfl
@[simp] theorem setTagAt_tables (s : State) (d : Nat) (t : Tag) : (s.setTagAt d t).tables = s.tables := rfl
@[simp] theorem setTagAt_launches (s : State) (d : Nat) (t : Tag) : (s.setTagAt d t).launches = s.launches := rfl
@[simp] theorem setTagAt_rm (s : State) (d : Nat) (t : Tag) : (s.setTagAt d t).rm = s.rm := rfl
@[simp] theorem setTagAt_rstcause (s : State) (d : Nat) (t : Tag) : (s.setTagAt d t).rstcause = s.rstcause := rfl
@[simp] theorem setTagAt_pwrlim (s : State) (d : Nat) (t : Tag) : (s.setTagAt d t).pwrlim = s.pwrlim := rfl
@[simp] theorem setTagAt_fns (s : State) (d : Nat) (t : Tag) : (s.setTagAt d t).fns = s.fns := rfl
@[simp] theorem setTagAt_vfbind (s : State) (d : Nat) (t : Tag) : (s.setTagAt d t).vfbind = s.vfbind := rfl
@[simp] theorem setTagAt_vfEnable (s : State) (d : Nat) (t : Tag) : (s.setTagAt d t).vfEnable = s.vfEnable := rfl
@[simp] theorem setTagAt_bound (s : State) (d : Nat) (t : Tag) : (s.setTagAt d t).bound = s.bound := rfl
@[simp] theorem setTagAt_images (s : State) (d : Nat) (t : Tag) : (s.setTagAt d t).images = s.images := rfl
@[simp] theorem setTagAt_teardowns (s : State) (d : Nat) (t : Tag) : (s.setTagAt d t).teardowns = s.teardowns := rfl
@[simp] theorem setTagAt_attested (s : State) (d : Nat) (t : Tag) : (s.setTagAt d t).attested = s.attested := rfl
@[simp] theorem setTagAt_hostRead (s : State) (d : Nat) (t : Tag) : (s.setTagAt d t).hostRead = s.hostRead := rfl
@[simp] theorem setTagAt_msixSent (s : State) (d : Nat) (t : Tag) : (s.setTagAt d t).msixSent = s.msixSent := rfl
@[simp] theorem setTagAt_discards (s : State) (d : Nat) (t : Tag) : (s.setTagAt d t).discards = s.discards := rfl
@[simp] theorem setTagAt_discarded (s : State) (d : Nat) (t : Tag) : (s.setTagAt d t).discarded = s.discarded := rfl
@[simp] theorem setTagAt_channels (s : State) (d : Nat) (t : Tag) : (s.setTagAt d t).channels = s.channels := rfl
@[simp] theorem setTagAt_booted (s : State) (d : Nat) (t : Tag) : (s.setTagAt d t).booted = s.booted := rfl

/-! ### The counters -/

@[simp] theorem bumpId_agenda (s : State) : (s.bumpId).agenda = s.agenda := rfl
@[simp] theorem bumpId_cur (s : State) : (s.bumpId).cur = s.cur := rfl
@[simp] theorem bumpId_issuing (s : State) : (s.bumpId).issuing = s.issuing := rfl
@[simp] theorem bumpId_cycle (s : State) : (s.bumpId).cycle = s.cycle := rfl
@[simp] theorem bumpId_fresh (s : State) : (s.bumpId).fresh = s.fresh + 1 := rfl
@[simp] theorem bumpId_free (s : State) : (s.bumpId).free = s.free := rfl
@[simp] theorem bumpId_package (s : State) : (s.bumpId).package = s.package := rfl
@[simp] theorem bumpId_domain (s : State) : (s.bumpId).domain = s.domain := rfl
@[simp] theorem bumpId_members (s : State) : (s.bumpId).members = s.members := rfl
@[simp] theorem bumpId_infra (s : State) : (s.bumpId).infra = s.infra := rfl
@[simp] theorem bumpId_tiles (s : State) : (s.bumpId).tiles = s.tiles := rfl
@[simp] theorem bumpId_ctxs (s : State) : (s.bumpId).ctxs = s.ctxs := rfl
@[simp] theorem bumpId_mem (s : State) : (s.bumpId).mem = s.mem := rfl
@[simp] theorem bumpId_codeOld (s : State) : (s.bumpId).codeOld = s.codeOld := rfl
@[simp] theorem bumpId_dataOld (s : State) : (s.bumpId).dataOld = s.dataOld := rfl
@[simp] theorem bumpId_tags (s : State) : (s.bumpId).tags = s.tags := rfl
@[simp] theorem bumpId_net (s : State) : (s.bumpId).net = s.net := rfl
@[simp] theorem bumpId_replies (s : State) : (s.bumpId).replies = s.replies := rfl
@[simp] theorem bumpId_refused (s : State) : (s.bumpId).refused = s.refused := rfl
@[simp] theorem bumpId_waits (s : State) : (s.bumpId).waits = s.waits := rfl
@[simp] theorem bumpId_idleWaits (s : State) : (s.bumpId).idleWaits = s.idleWaits := rfl
@[simp] theorem bumpId_waking (s : State) : (s.bumpId).waking = s.waking := rfl
@[simp] theorem bumpId_looked (s : State) : (s.bumpId).looked = s.looked := rfl
@[simp] theorem bumpId_lostRecs (s : State) : (s.bumpId).lostRecs = s.lostRecs := rfl
@[simp] theorem bumpId_heldAnswers (s : State) : (s.bumpId).heldAnswers = s.heldAnswers := rfl
@[simp] theorem bumpId_barWaits (s : State) : (s.bumpId).barWaits = s.barWaits := rfl
@[simp] theorem bumpId_image (s : State) : (s.bumpId).image = s.image := rfl
@[simp] theorem bumpId_prevImage (s : State) : (s.bumpId).prevImage = s.prevImage := rfl
@[simp] theorem bumpId_rollback (s : State) : (s.bumpId).rollback = s.rollback := rfl
@[simp] theorem bumpId_reports (s : State) : (s.bumpId).reports = s.reports := rfl
@[simp] theorem bumpId_served (s : State) : (s.bumpId).served = s.served := rfl
@[simp] theorem bumpId_watches (s : State) : (s.bumpId).watches = s.watches := rfl
@[simp] theorem bumpId_msgs (s : State) : (s.bumpId).msgs = s.msgs := rfl
@[simp] theorem bumpId_refusedMsgs (s : State) : (s.bumpId).refusedMsgs = s.refusedMsgs := rfl
@[simp] theorem bumpId_marks (s : State) : (s.bumpId).marks = s.marks := rfl
@[simp] theorem bumpId_releases (s : State) : (s.bumpId).releases = s.releases := rfl
@[simp] theorem bumpId_ircfg (s : State) : (s.bumpId).ircfg = s.ircfg := rfl
@[simp] theorem bumpId_irhash (s : State) : (s.bumpId).irhash = s.irhash := rfl
@[simp] theorem bumpId_btab (s : State) : (s.bumpId).btab = s.btab := rfl
@[simp] theorem bumpId_houseBtab (s : State) : (s.bumpId).houseBtab = s.houseBtab := rfl
@[simp] theorem bumpId_kslot (s : State) : (s.bumpId).kslot = s.kslot := rfl
@[simp] theorem bumpId_ctr (s : State) : (s.bumpId).ctr = s.ctr := rfl
@[simp] theorem bumpId_epochs (s : State) : (s.bumpId).epochs = s.epochs := rfl
@[simp] theorem bumpId_lineKeys (s : State) : (s.bumpId).lineKeys = s.lineKeys := rfl
@[simp] theorem bumpId_keyGens (s : State) : (s.bumpId).keyGens = s.keyGens := rfl
@[simp] theorem bumpId_counters (s : State) : (s.bumpId).counters = s.counters := rfl
@[simp] theorem bumpId_sroot (s : State) : (s.bumpId).sroot = s.sroot := rfl
@[simp] theorem bumpId_badLines (s : State) : (s.bumpId).badLines = s.badLines := rfl
@[simp] theorem bumpId_badBonds (s : State) : (s.bumpId).badBonds = s.badBonds := rfl
@[simp] theorem bumpId_badCounters (s : State) : (s.bumpId).badCounters = s.badCounters := rfl
@[simp] theorem bumpId_quarantines (s : State) : (s.bumpId).quarantines = s.quarantines := rfl
@[simp] theorem bumpId_rekeys (s : State) : (s.bumpId).rekeys = s.rekeys := rfl
@[simp] theorem bumpId_windows (s : State) : (s.bumpId).windows = s.windows := rfl
@[simp] theorem bumpId_sessions (s : State) : (s.bumpId).sessions = s.sessions := rfl
@[simp] theorem bumpId_spares (s : State) : (s.bumpId).spares = s.spares := rfl
@[simp] theorem bumpId_pageReqs (s : State) : (s.bumpId).pageReqs = s.pageReqs := rfl
@[simp] theorem bumpId_ranges (s : State) : (s.bumpId).ranges = s.ranges := rfl
@[simp] theorem bumpId_hostPosts (s : State) : (s.bumpId).hostPosts = s.hostPosts := rfl
@[simp] theorem bumpId_records (s : State) : (s.bumpId).records = s.records := rfl
@[simp] theorem bumpId_rotations (s : State) : (s.bumpId).rotations = s.rotations := rfl
@[simp] theorem bumpId_saved (s : State) : (s.bumpId).saved = s.saved := rfl
@[simp] theorem bumpId_savedTiles (s : State) : (s.bumpId).savedTiles = s.savedTiles := rfl
@[simp] theorem bumpId_tables (s : State) : (s.bumpId).tables = s.tables := rfl
@[simp] theorem bumpId_launches (s : State) : (s.bumpId).launches = s.launches := rfl
@[simp] theorem bumpId_rm (s : State) : (s.bumpId).rm = s.rm := rfl
@[simp] theorem bumpId_rstcause (s : State) : (s.bumpId).rstcause = s.rstcause := rfl
@[simp] theorem bumpId_pwrlim (s : State) : (s.bumpId).pwrlim = s.pwrlim := rfl
@[simp] theorem bumpId_fns (s : State) : (s.bumpId).fns = s.fns := rfl
@[simp] theorem bumpId_vfbind (s : State) : (s.bumpId).vfbind = s.vfbind := rfl
@[simp] theorem bumpId_vfEnable (s : State) : (s.bumpId).vfEnable = s.vfEnable := rfl
@[simp] theorem bumpId_bound (s : State) : (s.bumpId).bound = s.bound := rfl
@[simp] theorem bumpId_images (s : State) : (s.bumpId).images = s.images := rfl
@[simp] theorem bumpId_teardowns (s : State) : (s.bumpId).teardowns = s.teardowns := rfl
@[simp] theorem bumpId_attested (s : State) : (s.bumpId).attested = s.attested := rfl
@[simp] theorem bumpId_hostRead (s : State) : (s.bumpId).hostRead = s.hostRead := rfl
@[simp] theorem bumpId_msixSent (s : State) : (s.bumpId).msixSent = s.msixSent := rfl
@[simp] theorem bumpId_discards (s : State) : (s.bumpId).discards = s.discards := rfl
@[simp] theorem bumpId_discarded (s : State) : (s.bumpId).discarded = s.discarded := rfl
@[simp] theorem bumpId_channels (s : State) : (s.bumpId).channels = s.channels := rfl
@[simp] theorem bumpId_booted (s : State) : (s.bumpId).booted = s.booted := rfl

/-! ### Free values -/

@[simp] theorem bumpFree_agenda (s : State) : (s.bumpFree).agenda = s.agenda := rfl
@[simp] theorem bumpFree_cur (s : State) : (s.bumpFree).cur = s.cur := rfl
@[simp] theorem bumpFree_issuing (s : State) : (s.bumpFree).issuing = s.issuing := rfl
@[simp] theorem bumpFree_cycle (s : State) : (s.bumpFree).cycle = s.cycle := rfl
@[simp] theorem bumpFree_fresh (s : State) : (s.bumpFree).fresh = s.fresh := rfl
@[simp] theorem bumpFree_free (s : State) : (s.bumpFree).free = s.free + 1 := rfl
@[simp] theorem bumpFree_package (s : State) : (s.bumpFree).package = s.package := rfl
@[simp] theorem bumpFree_domain (s : State) : (s.bumpFree).domain = s.domain := rfl
@[simp] theorem bumpFree_members (s : State) : (s.bumpFree).members = s.members := rfl
@[simp] theorem bumpFree_infra (s : State) : (s.bumpFree).infra = s.infra := rfl
@[simp] theorem bumpFree_tiles (s : State) : (s.bumpFree).tiles = s.tiles := rfl
@[simp] theorem bumpFree_ctxs (s : State) : (s.bumpFree).ctxs = s.ctxs := rfl
@[simp] theorem bumpFree_mem (s : State) : (s.bumpFree).mem = s.mem := rfl
@[simp] theorem bumpFree_codeOld (s : State) : (s.bumpFree).codeOld = s.codeOld := rfl
@[simp] theorem bumpFree_dataOld (s : State) : (s.bumpFree).dataOld = s.dataOld := rfl
@[simp] theorem bumpFree_tags (s : State) : (s.bumpFree).tags = s.tags := rfl
@[simp] theorem bumpFree_net (s : State) : (s.bumpFree).net = s.net := rfl
@[simp] theorem bumpFree_replies (s : State) : (s.bumpFree).replies = s.replies := rfl
@[simp] theorem bumpFree_refused (s : State) : (s.bumpFree).refused = s.refused := rfl
@[simp] theorem bumpFree_waits (s : State) : (s.bumpFree).waits = s.waits := rfl
@[simp] theorem bumpFree_idleWaits (s : State) : (s.bumpFree).idleWaits = s.idleWaits := rfl
@[simp] theorem bumpFree_waking (s : State) : (s.bumpFree).waking = s.waking := rfl
@[simp] theorem bumpFree_looked (s : State) : (s.bumpFree).looked = s.looked := rfl
@[simp] theorem bumpFree_lostRecs (s : State) : (s.bumpFree).lostRecs = s.lostRecs := rfl
@[simp] theorem bumpFree_heldAnswers (s : State) : (s.bumpFree).heldAnswers = s.heldAnswers := rfl
@[simp] theorem bumpFree_barWaits (s : State) : (s.bumpFree).barWaits = s.barWaits := rfl
@[simp] theorem bumpFree_image (s : State) : (s.bumpFree).image = s.image := rfl
@[simp] theorem bumpFree_prevImage (s : State) : (s.bumpFree).prevImage = s.prevImage := rfl
@[simp] theorem bumpFree_rollback (s : State) : (s.bumpFree).rollback = s.rollback := rfl
@[simp] theorem bumpFree_reports (s : State) : (s.bumpFree).reports = s.reports := rfl
@[simp] theorem bumpFree_served (s : State) : (s.bumpFree).served = s.served := rfl
@[simp] theorem bumpFree_watches (s : State) : (s.bumpFree).watches = s.watches := rfl
@[simp] theorem bumpFree_msgs (s : State) : (s.bumpFree).msgs = s.msgs := rfl
@[simp] theorem bumpFree_refusedMsgs (s : State) : (s.bumpFree).refusedMsgs = s.refusedMsgs := rfl
@[simp] theorem bumpFree_marks (s : State) : (s.bumpFree).marks = s.marks := rfl
@[simp] theorem bumpFree_releases (s : State) : (s.bumpFree).releases = s.releases := rfl
@[simp] theorem bumpFree_ircfg (s : State) : (s.bumpFree).ircfg = s.ircfg := rfl
@[simp] theorem bumpFree_irhash (s : State) : (s.bumpFree).irhash = s.irhash := rfl
@[simp] theorem bumpFree_btab (s : State) : (s.bumpFree).btab = s.btab := rfl
@[simp] theorem bumpFree_houseBtab (s : State) : (s.bumpFree).houseBtab = s.houseBtab := rfl
@[simp] theorem bumpFree_kslot (s : State) : (s.bumpFree).kslot = s.kslot := rfl
@[simp] theorem bumpFree_ctr (s : State) : (s.bumpFree).ctr = s.ctr := rfl
@[simp] theorem bumpFree_epochs (s : State) : (s.bumpFree).epochs = s.epochs := rfl
@[simp] theorem bumpFree_lineKeys (s : State) : (s.bumpFree).lineKeys = s.lineKeys := rfl
@[simp] theorem bumpFree_keyGens (s : State) : (s.bumpFree).keyGens = s.keyGens := rfl
@[simp] theorem bumpFree_counters (s : State) : (s.bumpFree).counters = s.counters := rfl
@[simp] theorem bumpFree_sroot (s : State) : (s.bumpFree).sroot = s.sroot := rfl
@[simp] theorem bumpFree_badLines (s : State) : (s.bumpFree).badLines = s.badLines := rfl
@[simp] theorem bumpFree_badBonds (s : State) : (s.bumpFree).badBonds = s.badBonds := rfl
@[simp] theorem bumpFree_badCounters (s : State) : (s.bumpFree).badCounters = s.badCounters := rfl
@[simp] theorem bumpFree_quarantines (s : State) : (s.bumpFree).quarantines = s.quarantines := rfl
@[simp] theorem bumpFree_rekeys (s : State) : (s.bumpFree).rekeys = s.rekeys := rfl
@[simp] theorem bumpFree_windows (s : State) : (s.bumpFree).windows = s.windows := rfl
@[simp] theorem bumpFree_sessions (s : State) : (s.bumpFree).sessions = s.sessions := rfl
@[simp] theorem bumpFree_spares (s : State) : (s.bumpFree).spares = s.spares := rfl
@[simp] theorem bumpFree_pageReqs (s : State) : (s.bumpFree).pageReqs = s.pageReqs := rfl
@[simp] theorem bumpFree_ranges (s : State) : (s.bumpFree).ranges = s.ranges := rfl
@[simp] theorem bumpFree_hostPosts (s : State) : (s.bumpFree).hostPosts = s.hostPosts := rfl
@[simp] theorem bumpFree_records (s : State) : (s.bumpFree).records = s.records := rfl
@[simp] theorem bumpFree_rotations (s : State) : (s.bumpFree).rotations = s.rotations := rfl
@[simp] theorem bumpFree_saved (s : State) : (s.bumpFree).saved = s.saved := rfl
@[simp] theorem bumpFree_savedTiles (s : State) : (s.bumpFree).savedTiles = s.savedTiles := rfl
@[simp] theorem bumpFree_tables (s : State) : (s.bumpFree).tables = s.tables := rfl
@[simp] theorem bumpFree_launches (s : State) : (s.bumpFree).launches = s.launches := rfl
@[simp] theorem bumpFree_rm (s : State) : (s.bumpFree).rm = s.rm := rfl
@[simp] theorem bumpFree_rstcause (s : State) : (s.bumpFree).rstcause = s.rstcause := rfl
@[simp] theorem bumpFree_pwrlim (s : State) : (s.bumpFree).pwrlim = s.pwrlim := rfl
@[simp] theorem bumpFree_fns (s : State) : (s.bumpFree).fns = s.fns := rfl
@[simp] theorem bumpFree_vfbind (s : State) : (s.bumpFree).vfbind = s.vfbind := rfl
@[simp] theorem bumpFree_vfEnable (s : State) : (s.bumpFree).vfEnable = s.vfEnable := rfl
@[simp] theorem bumpFree_bound (s : State) : (s.bumpFree).bound = s.bound := rfl
@[simp] theorem bumpFree_images (s : State) : (s.bumpFree).images = s.images := rfl
@[simp] theorem bumpFree_teardowns (s : State) : (s.bumpFree).teardowns = s.teardowns := rfl
@[simp] theorem bumpFree_attested (s : State) : (s.bumpFree).attested = s.attested := rfl
@[simp] theorem bumpFree_hostRead (s : State) : (s.bumpFree).hostRead = s.hostRead := rfl
@[simp] theorem bumpFree_msixSent (s : State) : (s.bumpFree).msixSent = s.msixSent := rfl
@[simp] theorem bumpFree_discards (s : State) : (s.bumpFree).discards = s.discards := rfl
@[simp] theorem bumpFree_discarded (s : State) : (s.bumpFree).discarded = s.discarded := rfl
@[simp] theorem bumpFree_channels (s : State) : (s.bumpFree).channels = s.channels := rfl
@[simp] theorem bumpFree_booted (s : State) : (s.bumpFree).booted = s.booted := rfl

/-! ### Contexts that try again -/

@[simp] theorem unstall_agenda (s : State) : (s.unstall).agenda = s.agenda := rfl
@[simp] theorem unstall_cur (s : State) : (s.unstall).cur = s.cur := rfl
@[simp] theorem unstall_issuing (s : State) : (s.unstall).issuing = s.issuing := rfl
@[simp] theorem unstall_cycle (s : State) : (s.unstall).cycle = s.cycle := rfl
@[simp] theorem unstall_fresh (s : State) : (s.unstall).fresh = s.fresh := rfl
@[simp] theorem unstall_free (s : State) : (s.unstall).free = s.free := rfl
@[simp] theorem unstall_package (s : State) : (s.unstall).package = s.package := rfl
@[simp] theorem unstall_domain (s : State) : (s.unstall).domain = s.domain := rfl
@[simp] theorem unstall_members (s : State) : (s.unstall).members = s.members := rfl
@[simp] theorem unstall_infra (s : State) : (s.unstall).infra = s.infra := rfl
@[simp] theorem unstall_tiles (s : State) : (s.unstall).tiles = s.tiles := rfl
@[simp] theorem unstall_ctxs (s : State) : (s.unstall).ctxs = retryAll s.ctxs := rfl
@[simp] theorem unstall_mem (s : State) : (s.unstall).mem = s.mem := rfl
@[simp] theorem unstall_codeOld (s : State) : (s.unstall).codeOld = s.codeOld := rfl
@[simp] theorem unstall_dataOld (s : State) : (s.unstall).dataOld = s.dataOld := rfl
@[simp] theorem unstall_tags (s : State) : (s.unstall).tags = s.tags := rfl
@[simp] theorem unstall_net (s : State) : (s.unstall).net = s.net := rfl
@[simp] theorem unstall_replies (s : State) : (s.unstall).replies = s.replies := rfl
@[simp] theorem unstall_refused (s : State) : (s.unstall).refused = s.refused := rfl
@[simp] theorem unstall_waits (s : State) : (s.unstall).waits = s.waits := rfl
@[simp] theorem unstall_idleWaits (s : State) : (s.unstall).idleWaits = s.idleWaits := rfl
@[simp] theorem unstall_waking (s : State) : (s.unstall).waking = s.waking := rfl
@[simp] theorem unstall_looked (s : State) : (s.unstall).looked = s.looked := rfl
@[simp] theorem unstall_lostRecs (s : State) : (s.unstall).lostRecs = s.lostRecs := rfl
@[simp] theorem unstall_heldAnswers (s : State) : (s.unstall).heldAnswers = s.heldAnswers := rfl
@[simp] theorem unstall_barWaits (s : State) : (s.unstall).barWaits = s.barWaits := rfl
@[simp] theorem unstall_image (s : State) : (s.unstall).image = s.image := rfl
@[simp] theorem unstall_prevImage (s : State) : (s.unstall).prevImage = s.prevImage := rfl
@[simp] theorem unstall_rollback (s : State) : (s.unstall).rollback = s.rollback := rfl
@[simp] theorem unstall_reports (s : State) : (s.unstall).reports = s.reports := rfl
@[simp] theorem unstall_served (s : State) : (s.unstall).served = s.served := rfl
@[simp] theorem unstall_watches (s : State) : (s.unstall).watches = s.watches := rfl
@[simp] theorem unstall_msgs (s : State) : (s.unstall).msgs = s.msgs := rfl
@[simp] theorem unstall_refusedMsgs (s : State) : (s.unstall).refusedMsgs = s.refusedMsgs := rfl
@[simp] theorem unstall_marks (s : State) : (s.unstall).marks = s.marks := rfl
@[simp] theorem unstall_releases (s : State) : (s.unstall).releases = s.releases := rfl
@[simp] theorem unstall_ircfg (s : State) : (s.unstall).ircfg = s.ircfg := rfl
@[simp] theorem unstall_irhash (s : State) : (s.unstall).irhash = s.irhash := rfl
@[simp] theorem unstall_btab (s : State) : (s.unstall).btab = s.btab := rfl
@[simp] theorem unstall_houseBtab (s : State) : (s.unstall).houseBtab = s.houseBtab := rfl
@[simp] theorem unstall_kslot (s : State) : (s.unstall).kslot = s.kslot := rfl
@[simp] theorem unstall_ctr (s : State) : (s.unstall).ctr = s.ctr := rfl
@[simp] theorem unstall_epochs (s : State) : (s.unstall).epochs = s.epochs := rfl
@[simp] theorem unstall_lineKeys (s : State) : (s.unstall).lineKeys = s.lineKeys := rfl
@[simp] theorem unstall_keyGens (s : State) : (s.unstall).keyGens = s.keyGens := rfl
@[simp] theorem unstall_counters (s : State) : (s.unstall).counters = s.counters := rfl
@[simp] theorem unstall_sroot (s : State) : (s.unstall).sroot = s.sroot := rfl
@[simp] theorem unstall_badLines (s : State) : (s.unstall).badLines = s.badLines := rfl
@[simp] theorem unstall_badBonds (s : State) : (s.unstall).badBonds = s.badBonds := rfl
@[simp] theorem unstall_badCounters (s : State) : (s.unstall).badCounters = s.badCounters := rfl
@[simp] theorem unstall_quarantines (s : State) : (s.unstall).quarantines = s.quarantines := rfl
@[simp] theorem unstall_rekeys (s : State) : (s.unstall).rekeys = s.rekeys := rfl
@[simp] theorem unstall_windows (s : State) : (s.unstall).windows = s.windows := rfl
@[simp] theorem unstall_sessions (s : State) : (s.unstall).sessions = s.sessions := rfl
@[simp] theorem unstall_spares (s : State) : (s.unstall).spares = s.spares := rfl
@[simp] theorem unstall_pageReqs (s : State) : (s.unstall).pageReqs = s.pageReqs := rfl
@[simp] theorem unstall_ranges (s : State) : (s.unstall).ranges = s.ranges := rfl
@[simp] theorem unstall_hostPosts (s : State) : (s.unstall).hostPosts = s.hostPosts := rfl
@[simp] theorem unstall_records (s : State) : (s.unstall).records = s.records := rfl
@[simp] theorem unstall_rotations (s : State) : (s.unstall).rotations = s.rotations := rfl
@[simp] theorem unstall_saved (s : State) : (s.unstall).saved = s.saved := rfl
@[simp] theorem unstall_savedTiles (s : State) : (s.unstall).savedTiles = s.savedTiles := rfl
@[simp] theorem unstall_tables (s : State) : (s.unstall).tables = s.tables := rfl
@[simp] theorem unstall_launches (s : State) : (s.unstall).launches = s.launches := rfl
@[simp] theorem unstall_rm (s : State) : (s.unstall).rm = s.rm := rfl
@[simp] theorem unstall_rstcause (s : State) : (s.unstall).rstcause = s.rstcause := rfl
@[simp] theorem unstall_pwrlim (s : State) : (s.unstall).pwrlim = s.pwrlim := rfl
@[simp] theorem unstall_fns (s : State) : (s.unstall).fns = s.fns := rfl
@[simp] theorem unstall_vfbind (s : State) : (s.unstall).vfbind = s.vfbind := rfl
@[simp] theorem unstall_vfEnable (s : State) : (s.unstall).vfEnable = s.vfEnable := rfl
@[simp] theorem unstall_bound (s : State) : (s.unstall).bound = s.bound := rfl
@[simp] theorem unstall_images (s : State) : (s.unstall).images = s.images := rfl
@[simp] theorem unstall_teardowns (s : State) : (s.unstall).teardowns = s.teardowns := rfl
@[simp] theorem unstall_attested (s : State) : (s.unstall).attested = s.attested := rfl
@[simp] theorem unstall_hostRead (s : State) : (s.unstall).hostRead = s.hostRead := rfl
@[simp] theorem unstall_msixSent (s : State) : (s.unstall).msixSent = s.msixSent := rfl
@[simp] theorem unstall_discards (s : State) : (s.unstall).discards = s.discards := rfl
@[simp] theorem unstall_discarded (s : State) : (s.unstall).discarded = s.discarded := rfl
@[simp] theorem unstall_channels (s : State) : (s.unstall).channels = s.channels := rfl
@[simp] theorem unstall_booted (s : State) : (s.unstall).booted = s.booted := rfl

/-! ### Traps -/

@[simp] theorem trapAt_agenda (s : State) (id cause : Nat) (tval : Word) : (s.trapAt id cause tval).agenda = s.agenda := rfl
@[simp] theorem trapAt_cur (s : State) (id cause : Nat) (tval : Word) : (s.trapAt id cause tval).cur = s.cur := rfl
@[simp] theorem trapAt_issuing (s : State) (id cause : Nat) (tval : Word) : (s.trapAt id cause tval).issuing = s.issuing := rfl
@[simp] theorem trapAt_cycle (s : State) (id cause : Nat) (tval : Word) : (s.trapAt id cause tval).cycle = s.cycle := rfl
@[simp] theorem trapAt_fresh (s : State) (id cause : Nat) (tval : Word) : (s.trapAt id cause tval).fresh = s.fresh := rfl
@[simp] theorem trapAt_free (s : State) (id cause : Nat) (tval : Word) : (s.trapAt id cause tval).free = s.free := rfl
@[simp] theorem trapAt_package (s : State) (id cause : Nat) (tval : Word) : (s.trapAt id cause tval).package = s.package := rfl
@[simp] theorem trapAt_domain (s : State) (id cause : Nat) (tval : Word) : (s.trapAt id cause tval).domain = s.domain := rfl
@[simp] theorem trapAt_members (s : State) (id cause : Nat) (tval : Word) : (s.trapAt id cause tval).members = s.members := rfl
@[simp] theorem trapAt_infra (s : State) (id cause : Nat) (tval : Word) : (s.trapAt id cause tval).infra = s.infra := rfl
@[simp] theorem trapAt_tiles (s : State) (id cause : Nat) (tval : Word) : (s.trapAt id cause tval).tiles = s.tiles := rfl
@[simp] theorem trapAt_mem (s : State) (id cause : Nat) (tval : Word) : (s.trapAt id cause tval).mem = s.mem := rfl
@[simp] theorem trapAt_codeOld (s : State) (id cause : Nat) (tval : Word) : (s.trapAt id cause tval).codeOld = s.codeOld := rfl
@[simp] theorem trapAt_dataOld (s : State) (id cause : Nat) (tval : Word) : (s.trapAt id cause tval).dataOld = s.dataOld := rfl
@[simp] theorem trapAt_tags (s : State) (id cause : Nat) (tval : Word) : (s.trapAt id cause tval).tags = s.tags := rfl
@[simp] theorem trapAt_net (s : State) (id cause : Nat) (tval : Word) : (s.trapAt id cause tval).net = s.net := rfl
@[simp] theorem trapAt_replies (s : State) (id cause : Nat) (tval : Word) : (s.trapAt id cause tval).replies = s.replies := rfl
@[simp] theorem trapAt_refused (s : State) (id cause : Nat) (tval : Word) : (s.trapAt id cause tval).refused = s.refused := rfl
@[simp] theorem trapAt_waits (s : State) (id cause : Nat) (tval : Word) : (s.trapAt id cause tval).waits = s.waits := rfl
@[simp] theorem trapAt_idleWaits (s : State) (id cause : Nat) (tval : Word) : (s.trapAt id cause tval).idleWaits = s.idleWaits := rfl
@[simp] theorem trapAt_waking (s : State) (id cause : Nat) (tval : Word) : (s.trapAt id cause tval).waking = s.waking := rfl
@[simp] theorem trapAt_looked (s : State) (id cause : Nat) (tval : Word) : (s.trapAt id cause tval).looked = s.looked := rfl
@[simp] theorem trapAt_lostRecs (s : State) (id cause : Nat) (tval : Word) : (s.trapAt id cause tval).lostRecs = s.lostRecs := rfl
@[simp] theorem trapAt_heldAnswers (s : State) (id cause : Nat) (tval : Word) : (s.trapAt id cause tval).heldAnswers = s.heldAnswers := rfl
@[simp] theorem trapAt_barWaits (s : State) (id cause : Nat) (tval : Word) : (s.trapAt id cause tval).barWaits = s.barWaits := rfl
@[simp] theorem trapAt_image (s : State) (id cause : Nat) (tval : Word) : (s.trapAt id cause tval).image = s.image := rfl
@[simp] theorem trapAt_prevImage (s : State) (id cause : Nat) (tval : Word) : (s.trapAt id cause tval).prevImage = s.prevImage := rfl
@[simp] theorem trapAt_rollback (s : State) (id cause : Nat) (tval : Word) : (s.trapAt id cause tval).rollback = s.rollback := rfl
@[simp] theorem trapAt_reports (s : State) (id cause : Nat) (tval : Word) : (s.trapAt id cause tval).reports = s.reports := rfl
@[simp] theorem trapAt_served (s : State) (id cause : Nat) (tval : Word) : (s.trapAt id cause tval).served = s.served := rfl
@[simp] theorem trapAt_watches (s : State) (id cause : Nat) (tval : Word) : (s.trapAt id cause tval).watches = s.watches := rfl
@[simp] theorem trapAt_msgs (s : State) (id cause : Nat) (tval : Word) : (s.trapAt id cause tval).msgs = s.msgs := rfl
@[simp] theorem trapAt_refusedMsgs (s : State) (id cause : Nat) (tval : Word) : (s.trapAt id cause tval).refusedMsgs = s.refusedMsgs := rfl
@[simp] theorem trapAt_marks (s : State) (id cause : Nat) (tval : Word) : (s.trapAt id cause tval).marks = s.marks := rfl
@[simp] theorem trapAt_releases (s : State) (id cause : Nat) (tval : Word) : (s.trapAt id cause tval).releases = s.releases := rfl
@[simp] theorem trapAt_ircfg (s : State) (id cause : Nat) (tval : Word) : (s.trapAt id cause tval).ircfg = s.ircfg := rfl
@[simp] theorem trapAt_irhash (s : State) (id cause : Nat) (tval : Word) : (s.trapAt id cause tval).irhash = s.irhash := rfl
@[simp] theorem trapAt_btab (s : State) (id cause : Nat) (tval : Word) : (s.trapAt id cause tval).btab = s.btab := rfl
@[simp] theorem trapAt_houseBtab (s : State) (id cause : Nat) (tval : Word) : (s.trapAt id cause tval).houseBtab = s.houseBtab := rfl
@[simp] theorem trapAt_kslot (s : State) (id cause : Nat) (tval : Word) : (s.trapAt id cause tval).kslot = s.kslot := rfl
@[simp] theorem trapAt_ctr (s : State) (id cause : Nat) (tval : Word) : (s.trapAt id cause tval).ctr = s.ctr := rfl
@[simp] theorem trapAt_epochs (s : State) (id cause : Nat) (tval : Word) : (s.trapAt id cause tval).epochs = s.epochs := rfl
@[simp] theorem trapAt_lineKeys (s : State) (id cause : Nat) (tval : Word) : (s.trapAt id cause tval).lineKeys = s.lineKeys := rfl
@[simp] theorem trapAt_keyGens (s : State) (id cause : Nat) (tval : Word) : (s.trapAt id cause tval).keyGens = s.keyGens := rfl
@[simp] theorem trapAt_counters (s : State) (id cause : Nat) (tval : Word) : (s.trapAt id cause tval).counters = s.counters := rfl
@[simp] theorem trapAt_sroot (s : State) (id cause : Nat) (tval : Word) : (s.trapAt id cause tval).sroot = s.sroot := rfl
@[simp] theorem trapAt_badLines (s : State) (id cause : Nat) (tval : Word) : (s.trapAt id cause tval).badLines = s.badLines := rfl
@[simp] theorem trapAt_badBonds (s : State) (id cause : Nat) (tval : Word) : (s.trapAt id cause tval).badBonds = s.badBonds := rfl
@[simp] theorem trapAt_badCounters (s : State) (id cause : Nat) (tval : Word) : (s.trapAt id cause tval).badCounters = s.badCounters := rfl
@[simp] theorem trapAt_quarantines (s : State) (id cause : Nat) (tval : Word) : (s.trapAt id cause tval).quarantines = s.quarantines := rfl
@[simp] theorem trapAt_rekeys (s : State) (id cause : Nat) (tval : Word) : (s.trapAt id cause tval).rekeys = s.rekeys := rfl
@[simp] theorem trapAt_windows (s : State) (id cause : Nat) (tval : Word) : (s.trapAt id cause tval).windows = s.windows := rfl
@[simp] theorem trapAt_sessions (s : State) (id cause : Nat) (tval : Word) : (s.trapAt id cause tval).sessions = s.sessions := rfl
@[simp] theorem trapAt_spares (s : State) (id cause : Nat) (tval : Word) : (s.trapAt id cause tval).spares = s.spares := rfl
@[simp] theorem trapAt_pageReqs (s : State) (id cause : Nat) (tval : Word) : (s.trapAt id cause tval).pageReqs = s.pageReqs := rfl
@[simp] theorem trapAt_ranges (s : State) (id cause : Nat) (tval : Word) : (s.trapAt id cause tval).ranges = s.ranges := rfl
@[simp] theorem trapAt_hostPosts (s : State) (id cause : Nat) (tval : Word) : (s.trapAt id cause tval).hostPosts = s.hostPosts := rfl
@[simp] theorem trapAt_records (s : State) (id cause : Nat) (tval : Word) : (s.trapAt id cause tval).records = s.records := rfl
@[simp] theorem trapAt_rotations (s : State) (id cause : Nat) (tval : Word) : (s.trapAt id cause tval).rotations = s.rotations := rfl
@[simp] theorem trapAt_saved (s : State) (id cause : Nat) (tval : Word) : (s.trapAt id cause tval).saved = s.saved := rfl
@[simp] theorem trapAt_savedTiles (s : State) (id cause : Nat) (tval : Word) : (s.trapAt id cause tval).savedTiles = s.savedTiles := rfl
@[simp] theorem trapAt_tables (s : State) (id cause : Nat) (tval : Word) : (s.trapAt id cause tval).tables = s.tables := rfl
@[simp] theorem trapAt_launches (s : State) (id cause : Nat) (tval : Word) : (s.trapAt id cause tval).launches = s.launches := rfl
@[simp] theorem trapAt_rm (s : State) (id cause : Nat) (tval : Word) : (s.trapAt id cause tval).rm = s.rm := rfl
@[simp] theorem trapAt_rstcause (s : State) (id cause : Nat) (tval : Word) : (s.trapAt id cause tval).rstcause = s.rstcause := rfl
@[simp] theorem trapAt_pwrlim (s : State) (id cause : Nat) (tval : Word) : (s.trapAt id cause tval).pwrlim = s.pwrlim := rfl
@[simp] theorem trapAt_fns (s : State) (id cause : Nat) (tval : Word) : (s.trapAt id cause tval).fns = s.fns := rfl
@[simp] theorem trapAt_vfbind (s : State) (id cause : Nat) (tval : Word) : (s.trapAt id cause tval).vfbind = s.vfbind := rfl
@[simp] theorem trapAt_vfEnable (s : State) (id cause : Nat) (tval : Word) : (s.trapAt id cause tval).vfEnable = s.vfEnable := rfl
@[simp] theorem trapAt_bound (s : State) (id cause : Nat) (tval : Word) : (s.trapAt id cause tval).bound = s.bound := rfl
@[simp] theorem trapAt_images (s : State) (id cause : Nat) (tval : Word) : (s.trapAt id cause tval).images = s.images := rfl
@[simp] theorem trapAt_teardowns (s : State) (id cause : Nat) (tval : Word) : (s.trapAt id cause tval).teardowns = s.teardowns := rfl
@[simp] theorem trapAt_attested (s : State) (id cause : Nat) (tval : Word) : (s.trapAt id cause tval).attested = s.attested := rfl
@[simp] theorem trapAt_hostRead (s : State) (id cause : Nat) (tval : Word) : (s.trapAt id cause tval).hostRead = s.hostRead := rfl
@[simp] theorem trapAt_msixSent (s : State) (id cause : Nat) (tval : Word) : (s.trapAt id cause tval).msixSent = s.msixSent := rfl
@[simp] theorem trapAt_discards (s : State) (id cause : Nat) (tval : Word) : (s.trapAt id cause tval).discards = s.discards := rfl
@[simp] theorem trapAt_discarded (s : State) (id cause : Nat) (tval : Word) : (s.trapAt id cause tval).discarded = s.discarded := rfl
@[simp] theorem trapAt_channels (s : State) (id cause : Nat) (tval : Word) : (s.trapAt id cause tval).channels = s.channels := rfl
@[simp] theorem trapAt_booted (s : State) (id cause : Nat) (tval : Word) : (s.trapAt id cause tval).booted = s.booted := rfl

/-! ### Records -/

@[simp] theorem post_agenda (s : State) (r : RecordSpec) : (s.post r).agenda = s.agenda := rfl
@[simp] theorem post_cur (s : State) (r : RecordSpec) : (s.post r).cur = s.cur := rfl
@[simp] theorem post_issuing (s : State) (r : RecordSpec) : (s.post r).issuing = s.issuing := rfl
@[simp] theorem post_cycle (s : State) (r : RecordSpec) : (s.post r).cycle = s.cycle := rfl
@[simp] theorem post_fresh (s : State) (r : RecordSpec) : (s.post r).fresh = s.fresh := rfl
@[simp] theorem post_free (s : State) (r : RecordSpec) : (s.post r).free = s.free := rfl
@[simp] theorem post_package (s : State) (r : RecordSpec) : (s.post r).package = s.package := rfl
@[simp] theorem post_domain (s : State) (r : RecordSpec) : (s.post r).domain = s.domain := rfl
@[simp] theorem post_members (s : State) (r : RecordSpec) : (s.post r).members = s.members := rfl
@[simp] theorem post_infra (s : State) (r : RecordSpec) : (s.post r).infra = s.infra := rfl
@[simp] theorem post_tiles (s : State) (r : RecordSpec) : (s.post r).tiles = s.tiles := rfl
@[simp] theorem post_ctxs (s : State) (r : RecordSpec) : (s.post r).ctxs = s.ctxs := rfl
@[simp] theorem post_mem (s : State) (r : RecordSpec) : (s.post r).mem = s.mem := rfl
@[simp] theorem post_codeOld (s : State) (r : RecordSpec) : (s.post r).codeOld = s.codeOld := rfl
@[simp] theorem post_dataOld (s : State) (r : RecordSpec) : (s.post r).dataOld = s.dataOld := rfl
@[simp] theorem post_tags (s : State) (r : RecordSpec) : (s.post r).tags = s.tags := rfl
@[simp] theorem post_net (s : State) (r : RecordSpec) : (s.post r).net = s.net := rfl
@[simp] theorem post_replies (s : State) (r : RecordSpec) : (s.post r).replies = s.replies := rfl
@[simp] theorem post_refused (s : State) (r : RecordSpec) : (s.post r).refused = s.refused := rfl
@[simp] theorem post_waits (s : State) (r : RecordSpec) : (s.post r).waits = s.waits := rfl
@[simp] theorem post_idleWaits (s : State) (r : RecordSpec) : (s.post r).idleWaits = s.idleWaits := rfl
@[simp] theorem post_waking (s : State) (r : RecordSpec) : (s.post r).waking = s.waking := rfl
@[simp] theorem post_looked (s : State) (r : RecordSpec) : (s.post r).looked = s.looked := rfl
@[simp] theorem post_lostRecs (s : State) (r : RecordSpec) : (s.post r).lostRecs = s.lostRecs := rfl
@[simp] theorem post_heldAnswers (s : State) (r : RecordSpec) : (s.post r).heldAnswers = s.heldAnswers := rfl
@[simp] theorem post_barWaits (s : State) (r : RecordSpec) : (s.post r).barWaits = s.barWaits := rfl
@[simp] theorem post_image (s : State) (r : RecordSpec) : (s.post r).image = s.image := rfl
@[simp] theorem post_prevImage (s : State) (r : RecordSpec) : (s.post r).prevImage = s.prevImage := rfl
@[simp] theorem post_rollback (s : State) (r : RecordSpec) : (s.post r).rollback = s.rollback := rfl
@[simp] theorem post_reports (s : State) (r : RecordSpec) : (s.post r).reports = s.reports := rfl
@[simp] theorem post_served (s : State) (r : RecordSpec) : (s.post r).served = s.served := rfl
@[simp] theorem post_watches (s : State) (r : RecordSpec) : (s.post r).watches = s.watches := rfl
@[simp] theorem post_msgs (s : State) (r : RecordSpec) : (s.post r).msgs = s.msgs := rfl
@[simp] theorem post_refusedMsgs (s : State) (r : RecordSpec) : (s.post r).refusedMsgs = s.refusedMsgs := rfl
@[simp] theorem post_marks (s : State) (r : RecordSpec) : (s.post r).marks = s.marks := rfl
@[simp] theorem post_releases (s : State) (r : RecordSpec) : (s.post r).releases = s.releases := rfl
@[simp] theorem post_ircfg (s : State) (r : RecordSpec) : (s.post r).ircfg = s.ircfg := rfl
@[simp] theorem post_irhash (s : State) (r : RecordSpec) : (s.post r).irhash = s.irhash := rfl
@[simp] theorem post_btab (s : State) (r : RecordSpec) : (s.post r).btab = s.btab := rfl
@[simp] theorem post_houseBtab (s : State) (r : RecordSpec) : (s.post r).houseBtab = s.houseBtab := rfl
@[simp] theorem post_kslot (s : State) (r : RecordSpec) : (s.post r).kslot = s.kslot := rfl
@[simp] theorem post_ctr (s : State) (r : RecordSpec) : (s.post r).ctr = s.ctr := rfl
@[simp] theorem post_epochs (s : State) (r : RecordSpec) : (s.post r).epochs = s.epochs := rfl
@[simp] theorem post_lineKeys (s : State) (r : RecordSpec) : (s.post r).lineKeys = s.lineKeys := rfl
@[simp] theorem post_keyGens (s : State) (r : RecordSpec) : (s.post r).keyGens = s.keyGens := rfl
@[simp] theorem post_counters (s : State) (r : RecordSpec) : (s.post r).counters = s.counters := rfl
@[simp] theorem post_sroot (s : State) (r : RecordSpec) : (s.post r).sroot = s.sroot := rfl
@[simp] theorem post_badLines (s : State) (r : RecordSpec) : (s.post r).badLines = s.badLines := rfl
@[simp] theorem post_badBonds (s : State) (r : RecordSpec) : (s.post r).badBonds = s.badBonds := rfl
@[simp] theorem post_badCounters (s : State) (r : RecordSpec) : (s.post r).badCounters = s.badCounters := rfl
@[simp] theorem post_quarantines (s : State) (r : RecordSpec) : (s.post r).quarantines = s.quarantines := rfl
@[simp] theorem post_rekeys (s : State) (r : RecordSpec) : (s.post r).rekeys = s.rekeys := rfl
@[simp] theorem post_windows (s : State) (r : RecordSpec) : (s.post r).windows = s.windows := rfl
@[simp] theorem post_sessions (s : State) (r : RecordSpec) : (s.post r).sessions = s.sessions := rfl
@[simp] theorem post_spares (s : State) (r : RecordSpec) : (s.post r).spares = s.spares := rfl
@[simp] theorem post_pageReqs (s : State) (r : RecordSpec) : (s.post r).pageReqs = s.pageReqs := rfl
@[simp] theorem post_ranges (s : State) (r : RecordSpec) : (s.post r).ranges = s.ranges := rfl
@[simp] theorem post_hostPosts (s : State) (r : RecordSpec) : (s.post r).hostPosts = s.hostPosts := rfl
@[simp] theorem post_rotations (s : State) (r : RecordSpec) : (s.post r).rotations = s.rotations := rfl
@[simp] theorem post_saved (s : State) (r : RecordSpec) : (s.post r).saved = s.saved := rfl
@[simp] theorem post_savedTiles (s : State) (r : RecordSpec) : (s.post r).savedTiles = s.savedTiles := rfl
@[simp] theorem post_tables (s : State) (r : RecordSpec) : (s.post r).tables = s.tables := rfl
@[simp] theorem post_launches (s : State) (r : RecordSpec) : (s.post r).launches = s.launches := rfl
@[simp] theorem post_rm (s : State) (r : RecordSpec) : (s.post r).rm = s.rm := rfl
@[simp] theorem post_rstcause (s : State) (r : RecordSpec) : (s.post r).rstcause = s.rstcause := rfl
@[simp] theorem post_pwrlim (s : State) (r : RecordSpec) : (s.post r).pwrlim = s.pwrlim := rfl
@[simp] theorem post_fns (s : State) (r : RecordSpec) : (s.post r).fns = s.fns := rfl
@[simp] theorem post_vfbind (s : State) (r : RecordSpec) : (s.post r).vfbind = s.vfbind := rfl
@[simp] theorem post_vfEnable (s : State) (r : RecordSpec) : (s.post r).vfEnable = s.vfEnable := rfl
@[simp] theorem post_bound (s : State) (r : RecordSpec) : (s.post r).bound = s.bound := rfl
@[simp] theorem post_images (s : State) (r : RecordSpec) : (s.post r).images = s.images := rfl
@[simp] theorem post_teardowns (s : State) (r : RecordSpec) : (s.post r).teardowns = s.teardowns := rfl
@[simp] theorem post_attested (s : State) (r : RecordSpec) : (s.post r).attested = s.attested := rfl
@[simp] theorem post_hostRead (s : State) (r : RecordSpec) : (s.post r).hostRead = s.hostRead := rfl
@[simp] theorem post_msixSent (s : State) (r : RecordSpec) : (s.post r).msixSent = s.msixSent := rfl
@[simp] theorem post_discards (s : State) (r : RecordSpec) : (s.post r).discards = s.discards := rfl
@[simp] theorem post_discarded (s : State) (r : RecordSpec) : (s.post r).discarded = s.discarded := rfl
@[simp] theorem post_channels (s : State) (r : RecordSpec) : (s.post r).channels = s.channels := rfl
@[simp] theorem post_booted (s : State) (r : RecordSpec) : (s.post r).booted = s.booted := rfl

/-! ### Bytes -/

@[simp] theorem poke_agenda (s : State) (d width v : Nat) : (s.poke d width v).agenda = s.agenda := by unfold State.poke; split <;> rfl
@[simp] theorem poke_cur (s : State) (d width v : Nat) : (s.poke d width v).cur = s.cur := by unfold State.poke; split <;> rfl
@[simp] theorem poke_issuing (s : State) (d width v : Nat) : (s.poke d width v).issuing = s.issuing := by unfold State.poke; split <;> rfl
@[simp] theorem poke_cycle (s : State) (d width v : Nat) : (s.poke d width v).cycle = s.cycle := by unfold State.poke; split <;> rfl
@[simp] theorem poke_fresh (s : State) (d width v : Nat) : (s.poke d width v).fresh = s.fresh := by unfold State.poke; split <;> rfl
@[simp] theorem poke_free (s : State) (d width v : Nat) : (s.poke d width v).free = s.free := by unfold State.poke; split <;> rfl
@[simp] theorem poke_package (s : State) (d width v : Nat) : (s.poke d width v).package = s.package := by unfold State.poke; split <;> rfl
@[simp] theorem poke_domain (s : State) (d width v : Nat) : (s.poke d width v).domain = s.domain := by unfold State.poke; split <;> rfl
@[simp] theorem poke_members (s : State) (d width v : Nat) : (s.poke d width v).members = s.members := by unfold State.poke; split <;> rfl
@[simp] theorem poke_infra (s : State) (d width v : Nat) : (s.poke d width v).infra = s.infra := by unfold State.poke; split <;> rfl
@[simp] theorem poke_tiles (s : State) (d width v : Nat) : (s.poke d width v).tiles = s.tiles := by unfold State.poke; split <;> rfl
@[simp] theorem poke_ctxs (s : State) (d width v : Nat) : (s.poke d width v).ctxs = s.ctxs := by unfold State.poke; split <;> rfl
@[simp] theorem poke_tags (s : State) (d width v : Nat) : (s.poke d width v).tags = s.tags := by unfold State.poke; split <;> rfl
@[simp] theorem poke_net (s : State) (d width v : Nat) : (s.poke d width v).net = s.net := by unfold State.poke; split <;> rfl
@[simp] theorem poke_replies (s : State) (d width v : Nat) : (s.poke d width v).replies = s.replies := by unfold State.poke; split <;> rfl
@[simp] theorem poke_refused (s : State) (d width v : Nat) : (s.poke d width v).refused = s.refused := by unfold State.poke; split <;> rfl
@[simp] theorem poke_waits (s : State) (d width v : Nat) : (s.poke d width v).waits = s.waits := by unfold State.poke; split <;> rfl
@[simp] theorem poke_idleWaits (s : State) (d width v : Nat) : (s.poke d width v).idleWaits = s.idleWaits := by unfold State.poke; split <;> rfl
@[simp] theorem poke_waking (s : State) (d width v : Nat) : (s.poke d width v).waking = s.waking := by unfold State.poke; split <;> rfl
@[simp] theorem poke_looked (s : State) (d width v : Nat) : (s.poke d width v).looked = s.looked := by unfold State.poke; split <;> rfl
@[simp] theorem poke_lostRecs (s : State) (d width v : Nat) : (s.poke d width v).lostRecs = s.lostRecs := by unfold State.poke; split <;> rfl
@[simp] theorem poke_heldAnswers (s : State) (d width v : Nat) : (s.poke d width v).heldAnswers = s.heldAnswers := by unfold State.poke; split <;> rfl
@[simp] theorem poke_barWaits (s : State) (d width v : Nat) : (s.poke d width v).barWaits = s.barWaits := by unfold State.poke; split <;> rfl
@[simp] theorem poke_image (s : State) (d width v : Nat) : (s.poke d width v).image = s.image := by unfold State.poke; split <;> rfl
@[simp] theorem poke_prevImage (s : State) (d width v : Nat) : (s.poke d width v).prevImage = s.prevImage := by unfold State.poke; split <;> rfl
@[simp] theorem poke_rollback (s : State) (d width v : Nat) : (s.poke d width v).rollback = s.rollback := by unfold State.poke; split <;> rfl
@[simp] theorem poke_reports (s : State) (d width v : Nat) : (s.poke d width v).reports = s.reports := by unfold State.poke; split <;> rfl
@[simp] theorem poke_served (s : State) (d width v : Nat) : (s.poke d width v).served = s.served := by unfold State.poke; split <;> rfl
@[simp] theorem poke_watches (s : State) (d width v : Nat) : (s.poke d width v).watches = s.watches := by unfold State.poke; split <;> rfl
@[simp] theorem poke_msgs (s : State) (d width v : Nat) : (s.poke d width v).msgs = s.msgs := by unfold State.poke; split <;> rfl
@[simp] theorem poke_refusedMsgs (s : State) (d width v : Nat) : (s.poke d width v).refusedMsgs = s.refusedMsgs := by unfold State.poke; split <;> rfl
@[simp] theorem poke_marks (s : State) (d width v : Nat) : (s.poke d width v).marks = s.marks := by unfold State.poke; split <;> rfl
@[simp] theorem poke_releases (s : State) (d width v : Nat) : (s.poke d width v).releases = s.releases := by unfold State.poke; split <;> rfl
@[simp] theorem poke_ircfg (s : State) (d width v : Nat) : (s.poke d width v).ircfg = s.ircfg := by unfold State.poke; split <;> rfl
@[simp] theorem poke_irhash (s : State) (d width v : Nat) : (s.poke d width v).irhash = s.irhash := by unfold State.poke; split <;> rfl
@[simp] theorem poke_btab (s : State) (d width v : Nat) : (s.poke d width v).btab = s.btab := by unfold State.poke; split <;> rfl
@[simp] theorem poke_houseBtab (s : State) (d width v : Nat) : (s.poke d width v).houseBtab = s.houseBtab := by unfold State.poke; split <;> rfl
@[simp] theorem poke_kslot (s : State) (d width v : Nat) : (s.poke d width v).kslot = s.kslot := by unfold State.poke; split <;> rfl
@[simp] theorem poke_ctr (s : State) (d width v : Nat) : (s.poke d width v).ctr = s.ctr := by unfold State.poke; split <;> rfl
@[simp] theorem poke_epochs (s : State) (d width v : Nat) : (s.poke d width v).epochs = s.epochs := by unfold State.poke; split <;> rfl
@[simp] theorem poke_lineKeys (s : State) (d width v : Nat) : (s.poke d width v).lineKeys = s.lineKeys := by unfold State.poke; split <;> rfl
@[simp] theorem poke_keyGens (s : State) (d width v : Nat) : (s.poke d width v).keyGens = s.keyGens := by unfold State.poke; split <;> rfl
@[simp] theorem poke_counters (s : State) (d width v : Nat) : (s.poke d width v).counters = s.counters := by unfold State.poke; split <;> rfl
@[simp] theorem poke_sroot (s : State) (d width v : Nat) : (s.poke d width v).sroot = s.sroot := by unfold State.poke; split <;> rfl
@[simp] theorem poke_badLines (s : State) (d width v : Nat) : (s.poke d width v).badLines = s.badLines := by unfold State.poke; split <;> rfl
@[simp] theorem poke_badBonds (s : State) (d width v : Nat) : (s.poke d width v).badBonds = s.badBonds := by unfold State.poke; split <;> rfl
@[simp] theorem poke_badCounters (s : State) (d width v : Nat) : (s.poke d width v).badCounters = s.badCounters := by unfold State.poke; split <;> rfl
@[simp] theorem poke_quarantines (s : State) (d width v : Nat) : (s.poke d width v).quarantines = s.quarantines := by unfold State.poke; split <;> rfl
@[simp] theorem poke_rekeys (s : State) (d width v : Nat) : (s.poke d width v).rekeys = s.rekeys := by unfold State.poke; split <;> rfl
@[simp] theorem poke_windows (s : State) (d width v : Nat) : (s.poke d width v).windows = s.windows := by unfold State.poke; split <;> rfl
@[simp] theorem poke_sessions (s : State) (d width v : Nat) : (s.poke d width v).sessions = s.sessions := by unfold State.poke; split <;> rfl
@[simp] theorem poke_spares (s : State) (d width v : Nat) : (s.poke d width v).spares = s.spares := by unfold State.poke; split <;> rfl
@[simp] theorem poke_pageReqs (s : State) (d width v : Nat) : (s.poke d width v).pageReqs = s.pageReqs := by unfold State.poke; split <;> rfl
@[simp] theorem poke_ranges (s : State) (d width v : Nat) : (s.poke d width v).ranges = s.ranges := by unfold State.poke; split <;> rfl
@[simp] theorem poke_hostPosts (s : State) (d width v : Nat) : (s.poke d width v).hostPosts = s.hostPosts := by unfold State.poke; split <;> rfl
@[simp] theorem poke_records (s : State) (d width v : Nat) : (s.poke d width v).records = s.records := by unfold State.poke; split <;> rfl
@[simp] theorem poke_rotations (s : State) (d width v : Nat) : (s.poke d width v).rotations = s.rotations := by unfold State.poke; split <;> rfl
@[simp] theorem poke_saved (s : State) (d width v : Nat) : (s.poke d width v).saved = s.saved := by unfold State.poke; split <;> rfl
@[simp] theorem poke_savedTiles (s : State) (d width v : Nat) : (s.poke d width v).savedTiles = s.savedTiles := by unfold State.poke; split <;> rfl
@[simp] theorem poke_tables (s : State) (d width v : Nat) : (s.poke d width v).tables = s.tables := by unfold State.poke; split <;> rfl
@[simp] theorem poke_launches (s : State) (d width v : Nat) : (s.poke d width v).launches = s.launches := by unfold State.poke; split <;> rfl
@[simp] theorem poke_rm (s : State) (d width v : Nat) : (s.poke d width v).rm = s.rm := by unfold State.poke; split <;> rfl
@[simp] theorem poke_rstcause (s : State) (d width v : Nat) : (s.poke d width v).rstcause = s.rstcause := by unfold State.poke; split <;> rfl
@[simp] theorem poke_pwrlim (s : State) (d width v : Nat) : (s.poke d width v).pwrlim = s.pwrlim := by unfold State.poke; split <;> rfl
@[simp] theorem poke_fns (s : State) (d width v : Nat) : (s.poke d width v).fns = s.fns := by unfold State.poke; split <;> rfl
@[simp] theorem poke_vfbind (s : State) (d width v : Nat) : (s.poke d width v).vfbind = s.vfbind := by unfold State.poke; split <;> rfl
@[simp] theorem poke_vfEnable (s : State) (d width v : Nat) : (s.poke d width v).vfEnable = s.vfEnable := by unfold State.poke; split <;> rfl
@[simp] theorem poke_bound (s : State) (d width v : Nat) : (s.poke d width v).bound = s.bound := by unfold State.poke; split <;> rfl
@[simp] theorem poke_images (s : State) (d width v : Nat) : (s.poke d width v).images = s.images := by unfold State.poke; split <;> rfl
@[simp] theorem poke_teardowns (s : State) (d width v : Nat) : (s.poke d width v).teardowns = s.teardowns := by unfold State.poke; split <;> rfl
@[simp] theorem poke_attested (s : State) (d width v : Nat) : (s.poke d width v).attested = s.attested := by unfold State.poke; split <;> rfl
@[simp] theorem poke_hostRead (s : State) (d width v : Nat) : (s.poke d width v).hostRead = s.hostRead := by unfold State.poke; split <;> rfl
@[simp] theorem poke_msixSent (s : State) (d width v : Nat) : (s.poke d width v).msixSent = s.msixSent := by unfold State.poke; split <;> rfl
@[simp] theorem poke_discards (s : State) (d width v : Nat) : (s.poke d width v).discards = s.discards := by unfold State.poke; split <;> rfl
@[simp] theorem poke_discarded (s : State) (d width v : Nat) : (s.poke d width v).discarded = s.discarded := by unfold State.poke; split <;> rfl
@[simp] theorem poke_channels (s : State) (d width v : Nat) : (s.poke d width v).channels = s.channels := by unfold State.poke; split <;> rfl
@[simp] theorem poke_booted (s : State) (d width v : Nat) : (s.poke d width v).booted = s.booted := by unfold State.poke; split <;> rfl

/-! ### What is read after an update -/

@[simp] theorem ctxAt_setCtxAt_same (s : State) (id : Nat) (c : Ctx) : (s.setCtxAt id c).ctxAt id = c := get_set_same _ _ _
theorem ctxAt_setCtxAt_ne (s : State) (c : Ctx) {id j : Nat} (h : j ≠ id) : (s.setCtxAt id c).ctxAt j = s.ctxAt j := get_set_ne _ _ h
@[simp] theorem tileAt_setTileAt_same (s : State) (n : Nat) (t : Tile) : (s.setTileAt n t).tileAt n = t := get_set_same _ _ _
theorem tileAt_setTileAt_ne (s : State) (t : Tile) {n j : Nat} (h : j ≠ n) : (s.setTileAt n t).tileAt j = s.tileAt j := get_set_ne _ _ h
@[simp] theorem tileAt_setCtxAt (s : State) (id : Nat) (c : Ctx) (n : Nat) : (s.setCtxAt id c).tileAt n = s.tileAt n := rfl
@[simp] theorem ctxAt_setTileAt (s : State) (n : Nat) (t : Tile) (id : Nat) : (s.setTileAt n t).ctxAt id = s.ctxAt id := rfl
@[simp] theorem ctxAt_setTagAt (s : State) (d : Nat) (t : Tag) (id : Nat) : (s.setTagAt d t).ctxAt id = s.ctxAt id := rfl
@[simp] theorem ctxAt_post (s : State) (r : RecordSpec) (id : Nat) : (s.post r).ctxAt id = s.ctxAt id := rfl
@[simp] theorem tileAt_post (s : State) (r : RecordSpec) (n : Nat) : (s.post r).tileAt n = s.tileAt n := rfl
@[simp] theorem tileAt_unstall (s : State) (n : Nat) : s.unstall.tileAt n = s.tileAt n := rfl
@[simp] theorem me_setMe (s : State) (c : Ctx) : (s.setMe c).me = c := get_set_same _ _ _
theorem ctxAt_setMe_ne (s : State) (c : Ctx) {id : Nat} (h : id ≠ s.cur) : (s.setMe c).ctxAt id = s.ctxAt id := get_set_ne _ _ h
@[simp] theorem me_setMyTile (s : State) (t : Tile) : (s.setMyTile t).me = s.me := rfl
@[simp] theorem me_setTileAt (s : State) (n : Nat) (t : Tile) : (s.setTileAt n t).me = s.me := rfl
@[simp] theorem myTile_setMe (s : State) (c : Ctx) : (s.setMe c).myTile = s.myTile := rfl
@[simp] theorem myTile_setMyTile (s : State) (t : Tile) : (s.setMyTile t).myTile = t := get_set_same _ _ _
@[simp] theorem me_bumpId (s : State) : s.bumpId.me = s.me := rfl
@[simp] theorem me_bumpFree (s : State) : s.bumpFree.me = s.me := rfl
@[simp] theorem tileAt_setMe (s : State) (c : Ctx) (n : Nat) : (s.setMe c).tileAt n = s.tileAt n := rfl
@[simp] theorem partOf_setMe (s : State) (c : Ctx) (id : Nat) : (s.setMe c).partOf id = s.partOf id := rfl
@[simp] theorem partOf_setCtxAt (s : State) (j : Nat) (c : Ctx) (id : Nat) : (s.setCtxAt j c).partOf id = s.partOf id := rfl

theorem get_retryAll (m : Map Ctx) (id : Nat) :
    Map.get (fun _ => {}) (retryAll m) id =
      if (Map.get (fun _ => {}) m id : Ctx).st = .blocked .retry then { (Map.get (fun _ => {}) m id : Ctx) with st := .ready }
      else Map.get (fun _ => {}) m id := by
  induction m with
  | nil => simp [retryAll, Map.get]
  | cons x m ih =>
    obtain ⟨k, c⟩ := x
    by_cases h : k = id
    · simp [retryAll, Map.get, h]
    · simp only [retryAll, Map.get, h, if_false]; exact ih

/-- Every context is as before, but that one which waited to try again is READY. -/
theorem ctxAt_unstall (s : State) (id : Nat) :
    s.unstall.ctxAt id = if (s.ctxAt id).st = .blocked .retry then { s.ctxAt id with st := .ready } else s.ctxAt id := get_retryAll _ _

/-! ### Registers of a context -/

@[simp] theorem getG_zero (c : Ctx) : c.getG 0 = {} := rfl
@[simp] theorem setG_zero (c : Ctx) (v : GVal) : c.setG 0 v = c := rfl

theorem getG_setG_same (c : Ctx) {n : Nat} (v : GVal) (h : n ≠ 0) : (c.setG n v).getG n = v := by
  simp [Ctx.setG, Ctx.getG, h]

theorem getG_setG_ne (c : Ctx) (v : GVal) {n j : Nat} (h : j ≠ n) : (c.setG n v).getG j = c.getG j := by
  unfold Ctx.setG Ctx.getG
  by_cases hj : j = 0
  · simp [hj]
  · by_cases hn : n = 0
    · simp [hn]
    · simp [hj, hn, get_set_ne _ _ h]

@[simp] theorem getE_setG (c : Ctx) (n : Nat) (v : GVal) (k : Nat) : (c.setG n v).getE k = c.getE k := by
  unfold Ctx.setG; split <;> rfl
@[simp] theorem getE_setE_same (c : Ctx) (k : Nat) (v : GVal) : (c.setE k v).getE k = v := get_set_same _ _ _
theorem getE_setE_ne (c : Ctx) (v : GVal) {k j : Nat} (h : j ≠ k) : (c.setE k v).getE j = c.getE j := get_set_ne _ _ h
@[simp] theorem getG_setE (c : Ctx) (k : Nat) (v : GVal) (n : Nat) : (c.setE k v).getG n = c.getG n := rfl
@[simp] theorem getG_advance (c : Ctx) (len n : Nat) : (c.advance len).getG n = c.getG n := rfl
@[simp] theorem getE_advance (c : Ctx) (len k : Nat) : (c.advance len).getE k = c.getE k := rfl
@[simp] theorem getG_block (c : Ctx) (w : Why) (n : Nat) : (c.block w).getG n = c.getG n := rfl
@[simp] theorem getE_block (c : Ctx) (w : Why) (k : Nat) : (c.block w).getE k = c.getE k := rfl
@[simp] theorem getG_expect (c : Ctx) (keys : List Nat) (id n : Nat) : (c.expect keys id).getG n = c.getG n := rfl
@[simp] theorem getE_expect (c : Ctx) (keys : List Nat) (id k : Nat) : (c.expect keys id).getE k = c.getE k := rfl

@[simp] theorem advance_st (c : Ctx) (len : Nat) : (c.advance len).st = c.st := rfl
@[simp] theorem advance_pc (c : Ctx) (len : Nat) : (c.advance len).pc = c.pc + wd len := rfl
@[simp] theorem advance_g (c : Ctx) (len : Nat) : (c.advance len).g = c.g := rfl
@[simp] theorem advance_e (c : Ctx) (len : Nat) : (c.advance len).e = c.e := rfl
@[simp] theorem advance_pend (c : Ctx) (len : Nat) : (c.advance len).pend = c.pend := rfl
@[simp] theorem advance_inTrap (c : Ctx) (len : Nat) : (c.advance len).inTrap = c.inTrap := rfl
@[simp] theorem advance_gang (c : Ctx) (len : Nat) : (c.advance len).gang = c.gang := rfl
@[simp] theorem advance_handler (c : Ctx) (len : Nat) : (c.advance len).handler = c.handler := rfl
@[simp] theorem advance_pipe (c : Ctx) (len : Nat) : (c.advance len).pipe = c.pipe := rfl
@[simp] theorem advance_cause (c : Ctx) (len : Nat) : (c.advance len).cause = c.cause := rfl
@[simp] theorem advance_adopted (c : Ctx) (len : Nat) : (c.advance len).adopted = c.adopted := rfl
@[simp] theorem advance_epc (c : Ctx) (len : Nat) : (c.advance len).epc = c.epc := rfl
@[simp] theorem advance_tval (c : Ctx) (len : Nat) : (c.advance len).tval = c.tval := rfl
@[simp] theorem advance_trapvec (c : Ctx) (len : Nat) : (c.advance len).trapvec = c.trapvec := rfl
@[simp] theorem advance_timeout (c : Ctx) (len : Nat) : (c.advance len).timeout = c.timeout := rfl
@[simp] theorem advance_retry (c : Ctx) (len : Nat) : (c.advance len).retry = c.retry := rfl
@[simp] theorem advance_adoptOff (c : Ctx) (len : Nat) : (c.advance len).adoptOff = c.adoptOff := rfl
@[simp] theorem advance_depth (c : Ctx) (len : Nat) : (c.advance len).depth = c.depth := rfl
@[simp] theorem advance_limit (c : Ctx) (len : Nat) : (c.advance len).limit = c.limit := rfl
@[simp] theorem advance_adoptsp (c : Ctx) (len : Nat) : (c.advance len).adoptsp = c.adoptsp := rfl
@[simp] theorem advance_round (c : Ctx) (len : Nat) : (c.advance len).round = c.round := rfl
@[simp] theorem advance_tenant (c : Ctx) (len : Nat) : (c.advance len).tenant = c.tenant := rfl
@[simp] theorem advance_stage (c : Ctx) (len : Nat) : (c.advance len).stage = c.stage := rfl
@[simp] theorem advance_abind (c : Ctx) (len : Nat) : (c.advance len).abind = c.abind := rfl
@[simp] theorem advance_msgvec (c : Ctx) (len : Nat) : (c.advance len).msgvec = c.msgvec := rfl
@[simp] theorem advance_scratch0 (c : Ctx) (len : Nat) : (c.advance len).scratch0 = c.scratch0 := rfl
@[simp] theorem advance_scratch1 (c : Ctx) (len : Nat) : (c.advance len).scratch1 = c.scratch1 := rfl
@[simp] theorem advance_latch (c : Ctx) (len : Nat) : (c.advance len).latch = c.latch := rfl
@[simp] theorem advance_deferred (c : Ctx) (len : Nat) : (c.advance len).deferred = c.deferred := rfl
@[simp] theorem advance_borrowed (c : Ctx) (len : Nat) : (c.advance len).borrowed = c.borrowed := rfl
@[simp] theorem advance_aside (c : Ctx) (len : Nat) : (c.advance len).aside = c.aside := rfl
@[simp] theorem advance_frames (c : Ctx) (len : Nat) : (c.advance len).frames = c.frames := rfl
@[simp] theorem advance_lastIssue (c : Ctx) (len : Nat) : (c.advance len).lastIssue = c.lastIssue := rfl
@[simp] theorem advance_obj (c : Ctx) (len : Nat) : (c.advance len).obj = c.obj := rfl
@[simp] theorem advance_stages (c : Ctx) (len : Nat) : (c.advance len).stages = c.stages := rfl
@[simp] theorem advance_qdown (c : Ctx) (len : Nat) : (c.advance len).qdown = c.qdown := rfl
@[simp] theorem advance_qup (c : Ctx) (len : Nat) : (c.advance len).qup = c.qup := rfl
@[simp] theorem advance_arrived (c : Ctx) (len : Nat) : (c.advance len).arrived = c.arrived := rfl
@[simp] theorem advance_lastStatus (c : Ctx) (len : Nat) : (c.advance len).lastStatus = c.lastStatus := rfl
@[simp] theorem advance_launch (c : Ctx) (len : Nat) : (c.advance len).launch = c.launch := rfl
@[simp] theorem advance_wait (c : Ctx) (len : Nat) : (c.advance len).wait = c.wait := rfl
@[simp] theorem advance_parkedAt (c : Ctx) (len : Nat) : (c.advance len).parkedAt = c.parkedAt := rfl
@[simp] theorem advance_yield_ (c : Ctx) (len : Nat) : (c.advance len).yield_ = c.yield_ := rfl
@[simp] theorem advance_seen (c : Ctx) (len : Nat) : (c.advance len).seen = [] := rfl
@[simp] theorem advance_walked (c : Ctx) (len : Nat) : (c.advance len).walked = [] := rfl
@[simp] theorem advance_lastTurn (c : Ctx) (len : Nat) : (c.advance len).lastTurn = c.lastTurn := rfl
@[simp] theorem advance_hold (c : Ctx) (len : Nat) : (c.advance len).hold = none := rfl
@[simp] theorem advance_handledBy (c : Ctx) (len : Nat) : (c.advance len).handledBy = c.handledBy := rfl
@[simp] theorem advance_handling (c : Ctx) (len : Nat) : (c.advance len).handling = c.handling := rfl
@[simp] theorem advance_faulted (c : Ctx) (len : Nat) : (c.advance len).faulted = c.faulted := rfl
@[simp] theorem advance_after (c : Ctx) (len : Nat) : (c.advance len).after = c.after := rfl
@[simp] theorem advance_rewalk (c : Ctx) (len : Nat) : (c.advance len).rewalk = c.rewalk := rfl
@[simp] theorem advance_again (c : Ctx) (len : Nat) : (c.advance len).again = 0 := rfl
@[simp] theorem advance_plainWait (c : Ctx) (len : Nat) : (c.advance len).plainWait = false := rfl
@[simp] theorem advance_barWait (c : Ctx) (len : Nat) : (c.advance len).barWait = false := rfl
@[simp] theorem advance_own (c : Ctx) (len : Nat) : (c.advance len).own = c.own := rfl
@[simp] theorem advance_fenced (c : Ctx) (len : Nat) : (c.advance len).fenced = c.fenced := rfl

@[simp] theorem block_st (c : Ctx) (w : Why) : (c.block w).st = .blocked w := rfl
@[simp] theorem block_pc (c : Ctx) (w : Why) : (c.block w).pc = c.pc := rfl
@[simp] theorem block_g (c : Ctx) (w : Why) : (c.block w).g = c.g := rfl
@[simp] theorem block_e (c : Ctx) (w : Why) : (c.block w).e = c.e := rfl
@[simp] theorem block_pend (c : Ctx) (w : Why) : (c.block w).pend = c.pend := rfl
@[simp] theorem block_inTrap (c : Ctx) (w : Why) : (c.block w).inTrap = c.inTrap := rfl
@[simp] theorem block_gang (c : Ctx) (w : Why) : (c.block w).gang = c.gang := rfl
@[simp] theorem block_handler (c : Ctx) (w : Why) : (c.block w).handler = c.handler := rfl
@[simp] theorem block_pipe (c : Ctx) (w : Why) : (c.block w).pipe = c.pipe := rfl
@[simp] theorem block_cause (c : Ctx) (w : Why) : (c.block w).cause = c.cause := rfl
@[simp] theorem block_adopted (c : Ctx) (w : Why) : (c.block w).adopted = c.adopted := rfl
@[simp] theorem block_epc (c : Ctx) (w : Why) : (c.block w).epc = c.epc := rfl
@[simp] theorem block_tval (c : Ctx) (w : Why) : (c.block w).tval = c.tval := rfl
@[simp] theorem block_trapvec (c : Ctx) (w : Why) : (c.block w).trapvec = c.trapvec := rfl
@[simp] theorem block_timeout (c : Ctx) (w : Why) : (c.block w).timeout = c.timeout := rfl
@[simp] theorem block_retry (c : Ctx) (w : Why) : (c.block w).retry = c.retry := rfl
@[simp] theorem block_adoptOff (c : Ctx) (w : Why) : (c.block w).adoptOff = c.adoptOff := rfl
@[simp] theorem block_depth (c : Ctx) (w : Why) : (c.block w).depth = c.depth := rfl
@[simp] theorem block_limit (c : Ctx) (w : Why) : (c.block w).limit = c.limit := rfl
@[simp] theorem block_adoptsp (c : Ctx) (w : Why) : (c.block w).adoptsp = c.adoptsp := rfl
@[simp] theorem block_round (c : Ctx) (w : Why) : (c.block w).round = c.round := rfl
@[simp] theorem block_tenant (c : Ctx) (w : Why) : (c.block w).tenant = c.tenant := rfl
@[simp] theorem block_stage (c : Ctx) (w : Why) : (c.block w).stage = c.stage := rfl
@[simp] theorem block_abind (c : Ctx) (w : Why) : (c.block w).abind = c.abind := rfl
@[simp] theorem block_msgvec (c : Ctx) (w : Why) : (c.block w).msgvec = c.msgvec := rfl
@[simp] theorem block_scratch0 (c : Ctx) (w : Why) : (c.block w).scratch0 = c.scratch0 := rfl
@[simp] theorem block_scratch1 (c : Ctx) (w : Why) : (c.block w).scratch1 = c.scratch1 := rfl
@[simp] theorem block_latch (c : Ctx) (w : Why) : (c.block w).latch = c.latch := rfl
@[simp] theorem block_deferred (c : Ctx) (w : Why) : (c.block w).deferred = c.deferred := rfl
@[simp] theorem block_borrowed (c : Ctx) (w : Why) : (c.block w).borrowed = c.borrowed := rfl
@[simp] theorem block_aside (c : Ctx) (w : Why) : (c.block w).aside = c.aside := rfl
@[simp] theorem block_frames (c : Ctx) (w : Why) : (c.block w).frames = c.frames := rfl
@[simp] theorem block_lastIssue (c : Ctx) (w : Why) : (c.block w).lastIssue = c.lastIssue := rfl
@[simp] theorem block_obj (c : Ctx) (w : Why) : (c.block w).obj = c.obj := rfl
@[simp] theorem block_stages (c : Ctx) (w : Why) : (c.block w).stages = c.stages := rfl
@[simp] theorem block_qdown (c : Ctx) (w : Why) : (c.block w).qdown = c.qdown := rfl
@[simp] theorem block_qup (c : Ctx) (w : Why) : (c.block w).qup = c.qup := rfl
@[simp] theorem block_arrived (c : Ctx) (w : Why) : (c.block w).arrived = c.arrived := rfl
@[simp] theorem block_lastStatus (c : Ctx) (w : Why) : (c.block w).lastStatus = c.lastStatus := rfl
@[simp] theorem block_launch (c : Ctx) (w : Why) : (c.block w).launch = c.launch := rfl
@[simp] theorem block_wait (c : Ctx) (w : Why) : (c.block w).wait = c.wait := rfl
@[simp] theorem block_parkedAt (c : Ctx) (w : Why) : (c.block w).parkedAt = c.parkedAt := rfl
@[simp] theorem block_yield_ (c : Ctx) (w : Why) : (c.block w).yield_ = c.yield_ := rfl
@[simp] theorem block_seen (c : Ctx) (w : Why) : (c.block w).seen = c.seen := rfl
@[simp] theorem block_walked (c : Ctx) (w : Why) : (c.block w).walked = c.walked := rfl
@[simp] theorem block_lastTurn (c : Ctx) (w : Why) : (c.block w).lastTurn = c.lastTurn := rfl
@[simp] theorem block_hold (c : Ctx) (w : Why) : (c.block w).hold = c.hold := rfl
@[simp] theorem block_handledBy (c : Ctx) (w : Why) : (c.block w).handledBy = c.handledBy := rfl
@[simp] theorem block_handling (c : Ctx) (w : Why) : (c.block w).handling = c.handling := rfl
@[simp] theorem block_faulted (c : Ctx) (w : Why) : (c.block w).faulted = c.faulted := rfl
@[simp] theorem block_after (c : Ctx) (w : Why) : (c.block w).after = c.after := rfl
@[simp] theorem block_rewalk (c : Ctx) (w : Why) : (c.block w).rewalk = c.rewalk := rfl
@[simp] theorem block_again (c : Ctx) (w : Why) : (c.block w).again = c.again := rfl
@[simp] theorem block_plainWait (c : Ctx) (w : Why) : (c.block w).plainWait = c.plainWait := rfl
@[simp] theorem block_barWait (c : Ctx) (w : Why) : (c.block w).barWait = c.barWait := rfl
@[simp] theorem block_own (c : Ctx) (w : Why) : (c.block w).own = c.own := rfl
@[simp] theorem block_fenced (c : Ctx) (w : Why) : (c.block w).fenced = c.fenced := rfl

@[simp] theorem expect_st (c : Ctx) (keys : List Nat) (id : Nat) : (c.expect keys id).st = c.st := rfl
@[simp] theorem expect_pc (c : Ctx) (keys : List Nat) (id : Nat) : (c.expect keys id).pc = c.pc := rfl
@[simp] theorem expect_g (c : Ctx) (keys : List Nat) (id : Nat) : (c.expect keys id).g = c.g := rfl
@[simp] theorem expect_e (c : Ctx) (keys : List Nat) (id : Nat) : (c.expect keys id).e = c.e := rfl
@[simp] theorem expect_inTrap (c : Ctx) (keys : List Nat) (id : Nat) : (c.expect keys id).inTrap = c.inTrap := rfl
@[simp] theorem expect_gang (c : Ctx) (keys : List Nat) (id : Nat) : (c.expect keys id).gang = c.gang := rfl
@[simp] theorem expect_handler (c : Ctx) (keys : List Nat) (id : Nat) : (c.expect keys id).handler = c.handler := rfl
@[simp] theorem expect_pipe (c : Ctx) (keys : List Nat) (id : Nat) : (c.expect keys id).pipe = c.pipe := rfl
@[simp] theorem expect_cause (c : Ctx) (keys : List Nat) (id : Nat) : (c.expect keys id).cause = c.cause := rfl
@[simp] theorem expect_adopted (c : Ctx) (keys : List Nat) (id : Nat) : (c.expect keys id).adopted = c.adopted := rfl
@[simp] theorem expect_epc (c : Ctx) (keys : List Nat) (id : Nat) : (c.expect keys id).epc = c.epc := rfl
@[simp] theorem expect_tval (c : Ctx) (keys : List Nat) (id : Nat) : (c.expect keys id).tval = c.tval := rfl
@[simp] theorem expect_trapvec (c : Ctx) (keys : List Nat) (id : Nat) : (c.expect keys id).trapvec = c.trapvec := rfl
@[simp] theorem expect_timeout (c : Ctx) (keys : List Nat) (id : Nat) : (c.expect keys id).timeout = c.timeout := rfl
@[simp] theorem expect_retry (c : Ctx) (keys : List Nat) (id : Nat) : (c.expect keys id).retry = c.retry := rfl
@[simp] theorem expect_adoptOff (c : Ctx) (keys : List Nat) (id : Nat) : (c.expect keys id).adoptOff = c.adoptOff := rfl
@[simp] theorem expect_depth (c : Ctx) (keys : List Nat) (id : Nat) : (c.expect keys id).depth = c.depth := rfl
@[simp] theorem expect_limit (c : Ctx) (keys : List Nat) (id : Nat) : (c.expect keys id).limit = c.limit := rfl
@[simp] theorem expect_adoptsp (c : Ctx) (keys : List Nat) (id : Nat) : (c.expect keys id).adoptsp = c.adoptsp := rfl
@[simp] theorem expect_round (c : Ctx) (keys : List Nat) (id : Nat) : (c.expect keys id).round = c.round := rfl
@[simp] theorem expect_tenant (c : Ctx) (keys : List Nat) (id : Nat) : (c.expect keys id).tenant = c.tenant := rfl
@[simp] theorem expect_stage (c : Ctx) (keys : List Nat) (id : Nat) : (c.expect keys id).stage = c.stage := rfl
@[simp] theorem expect_abind (c : Ctx) (keys : List Nat) (id : Nat) : (c.expect keys id).abind = c.abind := rfl
@[simp] theorem expect_msgvec (c : Ctx) (keys : List Nat) (id : Nat) : (c.expect keys id).msgvec = c.msgvec := rfl
@[simp] theorem expect_scratch0 (c : Ctx) (keys : List Nat) (id : Nat) : (c.expect keys id).scratch0 = c.scratch0 := rfl
@[simp] theorem expect_scratch1 (c : Ctx) (keys : List Nat) (id : Nat) : (c.expect keys id).scratch1 = c.scratch1 := rfl
@[simp] theorem expect_latch (c : Ctx) (keys : List Nat) (id : Nat) : (c.expect keys id).latch = c.latch := rfl
@[simp] theorem expect_deferred (c : Ctx) (keys : List Nat) (id : Nat) : (c.expect keys id).deferred = c.deferred := rfl
@[simp] theorem expect_borrowed (c : Ctx) (keys : List Nat) (id : Nat) : (c.expect keys id).borrowed = c.borrowed := rfl
@[simp] theorem expect_aside (c : Ctx) (keys : List Nat) (id : Nat) : (c.expect keys id).aside = c.aside := rfl
@[simp] theorem expect_frames (c : Ctx) (keys : List Nat) (id : Nat) : (c.expect keys id).frames = c.frames := rfl
@[simp] theorem expect_lastIssue (c : Ctx) (keys : List Nat) (id : Nat) : (c.expect keys id).lastIssue = c.lastIssue := rfl
@[simp] theorem expect_obj (c : Ctx) (keys : List Nat) (id : Nat) : (c.expect keys id).obj = c.obj := rfl
@[simp] theorem expect_stages (c : Ctx) (keys : List Nat) (id : Nat) : (c.expect keys id).stages = c.stages := rfl
@[simp] theorem expect_qdown (c : Ctx) (keys : List Nat) (id : Nat) : (c.expect keys id).qdown = c.qdown := rfl
@[simp] theorem expect_qup (c : Ctx) (keys : List Nat) (id : Nat) : (c.expect keys id).qup = c.qup := rfl
@[simp] theorem expect_arrived (c : Ctx) (keys : List Nat) (id : Nat) : (c.expect keys id).arrived = c.arrived := rfl
@[simp] theorem expect_lastStatus (c : Ctx) (keys : List Nat) (id : Nat) : (c.expect keys id).lastStatus = c.lastStatus := rfl
@[simp] theorem expect_launch (c : Ctx) (keys : List Nat) (id : Nat) : (c.expect keys id).launch = c.launch := rfl
@[simp] theorem expect_wait (c : Ctx) (keys : List Nat) (id : Nat) : (c.expect keys id).wait = c.wait := rfl
@[simp] theorem expect_parkedAt (c : Ctx) (keys : List Nat) (id : Nat) : (c.expect keys id).parkedAt = c.parkedAt := rfl
@[simp] theorem expect_yield_ (c : Ctx) (keys : List Nat) (id : Nat) : (c.expect keys id).yield_ = c.yield_ := rfl
@[simp] theorem expect_seen (c : Ctx) (keys : List Nat) (id : Nat) : (c.expect keys id).seen = c.seen := rfl
@[simp] theorem expect_walked (c : Ctx) (keys : List Nat) (id : Nat) : (c.expect keys id).walked = c.walked := rfl
@[simp] theorem expect_lastTurn (c : Ctx) (keys : List Nat) (id : Nat) : (c.expect keys id).lastTurn = c.lastTurn := rfl
@[simp] theorem expect_hold (c : Ctx) (keys : List Nat) (id : Nat) : (c.expect keys id).hold = c.hold := rfl
@[simp] theorem expect_handledBy (c : Ctx) (keys : List Nat) (id : Nat) : (c.expect keys id).handledBy = c.handledBy := rfl
@[simp] theorem expect_handling (c : Ctx) (keys : List Nat) (id : Nat) : (c.expect keys id).handling = c.handling := rfl
@[simp] theorem expect_faulted (c : Ctx) (keys : List Nat) (id : Nat) : (c.expect keys id).faulted = c.faulted := rfl
@[simp] theorem expect_after (c : Ctx) (keys : List Nat) (id : Nat) : (c.expect keys id).after = c.after := rfl
@[simp] theorem expect_rewalk (c : Ctx) (keys : List Nat) (id : Nat) : (c.expect keys id).rewalk = c.rewalk := rfl
@[simp] theorem expect_again (c : Ctx) (keys : List Nat) (id : Nat) : (c.expect keys id).again = c.again := rfl
@[simp] theorem expect_plainWait (c : Ctx) (keys : List Nat) (id : Nat) : (c.expect keys id).plainWait = c.plainWait := rfl
@[simp] theorem expect_barWait (c : Ctx) (keys : List Nat) (id : Nat) : (c.expect keys id).barWait = c.barWait := rfl
@[simp] theorem expect_own (c : Ctx) (keys : List Nat) (id : Nat) : (c.expect keys id).own = c.own := rfl
@[simp] theorem expect_fenced (c : Ctx) (keys : List Nat) (id : Nat) : (c.expect keys id).fenced = c.fenced := rfl

@[simp] theorem setE_st (c : Ctx) (k : Nat) (v : GVal) : (c.setE k v).st = c.st := rfl
@[simp] theorem setE_pc (c : Ctx) (k : Nat) (v : GVal) : (c.setE k v).pc = c.pc := rfl
@[simp] theorem setE_g (c : Ctx) (k : Nat) (v : GVal) : (c.setE k v).g = c.g := rfl
@[simp] theorem setE_inTrap (c : Ctx) (k : Nat) (v : GVal) : (c.setE k v).inTrap = c.inTrap := rfl
@[simp] theorem setE_gang (c : Ctx) (k : Nat) (v : GVal) : (c.setE k v).gang = c.gang := rfl
@[simp] theorem setE_handler (c : Ctx) (k : Nat) (v : GVal) : (c.setE k v).handler = c.handler := rfl
@[simp] theorem setE_pipe (c : Ctx) (k : Nat) (v : GVal) : (c.setE k v).pipe = c.pipe := rfl
@[simp] theorem setE_cause (c : Ctx) (k : Nat) (v : GVal) : (c.setE k v).cause = c.cause := rfl
@[simp] theorem setE_adopted (c : Ctx) (k : Nat) (v : GVal) : (c.setE k v).adopted = c.adopted := rfl
@[simp] theorem setE_epc (c : Ctx) (k : Nat) (v : GVal) : (c.setE k v).epc = c.epc := rfl
@[simp] theorem setE_tval (c : Ctx) (k : Nat) (v : GVal) : (c.setE k v).tval = c.tval := rfl
@[simp] theorem setE_trapvec (c : Ctx) (k : Nat) (v : GVal) : (c.setE k v).trapvec = c.trapvec := rfl
@[simp] theorem setE_timeout (c : Ctx) (k : Nat) (v : GVal) : (c.setE k v).timeout = c.timeout := rfl
@[simp] theorem setE_retry (c : Ctx) (k : Nat) (v : GVal) : (c.setE k v).retry = c.retry := rfl
@[simp] theorem setE_adoptOff (c : Ctx) (k : Nat) (v : GVal) : (c.setE k v).adoptOff = c.adoptOff := rfl
@[simp] theorem setE_depth (c : Ctx) (k : Nat) (v : GVal) : (c.setE k v).depth = c.depth := rfl
@[simp] theorem setE_limit (c : Ctx) (k : Nat) (v : GVal) : (c.setE k v).limit = c.limit := rfl
@[simp] theorem setE_adoptsp (c : Ctx) (k : Nat) (v : GVal) : (c.setE k v).adoptsp = c.adoptsp := rfl
@[simp] theorem setE_round (c : Ctx) (k : Nat) (v : GVal) : (c.setE k v).round = c.round := rfl
@[simp] theorem setE_tenant (c : Ctx) (k : Nat) (v : GVal) : (c.setE k v).tenant = c.tenant := rfl
@[simp] theorem setE_stage (c : Ctx) (k : Nat) (v : GVal) : (c.setE k v).stage = c.stage := rfl
@[simp] theorem setE_abind (c : Ctx) (k : Nat) (v : GVal) : (c.setE k v).abind = c.abind := rfl
@[simp] theorem setE_msgvec (c : Ctx) (k : Nat) (v : GVal) : (c.setE k v).msgvec = c.msgvec := rfl
@[simp] theorem setE_scratch0 (c : Ctx) (k : Nat) (v : GVal) : (c.setE k v).scratch0 = c.scratch0 := rfl
@[simp] theorem setE_scratch1 (c : Ctx) (k : Nat) (v : GVal) : (c.setE k v).scratch1 = c.scratch1 := rfl
@[simp] theorem setE_latch (c : Ctx) (k : Nat) (v : GVal) : (c.setE k v).latch = c.latch := rfl
@[simp] theorem setE_deferred (c : Ctx) (k : Nat) (v : GVal) : (c.setE k v).deferred = c.deferred := rfl
@[simp] theorem setE_borrowed (c : Ctx) (k : Nat) (v : GVal) : (c.setE k v).borrowed = c.borrowed := rfl
@[simp] theorem setE_aside (c : Ctx) (k : Nat) (v : GVal) : (c.setE k v).aside = c.aside := rfl
@[simp] theorem setE_frames (c : Ctx) (k : Nat) (v : GVal) : (c.setE k v).frames = c.frames := rfl
@[simp] theorem setE_lastIssue (c : Ctx) (k : Nat) (v : GVal) : (c.setE k v).lastIssue = c.lastIssue := rfl
@[simp] theorem setE_obj (c : Ctx) (k : Nat) (v : GVal) : (c.setE k v).obj = c.obj := rfl
@[simp] theorem setE_stages (c : Ctx) (k : Nat) (v : GVal) : (c.setE k v).stages = c.stages := rfl
@[simp] theorem setE_qdown (c : Ctx) (k : Nat) (v : GVal) : (c.setE k v).qdown = c.qdown := rfl
@[simp] theorem setE_qup (c : Ctx) (k : Nat) (v : GVal) : (c.setE k v).qup = c.qup := rfl
@[simp] theorem setE_arrived (c : Ctx) (k : Nat) (v : GVal) : (c.setE k v).arrived = c.arrived := rfl
@[simp] theorem setE_lastStatus (c : Ctx) (k : Nat) (v : GVal) : (c.setE k v).lastStatus = c.lastStatus := rfl
@[simp] theorem setE_launch (c : Ctx) (k : Nat) (v : GVal) : (c.setE k v).launch = c.launch := rfl
@[simp] theorem setE_wait (c : Ctx) (k : Nat) (v : GVal) : (c.setE k v).wait = c.wait := rfl
@[simp] theorem setE_parkedAt (c : Ctx) (k : Nat) (v : GVal) : (c.setE k v).parkedAt = c.parkedAt := rfl
@[simp] theorem setE_yield_ (c : Ctx) (k : Nat) (v : GVal) : (c.setE k v).yield_ = c.yield_ := rfl
@[simp] theorem setE_seen (c : Ctx) (k : Nat) (v : GVal) : (c.setE k v).seen = c.seen := rfl
@[simp] theorem setE_walked (c : Ctx) (k : Nat) (v : GVal) : (c.setE k v).walked = c.walked := rfl
@[simp] theorem setE_lastTurn (c : Ctx) (k : Nat) (v : GVal) : (c.setE k v).lastTurn = c.lastTurn := rfl
@[simp] theorem setE_hold (c : Ctx) (k : Nat) (v : GVal) : (c.setE k v).hold = c.hold := rfl
@[simp] theorem setE_handledBy (c : Ctx) (k : Nat) (v : GVal) : (c.setE k v).handledBy = c.handledBy := rfl
@[simp] theorem setE_handling (c : Ctx) (k : Nat) (v : GVal) : (c.setE k v).handling = c.handling := rfl
@[simp] theorem setE_faulted (c : Ctx) (k : Nat) (v : GVal) : (c.setE k v).faulted = c.faulted := rfl
@[simp] theorem setE_after (c : Ctx) (k : Nat) (v : GVal) : (c.setE k v).after = c.after := rfl
@[simp] theorem setE_rewalk (c : Ctx) (k : Nat) (v : GVal) : (c.setE k v).rewalk = c.rewalk := rfl
@[simp] theorem setE_again (c : Ctx) (k : Nat) (v : GVal) : (c.setE k v).again = c.again := rfl
@[simp] theorem setE_plainWait (c : Ctx) (k : Nat) (v : GVal) : (c.setE k v).plainWait = c.plainWait := rfl
@[simp] theorem setE_barWait (c : Ctx) (k : Nat) (v : GVal) : (c.setE k v).barWait = c.barWait := rfl
@[simp] theorem setE_own (c : Ctx) (k : Nat) (v : GVal) : (c.setE k v).own = c.own := rfl
@[simp] theorem setE_fenced (c : Ctx) (k : Nat) (v : GVal) : (c.setE k v).fenced = c.fenced := rfl

@[simp] theorem setG_st (c : Ctx) (n : Nat) (v : GVal) : (c.setG n v).st = c.st := by unfold Ctx.setG; split <;> rfl
@[simp] theorem setG_pc (c : Ctx) (n : Nat) (v : GVal) : (c.setG n v).pc = c.pc := by unfold Ctx.setG; split <;> rfl
@[simp] theorem setG_e (c : Ctx) (n : Nat) (v : GVal) : (c.setG n v).e = c.e := by unfold Ctx.setG; split <;> rfl
@[simp] theorem setG_inTrap (c : Ctx) (n : Nat) (v : GVal) : (c.setG n v).inTrap = c.inTrap := by unfold Ctx.setG; split <;> rfl
@[simp] theorem setG_gang (c : Ctx) (n : Nat) (v : GVal) : (c.setG n v).gang = c.gang := by unfold Ctx.setG; split <;> rfl
@[simp] theorem setG_handler (c : Ctx) (n : Nat) (v : GVal) : (c.setG n v).handler = c.handler := by unfold Ctx.setG; split <;> rfl
@[simp] theorem setG_pipe (c : Ctx) (n : Nat) (v : GVal) : (c.setG n v).pipe = c.pipe := by unfold Ctx.setG; split <;> rfl
@[simp] theorem setG_cause (c : Ctx) (n : Nat) (v : GVal) : (c.setG n v).cause = c.cause := by unfold Ctx.setG; split <;> rfl
@[simp] theorem setG_adopted (c : Ctx) (n : Nat) (v : GVal) : (c.setG n v).adopted = c.adopted := by unfold Ctx.setG; split <;> rfl
@[simp] theorem setG_epc (c : Ctx) (n : Nat) (v : GVal) : (c.setG n v).epc = c.epc := by unfold Ctx.setG; split <;> rfl
@[simp] theorem setG_tval (c : Ctx) (n : Nat) (v : GVal) : (c.setG n v).tval = c.tval := by unfold Ctx.setG; split <;> rfl
@[simp] theorem setG_trapvec (c : Ctx) (n : Nat) (v : GVal) : (c.setG n v).trapvec = c.trapvec := by unfold Ctx.setG; split <;> rfl
@[simp] theorem setG_timeout (c : Ctx) (n : Nat) (v : GVal) : (c.setG n v).timeout = c.timeout := by unfold Ctx.setG; split <;> rfl
@[simp] theorem setG_retry (c : Ctx) (n : Nat) (v : GVal) : (c.setG n v).retry = c.retry := by unfold Ctx.setG; split <;> rfl
@[simp] theorem setG_adoptOff (c : Ctx) (n : Nat) (v : GVal) : (c.setG n v).adoptOff = c.adoptOff := by unfold Ctx.setG; split <;> rfl
@[simp] theorem setG_depth (c : Ctx) (n : Nat) (v : GVal) : (c.setG n v).depth = c.depth := by unfold Ctx.setG; split <;> rfl
@[simp] theorem setG_limit (c : Ctx) (n : Nat) (v : GVal) : (c.setG n v).limit = c.limit := by unfold Ctx.setG; split <;> rfl
@[simp] theorem setG_adoptsp (c : Ctx) (n : Nat) (v : GVal) : (c.setG n v).adoptsp = c.adoptsp := by unfold Ctx.setG; split <;> rfl
@[simp] theorem setG_round (c : Ctx) (n : Nat) (v : GVal) : (c.setG n v).round = c.round := by unfold Ctx.setG; split <;> rfl
@[simp] theorem setG_tenant (c : Ctx) (n : Nat) (v : GVal) : (c.setG n v).tenant = c.tenant := by unfold Ctx.setG; split <;> rfl
@[simp] theorem setG_stage (c : Ctx) (n : Nat) (v : GVal) : (c.setG n v).stage = c.stage := by unfold Ctx.setG; split <;> rfl
@[simp] theorem setG_abind (c : Ctx) (n : Nat) (v : GVal) : (c.setG n v).abind = c.abind := by unfold Ctx.setG; split <;> rfl
@[simp] theorem setG_msgvec (c : Ctx) (n : Nat) (v : GVal) : (c.setG n v).msgvec = c.msgvec := by unfold Ctx.setG; split <;> rfl
@[simp] theorem setG_scratch0 (c : Ctx) (n : Nat) (v : GVal) : (c.setG n v).scratch0 = c.scratch0 := by unfold Ctx.setG; split <;> rfl
@[simp] theorem setG_scratch1 (c : Ctx) (n : Nat) (v : GVal) : (c.setG n v).scratch1 = c.scratch1 := by unfold Ctx.setG; split <;> rfl
@[simp] theorem setG_latch (c : Ctx) (n : Nat) (v : GVal) : (c.setG n v).latch = c.latch := by unfold Ctx.setG; split <;> rfl
@[simp] theorem setG_deferred (c : Ctx) (n : Nat) (v : GVal) : (c.setG n v).deferred = c.deferred := by unfold Ctx.setG; split <;> rfl
@[simp] theorem setG_borrowed (c : Ctx) (n : Nat) (v : GVal) : (c.setG n v).borrowed = c.borrowed := by unfold Ctx.setG; split <;> rfl
@[simp] theorem setG_aside (c : Ctx) (n : Nat) (v : GVal) : (c.setG n v).aside = c.aside := by unfold Ctx.setG; split <;> rfl
@[simp] theorem setG_frames (c : Ctx) (n : Nat) (v : GVal) : (c.setG n v).frames = c.frames := by unfold Ctx.setG; split <;> rfl
@[simp] theorem setG_lastIssue (c : Ctx) (n : Nat) (v : GVal) : (c.setG n v).lastIssue = c.lastIssue := by unfold Ctx.setG; split <;> rfl
@[simp] theorem setG_obj (c : Ctx) (n : Nat) (v : GVal) : (c.setG n v).obj = c.obj := by unfold Ctx.setG; split <;> rfl
@[simp] theorem setG_stages (c : Ctx) (n : Nat) (v : GVal) : (c.setG n v).stages = c.stages := by unfold Ctx.setG; split <;> rfl
@[simp] theorem setG_qdown (c : Ctx) (n : Nat) (v : GVal) : (c.setG n v).qdown = c.qdown := by unfold Ctx.setG; split <;> rfl
@[simp] theorem setG_qup (c : Ctx) (n : Nat) (v : GVal) : (c.setG n v).qup = c.qup := by unfold Ctx.setG; split <;> rfl
@[simp] theorem setG_arrived (c : Ctx) (n : Nat) (v : GVal) : (c.setG n v).arrived = c.arrived := by unfold Ctx.setG; split <;> rfl
@[simp] theorem setG_lastStatus (c : Ctx) (n : Nat) (v : GVal) : (c.setG n v).lastStatus = c.lastStatus := by unfold Ctx.setG; split <;> rfl
@[simp] theorem setG_launch (c : Ctx) (n : Nat) (v : GVal) : (c.setG n v).launch = c.launch := by unfold Ctx.setG; split <;> rfl
@[simp] theorem setG_wait (c : Ctx) (n : Nat) (v : GVal) : (c.setG n v).wait = c.wait := by unfold Ctx.setG; split <;> rfl
@[simp] theorem setG_parkedAt (c : Ctx) (n : Nat) (v : GVal) : (c.setG n v).parkedAt = c.parkedAt := by unfold Ctx.setG; split <;> rfl
@[simp] theorem setG_yield_ (c : Ctx) (n : Nat) (v : GVal) : (c.setG n v).yield_ = c.yield_ := by unfold Ctx.setG; split <;> rfl
@[simp] theorem setG_seen (c : Ctx) (n : Nat) (v : GVal) : (c.setG n v).seen = c.seen := by unfold Ctx.setG; split <;> rfl
@[simp] theorem setG_walked (c : Ctx) (n : Nat) (v : GVal) : (c.setG n v).walked = c.walked := by unfold Ctx.setG; split <;> rfl
@[simp] theorem setG_lastTurn (c : Ctx) (n : Nat) (v : GVal) : (c.setG n v).lastTurn = c.lastTurn := by unfold Ctx.setG; split <;> rfl
@[simp] theorem setG_hold (c : Ctx) (n : Nat) (v : GVal) : (c.setG n v).hold = c.hold := by unfold Ctx.setG; split <;> rfl
@[simp] theorem setG_handledBy (c : Ctx) (n : Nat) (v : GVal) : (c.setG n v).handledBy = c.handledBy := by unfold Ctx.setG; split <;> rfl
@[simp] theorem setG_handling (c : Ctx) (n : Nat) (v : GVal) : (c.setG n v).handling = c.handling := by unfold Ctx.setG; split <;> rfl
@[simp] theorem setG_faulted (c : Ctx) (n : Nat) (v : GVal) : (c.setG n v).faulted = c.faulted := by unfold Ctx.setG; split <;> rfl
@[simp] theorem setG_after (c : Ctx) (n : Nat) (v : GVal) : (c.setG n v).after = c.after := by unfold Ctx.setG; split <;> rfl
@[simp] theorem setG_rewalk (c : Ctx) (n : Nat) (v : GVal) : (c.setG n v).rewalk = c.rewalk := by unfold Ctx.setG; split <;> rfl
@[simp] theorem setG_again (c : Ctx) (n : Nat) (v : GVal) : (c.setG n v).again = c.again := by unfold Ctx.setG; split <;> rfl
@[simp] theorem setG_plainWait (c : Ctx) (n : Nat) (v : GVal) : (c.setG n v).plainWait = c.plainWait := by unfold Ctx.setG; split <;> rfl
@[simp] theorem setG_barWait (c : Ctx) (n : Nat) (v : GVal) : (c.setG n v).barWait = c.barWait := by unfold Ctx.setG; split <;> rfl
@[simp] theorem setG_own (c : Ctx) (n : Nat) (v : GVal) : (c.setG n v).own = c.own := by unfold Ctx.setG; split <;> rfl
@[simp] theorem setG_fenced (c : Ctx) (n : Nat) (v : GVal) : (c.setG n v).fenced = c.fenced := by unfold Ctx.setG; split <;> rfl

end Sys2Proof.Laws
end

