-- ==== Sys2Proof/Laws/Banks.lean ====
section
/-! SUPPORT. The operations of the home banks keep memory and its tags in canonical form. -/

namespace Sys2Proof.Laws

open Sys2Proof Sys2Proof.Machine

/-- The form rests on the bytes and the tags alone. -/
theorem memoryOk_congr {s t : State} (hm : t.mem = s.mem) (ht : t.tags = s.tags) : t.memoryOk = s.memoryOk := by
  simp only [State.memoryOk, hm, ht]

theorem memoryOk_iff {s : State} : s.memoryOk = true ↔ Memory.wf s.mem = true ∧ Map.wf (fun _ => ({} : Tag)) s.tags = true := by
  simp [State.memoryOk]

theorem memoryOk_reset : State.reset.memoryOk = true := rfl

theorem memoryOk_poke {s : State} (d width v : Nat) (h : s.memoryOk = true) : (s.poke d width v).memoryOk = true := by
  rw [memoryOk_iff] at h ⊢
  exact ⟨wf_poke d width v h.1, by rw [poke_tags]; exact h.2⟩

theorem memoryOk_setTagAt {s : State} (d : Nat) (t : Tag) (h : s.memoryOk = true) : (s.setTagAt d t).memoryOk = true := by
  rw [memoryOk_iff] at h ⊢
  exact ⟨h.1, wf_setTagAt d t h.2⟩

theorem memoryOk_setTag {s : State} (d : Nat) (f : Tag → Tag) (h : s.memoryOk = true) : (s.setTag d f).memoryOk = true :=
  memoryOk_setTagAt d _ h

theorem memoryOk_poisonWords {s : State} (line : Nat) (h : s.memoryOk = true) : ∀ n, (s.poisonWords line n).memoryOk = true
  | 0 => h
  | n + 1 => memoryOk_setTag _ _ (memoryOk_poisonWords line h n)

@[simp] theorem memoryOk_post (s : State) (r : RecordSpec) : (s.post r).memoryOk = s.memoryOk := rfl
theorem memoryOk_answerWait (s : State) (w : Wait) (a : Answer) : (s.answerWait w a).memoryOk = s.memoryOk := by
  unfold State.answerWait; extract_lets s'; split <;> rfl
@[simp] theorem memoryOk_answer (s : State) (r : Req) (a : Answer) : (s.answer r a).memoryOk = s.memoryOk := rfl
@[simp] theorem memoryOk_watchMsg (s : State) (w : Watch) (ev : Nat) (v : GVal) : (s.watchMsg w ev v).memoryOk = s.memoryOk := rfl
@[simp] theorem memoryOk_unstall (s : State) : s.unstall.memoryOk = s.memoryOk := rfl
@[simp] theorem memoryOk_bumpFree (s : State) : s.bumpFree.memoryOk = s.memoryOk := rfl
@[simp] theorem memoryOk_bumpId (s : State) : s.bumpId.memoryOk = s.memoryOk := rfl
@[simp] theorem memoryOk_setCtxAt (s : State) (id : Nat) (c : Ctx) : (s.setCtxAt id c).memoryOk = s.memoryOk := rfl
@[simp] theorem memoryOk_setTileAt (s : State) (n : Nat) (t : Tile) : (s.setTileAt n t).memoryOk = s.memoryOk := rfl
@[simp] theorem memoryOk_setMe (s : State) (c : Ctx) : (s.setMe c).memoryOk = s.memoryOk := rfl
@[simp] theorem memoryOk_trapAt (s : State) (id cause : Nat) (tval : Word) : (s.trapAt id cause tval).memoryOk = s.memoryOk := rfl

theorem memoryOk_stampEpoch (s : State) (d : Nat) : (s.stampEpoch d).memoryOk = s.memoryOk := by
  unfold State.stampEpoch; split <;> rfl

@[simp] theorem memoryOk_keyLine (s : State) (line owner : Nat) : (s.keyLine line owner).memoryOk = s.memoryOk :=
  memoryOk_congr (t := { s with lineKeys := _ }) rfl rfl
@[simp] theorem memoryOk_setCtr (s : State) (tile key : Nat) (v : Option Bool) : (s.setCtr tile key v).memoryOk = s.memoryOk := rfl

theorem memoryOk_wakePoisoned (q : Quarantine) (ws : List Wait) : ∀ s : State, (s.wakePoisoned q ws).memoryOk = s.memoryOk := by
  induction ws with
  | nil => exact fun _ => rfl
  | cons w ws ih =>
    intro s
    rw [State.wakePoisoned]
    split
    · exact (ih _).trans (memoryOk_answerWait _ _ _)
    · exact ih _

theorem memoryOk_fetchCtr (s : State) (tile bank lvl idx : Nat) : (s.fetchCtr tile bank lvl idx).memoryOk = s.memoryOk := by
  have hf : ∀ (ls : List Nat) (s : State), (ls.foldl (fun (s : State) l =>
      s.setCtr tile (ctrKey bank l (idx / 8 ^ (l - lvl))) (some false)) s).memoryOk = s.memoryOk := by
    intro ls
    induction ls with
    | nil => exact fun _ => rfl
    | cons x ls ih => intro s; rw [List.foldl_cons, ih]; rfl
  unfold State.fetchCtr
  simp only
  split
  · exact hf _ s
  · rw [memoryOk_wakePoisoned]
    exact hf _ s

theorem memoryOk_writeBack (s : State) (tile key : Nat) : (s.writeBack tile key).memoryOk = s.memoryOk := by
  unfold State.writeBack
  simp only
  split
  · rfl
  · rw [memoryOk_setCtr, memoryOk_fetchCtr]

theorem memoryOk_trimCtr (tile : Nat) : ∀ (n : Nat) (s : State), (s.trimCtr tile n).memoryOk = s.memoryOk
  | 0, _ => rfl
  | n + 1, s => by
    rw [State.trimCtr]
    simp only
    split
    · rfl
    · rw [memoryOk_trimCtr tile n]
      split
      · rw [memoryOk_writeBack]; rfl
      · rfl

@[simp] theorem memoryOk_dirtyCtr (s : State) (d : Nat) : (s.dirtyCtr d).memoryOk = s.memoryOk := by
  rw [State.dirtyCtr, memoryOk_trimCtr, memoryOk_setCtr, memoryOk_fetchCtr]

theorem memoryOk_seal {s : State} (d : Nat) (h : s.memoryOk = true) : (s.seal d).memoryOk = true := by
  unfold State.seal
  split
  · exact h
  · have h' : (s.stampEpoch d).memoryOk = true := by rw [memoryOk_stampEpoch]; exact h
    simp only
    split
    · rw [memoryOk_post]; exact memoryOk_poisonWords _ h' 8
    · split
      · rw [memoryOk_post, memoryOk_dirtyCtr]; exact h'
      · rw [memoryOk_dirtyCtr]; exact h'

theorem memoryOk_notify (s : State) (d ev : Nat) : (s.notify d ev).memoryOk = s.memoryOk := by
  unfold State.notify
  split
  · split <;> rfl
  · rfl

theorem memoryOk_crossBond {s : State} (d : Nat) (h : s.memoryOk = true) : (s.crossBond d).memoryOk = true := by
  unfold State.crossBond
  split
  · exact h
  · simp only
    rw [memoryOk_post, memoryOk_bumpFree]
    refine memoryOk_setTag _ _ ?_
    rw [memoryOk_bumpFree]
    exact memoryOk_poke (s := { s with badBonds := _ }) _ _ _ h

theorem memoryOk_wroteEvent {s : State} (d : Nat) (h : s.memoryOk = true) : (s.wroteEvent d).memoryOk = true := by
  rw [State.wroteEvent, memoryOk_notify]; exact memoryOk_crossBond d (memoryOk_seal d h)

theorem memoryOk_fillEvent {s : State} (d : Nat) (h : s.memoryOk = true) : (s.fillEvent d).memoryOk = true := by
  rw [State.fillEvent, memoryOk_notify]; exact memoryOk_crossBond d (memoryOk_seal d (memoryOk_setTag d _ h))

theorem memoryOk_emptyEvent {s : State} (d : Nat) (h : s.memoryOk = true) : (s.emptyEvent d).memoryOk = true := by
  rw [State.emptyEvent, memoryOk_notify]; exact memoryOk_seal d (memoryOk_setTag d _ h)

theorem memoryOk_putValue {s : State} (d width : Nat) (v : GVal) (h : s.memoryOk = true) : (s.putValue d width v).memoryOk = true :=
  memoryOk_setTag _ _ (memoryOk_poke _ _ _ h)

theorem memoryOk_wakeOne {s t : State} {d : Nat} (h : s.memoryOk = true) (ht : s.wakeOne d = some t) : t.memoryOk = true := by
  unfold State.wakeOne at ht
  simp only at ht
  split at ht
  · split at ht
    · simp only [reduceCtorEq] at ht
    · simp only [Option.some.injEq] at ht
      subst ht
      have h' := (memoryOk_answerWait s ‹Wait› (.value (s.gval d))).trans h
      split
      · exact memoryOk_emptyEvent d h'
      · exact h'
  · split at ht
    · simp only [reduceCtorEq] at ht
    · simp only [Option.some.injEq] at ht
      subst ht
      rw [memoryOk_answerWait]
      exact memoryOk_fillEvent d (memoryOk_putValue d 8 _ h)

theorem memoryOk_wake {s : State} (d : Nat) (h : s.memoryOk = true) : (s.wake d).memoryOk = true := by
  unfold State.wake; split <;> exact h

theorem memoryOk_wakeNext {s : State} (d : Nat) (h : s.memoryOk = true) : (s.wakeNext d).memoryOk = true := by
  have hs : ∀ l, ({ s with waking := l } : State).memoryOk = true := fun _ => h
  unfold State.wakeNext
  simp only
  generalize s.waking.erase d = l
  cases ht : ({ s with waking := l } : State).wakeOne d with
  | none => exact hs l
  | some t => exact memoryOk_wake d (memoryOk_wakeOne (hs l) ht)

/-- A cycle of the banks' cascades keeps the form. -/
theorem memoryOk_wakeCycle {s : State} (h : s.memoryOk = true) : s.wakeCycle.memoryOk = true := by
  have hf : ∀ (ds : List Nat) (s : State), s.memoryOk = true → (ds.foldl (fun (s : State) d => s.wakeNext d) s).memoryOk = true := by
    intro ds
    induction ds with
    | nil => exact fun _ h => h
    | cons d ds ih => exact fun s h => ih _ (memoryOk_wakeNext d h)
  unfold State.wakeCycle
  split
  · exact h
  · rw [memoryOk_unstall]; exact hf _ s h

theorem memoryOk_putFull {s : State} (d width : Nat) (v : GVal) (h : s.memoryOk = true) : (s.putFull d width v).memoryOk = true := by
  unfold State.putFull
  simp only
  split
  · exact memoryOk_wroteEvent d (memoryOk_putValue d width v h)
  · exact memoryOk_wake d (memoryOk_fillEvent d (memoryOk_putValue d width v h))

theorem memoryOk_setFull {s : State} (d : Nat) (h : s.memoryOk = true) : (s.setFull d).memoryOk = true := by
  unfold State.setFull
  split
  · exact memoryOk_wroteEvent d h
  · exact memoryOk_wake d (memoryOk_fillEvent d h)

theorem memoryOk_setEmpty {s : State} (d : Nat) (h : s.memoryOk = true) : (s.setEmpty d).memoryOk = true := by
  unfold State.setEmpty
  split
  · exact memoryOk_wake d (memoryOk_emptyEvent d h)
  · exact memoryOk_wroteEvent d h

theorem memoryOk_emptied {s : State} (d : Nat) (h : s.memoryOk = true) : (s.emptied d).memoryOk = true := by
  unfold State.emptied
  split
  · exact memoryOk_wake d (memoryOk_emptyEvent d h)
  · exact h

theorem memoryOk_putBytes {s : State} (d n : Nat) (v : GVal) (h : s.memoryOk = true) : (s.putBytes d n v).memoryOk = true :=
  memoryOk_setTag _ _ (memoryOk_poke _ _ _ h)

theorem memoryOk_spoilWord {s : State} (d : Nat) (h : s.memoryOk = true) : (s.spoilWord d).memoryOk = true := by
  have hw : ((s.poke d 8 (Sys2Proof.Config.freeWord s.free).toNat).bumpFree.setTag d (fun t => { t with poison := true })).memoryOk = true :=
    memoryOk_setTag _ _ (by rw [memoryOk_bumpFree]; exact memoryOk_poke _ _ _ h)
  unfold State.spoilWord
  simp only
  split
  · exact hw
  · exact memoryOk_wake _ (memoryOk_fillEvent _ hw)

theorem memoryOk_spoilWords {s : State} (line : Nat) (h : s.memoryOk = true) : ∀ n, (s.spoilWords line n).memoryOk = true
  | 0 => h
  | n + 1 => memoryOk_spoilWord _ (memoryOk_spoilWords line h n)

theorem memoryOk_spoilLine {s : State} (line : Nat) (mac : Bool) (tenant part : Nat) (ptr : Word) (h : s.memoryOk = true) :
    (s.spoilLine line mac tenant part ptr).memoryOk = true := by
  unfold State.spoilLine
  simp only
  split
  · exact h
  · have hw := memoryOk_seal line (memoryOk_spoilWords (s := { s with badLines := s.badLines.filter (fun b => b.1 != line) }) line h 8)
    rw [memoryOk_post]
    split
    · exact hw
    · exact hw

theorem memoryOk_openPath (s : State) (d : Nat) : (s.openPath d).memoryOk = s.memoryOk := by
  rw [State.openPath, memoryOk_trimCtr, memoryOk_fetchCtr]

theorem memoryOk_openBond {s : State} (r : Req) (h : s.memoryOk = true) : (s.openBond r).memoryOk = true := by
  unfold State.openBond
  simp only
  split
  · split
    · rw [memoryOk_post, memoryOk_bumpFree]
      exact memoryOk_spoilWord (s := { s with badBonds := _ }) _ h
    · split <;> exact h
  · exact h

theorem memoryOk_openVault {s : State} (r : Req) (h : s.memoryOk = true) : (s.openVault r).memoryOk = true := by
  unfold State.openVault
  simp only
  split
  · rw [memoryOk_keyLine]; exact h
  · split
    · rw [memoryOk_keyLine]; exact memoryOk_spoilLine _ _ _ _ _ h
    · split
      · rw [memoryOk_keyLine]; exact h
      · split
        · exact h
        · rw [memoryOk_keyLine]; exact memoryOk_spoilLine _ _ _ _ _ h

theorem memoryOk_openLine {s : State} (r : Req) (h : s.memoryOk = true) : (s.openLine r).memoryOk = true := by
  unfold State.openLine
  split
  · exact h
  · split
    · exact memoryOk_openBond r h
    · have h1 : (s.openPath r.dpa).memoryOk = true := by rw [memoryOk_openPath]; exact h
      simp only
      split
      · exact h1
      · exact memoryOk_openVault r h1

@[simp] theorem memoryOk_sendMark (s : State) (id : Nat) (parked : Option (Nat × Nat × Bool × Nat)) :
    (s.sendMark id parked).memoryOk = s.memoryOk := by
  unfold State.sendMark
  simp only
  split <;> rfl

theorem memoryOk_park (s : State) (r : Req) : (s.park r).memoryOk = s.memoryOk := by
  unfold State.park
  split
  · rfl
  · simp only
    split
    · rw [memoryOk_sendMark]; rfl
    · rfl

/-- A performed reference keeps the form if what its kind does keeps it. -/
theorem memoryOk_arrive {s t : State} {k : Nat} {p : MemOp → Bool} {f : State → Req → State}
    (hf : ∀ u r, u.memoryOk = true → (f u r).memoryOk = true) (h : s.memoryOk = true) (ht : s.arrive k p f = .next t) :
    t.memoryOk = true := by
  unfold State.arrive at ht
  split at ht
  · simp only [Host.Outcome.next.injEq] at ht
    exact ht ▸ h
  · split at ht
    · split at ht
      · simp only [Host.Outcome.next.injEq] at ht
        subst ht
        exact h
      · split at ht
        · simp only [reduceCtorEq] at ht
        · rename_i r _ _ _ _
          simp only [Host.Outcome.next.injEq] at ht
          subst ht
          rw [memoryOk_unstall]
          split
          · exact h
          · have h1 := memoryOk_openLine
              (s := { s with net := s.net.eraseIdx k }.noteServed r.dpa r.rank) r h
            split
            · exact h1
            · exact hf _ _ h1
    · simp only [Host.Outcome.next.injEq] at ht
      exact ht ▸ h

end Sys2Proof.Laws
end

