-- ==== Sys2Proof/Laws/Exec.lean ====
section
/-! SUPPORT. What `exec` answers for each constructor: the meaning that its arm calls, so that no proof unfolds the whole match. -/

namespace Sys2Proof.Laws

open Sys2Proof Sys2Proof.Machine

theorem exec_mvN (x : BitVec 5) (y : BitVec 5) (s : State) : exec (.mvN x y) s = execMvN x y s := rfl
theorem exec_liN (x : BitVec 5) (imm : BitVec 5) (s : State) : exec (.liN x imm) s = execLiN x imm s := rfl
theorem exec_addN (x : BitVec 5) (y : BitVec 5) (s : State) : exec (.addN x y) s = execAddN x y s := rfl
theorem exec_addiN (x : BitVec 5) (imm : BitVec 5) (s : State) : exec (.addiN x imm) s = execAddiN x imm s := rfl
theorem exec_subN (x : BitVec 5) (y : BitVec 5) (s : State) : exec (.subN x y) s = execSubN x y s := rfl
theorem exec_shliN (x : BitVec 5) (imm : BitVec 5) (s : State) : exec (.shliN x imm) s = execShliN x imm s := rfl
theorem exec_andN (x : BitVec 5) (y : BitVec 5) (s : State) : exec (.andN x y) s = execAndN x y s := rfl
theorem exec_shriN (x : BitVec 5) (imm : BitVec 5) (s : State) : exec (.shriN x imm) s = execShriN x imm s := rfl
theorem exec_orN (x : BitVec 5) (y : BitVec 5) (s : State) : exec (.orN x y) s = execOrN x y s := rfl
theorem exec_sraiN (x : BitVec 5) (imm : BitVec 5) (s : State) : exec (.sraiN x imm) s = execSraiN x imm s := rfl
theorem exec_xorN (x : BitVec 5) (y : BitVec 5) (s : State) : exec (.xorN x y) s = execXorN x y s := rfl
theorem exec_andiN (x : BitVec 5) (imm : BitVec 5) (s : State) : exec (.andiN x imm) s = execAndiN x imm s := rfl
theorem exec_ldN (x : BitVec 5) (y : BitVec 5) (s : State) : exec (.ldN x y) s = execLdN x y s := rfl
theorem exec_ldspN (x : BitVec 5) (imm : BitVec 5) (s : State) : exec (.ldspN x imm) s = execLdspN x imm s := rfl
theorem exec_stN (x : BitVec 5) (y : BitVec 5) (s : State) : exec (.stN x y) s = execStN x y s := rfl
theorem exec_stspN (x : BitVec 5) (imm : BitVec 5) (s : State) : exec (.stspN x imm) s = execStspN x imm s := rfl
theorem exec_beqzN (x : BitVec 5) (off : BitVec 6) (s : State) : exec (.beqzN x off) s = execBeqzN x off s := rfl
theorem exec_bnezN (x : BitVec 5) (off : BitVec 6) (s : State) : exec (.bnezN x off) s = execBnezN x off s := rfl
theorem exec_jN (off : BitVec 11) (s : State) : exec (.jN off) s = execJN off s := rfl
theorem exec_jrN (x : BitVec 5) (s : State) : exec (.jrN x) s = execJrN x s := rfl
theorem exec_callrN (x : BitVec 5) (s : State) : exec (.callrN x) s = execCallrN x s := rfl
theorem exec_retN (s : State) : exec (.retN) s = execRetN s := rfl
theorem exec_nopN (s : State) : exec (.nopN) s = execNopN s := rfl
theorem exec_addspN (imm : BitVec 10) (s : State) : exec (.addspN imm) s = execAddspN imm s := rfl
theorem exec_add (d : BitVec 5) (a : BitVec 5) (b : BitVec 5) (s : State) : exec (.add d a b) s = execAdd d a b s := rfl
theorem exec_sub (d : BitVec 5) (a : BitVec 5) (b : BitVec 5) (s : State) : exec (.sub d a b) s = execSub d a b s := rfl
theorem exec_and (d : BitVec 5) (a : BitVec 5) (b : BitVec 5) (s : State) : exec (.and d a b) s = execAnd d a b s := rfl
theorem exec_or (d : BitVec 5) (a : BitVec 5) (b : BitVec 5) (s : State) : exec (.or d a b) s = execOr d a b s := rfl
theorem exec_xor (d : BitVec 5) (a : BitVec 5) (b : BitVec 5) (s : State) : exec (.xor d a b) s = execXor d a b s := rfl
theorem exec_andn (d : BitVec 5) (a : BitVec 5) (b : BitVec 5) (s : State) : exec (.andn d a b) s = execAndn d a b s := rfl
theorem exec_shl (d : BitVec 5) (a : BitVec 5) (b : BitVec 5) (s : State) : exec (.shl d a b) s = execShl d a b s := rfl
theorem exec_shr (d : BitVec 5) (a : BitVec 5) (b : BitVec 5) (s : State) : exec (.shr d a b) s = execShr d a b s := rfl
theorem exec_sra (d : BitVec 5) (a : BitVec 5) (b : BitVec 5) (s : State) : exec (.sra d a b) s = execSra d a b s := rfl
theorem exec_mul (d : BitVec 5) (a : BitVec 5) (b : BitVec 5) (s : State) : exec (.mul d a b) s = execMul d a b s := rfl
theorem exec_mulh (d : BitVec 5) (a : BitVec 5) (b : BitVec 5) (s : State) : exec (.mulh d a b) s = execMulh d a b s := rfl
theorem exec_mulhu (d : BitVec 5) (a : BitVec 5) (b : BitVec 5) (s : State) : exec (.mulhu d a b) s = execMulhu d a b s := rfl
theorem exec_div (d : BitVec 5) (a : BitVec 5) (b : BitVec 5) (s : State) : exec (.div d a b) s = execDiv d a b s := rfl
theorem exec_divu (d : BitVec 5) (a : BitVec 5) (b : BitVec 5) (s : State) : exec (.divu d a b) s = execDivu d a b s := rfl
theorem exec_rem (d : BitVec 5) (a : BitVec 5) (b : BitVec 5) (s : State) : exec (.rem d a b) s = execRem d a b s := rfl
theorem exec_remu (d : BitVec 5) (a : BitVec 5) (b : BitVec 5) (s : State) : exec (.remu d a b) s = execRemu d a b s := rfl
theorem exec_slt (d : BitVec 5) (a : BitVec 5) (b : BitVec 5) (s : State) : exec (.slt d a b) s = execSlt d a b s := rfl
theorem exec_sltu (d : BitVec 5) (a : BitVec 5) (b : BitVec 5) (s : State) : exec (.sltu d a b) s = execSltu d a b s := rfl
theorem exec_min (d : BitVec 5) (a : BitVec 5) (b : BitVec 5) (s : State) : exec (.min d a b) s = execMin d a b s := rfl
theorem exec_max (d : BitVec 5) (a : BitVec 5) (b : BitVec 5) (s : State) : exec (.max d a b) s = execMax d a b s := rfl
theorem exec_clz (d : BitVec 5) (a : BitVec 5) (s : State) : exec (.clz d a) s = execClz d a s := rfl
theorem exec_popc (d : BitVec 5) (a : BitVec 5) (s : State) : exec (.popc d a) s = execPopc d a s := rfl
theorem exec_addi (d : BitVec 5) (a : BitVec 5) (imm : BitVec 11) (s : State) : exec (.addi d a imm) s = execAddi d a imm s := rfl
theorem exec_andi (d : BitVec 5) (a : BitVec 5) (imm : BitVec 11) (s : State) : exec (.andi d a imm) s = execAndi d a imm s := rfl
theorem exec_ori (d : BitVec 5) (a : BitVec 5) (imm : BitVec 11) (s : State) : exec (.ori d a imm) s = execOri d a imm s := rfl
theorem exec_xori (d : BitVec 5) (a : BitVec 5) (imm : BitVec 11) (s : State) : exec (.xori d a imm) s = execXori d a imm s := rfl
theorem exec_slti (d : BitVec 5) (a : BitVec 5) (imm : BitVec 11) (s : State) : exec (.slti d a imm) s = execSlti d a imm s := rfl
theorem exec_sltui (d : BitVec 5) (a : BitVec 5) (imm : BitVec 11) (s : State) : exec (.sltui d a imm) s = execSltui d a imm s := rfl
theorem exec_shli (d : BitVec 5) (a : BitVec 5) (imm : BitVec 11) (s : State) : exec (.shli d a imm) s = execShli d a imm s := rfl
theorem exec_shri (d : BitVec 5) (a : BitVec 5) (imm : BitVec 11) (s : State) : exec (.shri d a imm) s = execShri d a imm s := rfl
theorem exec_srai (d : BitVec 5) (a : BitVec 5) (imm : BitVec 11) (s : State) : exec (.srai d a imm) s = execSrai d a imm s := rfl
theorem exec_addFp32 (d : BitVec 5) (a : BitVec 5) (b : BitVec 5) (s : State) : exec (.addFp32 d a b) s = execAddFp32 d a b s := rfl
theorem exec_subFp32 (d : BitVec 5) (a : BitVec 5) (b : BitVec 5) (s : State) : exec (.subFp32 d a b) s = execSubFp32 d a b s := rfl
theorem exec_mulFp32 (d : BitVec 5) (a : BitVec 5) (b : BitVec 5) (s : State) : exec (.mulFp32 d a b) s = execMulFp32 d a b s := rfl
theorem exec_divFp32 (d : BitVec 5) (a : BitVec 5) (b : BitVec 5) (s : State) : exec (.divFp32 d a b) s = execDivFp32 d a b s := rfl
theorem exec_sqrtFp32 (d : BitVec 5) (a : BitVec 5) (s : State) : exec (.sqrtFp32 d a) s = execSqrtFp32 d a s := rfl
theorem exec_minFp32 (d : BitVec 5) (a : BitVec 5) (b : BitVec 5) (s : State) : exec (.minFp32 d a b) s = execMinFp32 d a b s := rfl
theorem exec_maxFp32 (d : BitVec 5) (a : BitVec 5) (b : BitVec 5) (s : State) : exec (.maxFp32 d a b) s = execMaxFp32 d a b s := rfl
theorem exec_fmaFp32 (d : BitVec 5) (a : BitVec 5) (b : BitVec 5) (c : BitVec 5) (s : State) : exec (.fmaFp32 d a b c) s = execFmaFp32 d a b c s := rfl
theorem exec_seqFp32 (d : BitVec 5) (a : BitVec 5) (b : BitVec 5) (s : State) : exec (.seqFp32 d a b) s = execSeqFp32 d a b s := rfl
theorem exec_sltFp32 (d : BitVec 5) (a : BitVec 5) (b : BitVec 5) (s : State) : exec (.sltFp32 d a b) s = execSltFp32 d a b s := rfl
theorem exec_cvtI32Fp32 (d : BitVec 5) (a : BitVec 5) (s : State) : exec (.cvtI32Fp32 d a) s = execCvtI32Fp32 d a s := rfl
theorem exec_cvtFp32I32 (d : BitVec 5) (a : BitVec 5) (s : State) : exec (.cvtFp32I32 d a) s = execCvtFp32I32 d a s := rfl
theorem exec_lui (d : BitVec 5) (imm : BitVec 20) (s : State) : exec (.lui d imm) s = execLui d imm s := rfl
theorem exec_lpc (d : BitVec 5) (imm : BitVec 20) (s : State) : exec (.lpc d imm) s = execLpc d imm s := rfl
theorem exec_pmk (d : BitVec 5) (a : BitVec 5) (b : BitVec 5) (s : State) : exec (.pmk d a b) s = execPmk d a b s := rfl
theorem exec_pidx (d : BitVec 5) (a : BitVec 5) (s : State) : exec (.pidx d a) s = execPidx d a s := rfl
theorem exec_poff (d : BitVec 5) (a : BitVec 5) (s : State) : exec (.poff d a) s = execPoff d a s := rfl
theorem exec_padd (d : BitVec 5) (a : BitVec 5) (b : BitVec 5) (s : State) : exec (.padd d a b) s = execPadd d a b s := rfl
theorem exec_bfx (d : BitVec 5) (a : BitVec 5) (b : BitVec 5) (imm : BitVec 6) (s : State) : exec (.bfx d a b imm) s = execBfx d a b imm s := rfl
theorem exec_bfxu (d : BitVec 5) (a : BitVec 5) (b : BitVec 5) (imm : BitVec 6) (s : State) : exec (.bfxu d a b imm) s = execBfxu d a b imm s := rfl
theorem exec_bfi (d : BitVec 5) (a : BitVec 5) (b : BitVec 5) (imm : BitVec 6) (s : State) : exec (.bfi d a b imm) s = execBfi d a b imm s := rfl
theorem exec_brEq (a : BitVec 5) (b : BitVec 5) (off : BitVec 11) (s : State) : exec (.brEq a b off) s = execBrEq a b off s := rfl
theorem exec_brNe (a : BitVec 5) (b : BitVec 5) (off : BitVec 11) (s : State) : exec (.brNe a b off) s = execBrNe a b off s := rfl
theorem exec_brLt (a : BitVec 5) (b : BitVec 5) (off : BitVec 11) (s : State) : exec (.brLt a b off) s = execBrLt a b off s := rfl
theorem exec_brGe (a : BitVec 5) (b : BitVec 5) (off : BitVec 11) (s : State) : exec (.brGe a b off) s = execBrGe a b off s := rfl
theorem exec_brLtu (a : BitVec 5) (b : BitVec 5) (off : BitVec 11) (s : State) : exec (.brLtu a b off) s = execBrLtu a b off s := rfl
theorem exec_brGeu (a : BitVec 5) (b : BitVec 5) (off : BitVec 11) (s : State) : exec (.brGeu a b off) s = execBrGeu a b off s := rfl
theorem exec_brLtz (a : BitVec 5) (off : BitVec 11) (s : State) : exec (.brLtz a off) s = execBrLtz a off s := rfl
theorem exec_brGez (a : BitVec 5) (off : BitVec 11) (s : State) : exec (.brGez a off) s = execBrGez a off s := rfl
theorem exec_jmp (off : BitVec 20) (s : State) : exec (.jmp off) s = execJmp off s := rfl
theorem exec_call (d : BitVec 5) (off : BitVec 20) (s : State) : exec (.call d off) s = execCall d off s := rfl
theorem exec_jr (a : BitVec 5) (imm : BitVec 11) (s : State) : exec (.jr a imm) s = execJr a imm s := rfl
theorem exec_callr (d : BitVec 5) (a : BitVec 5) (imm : BitVec 11) (s : State) : exec (.callr d a imm) s = execCallr d a imm s := rfl
theorem exec_ret (s : State) : exec (.ret) s = execRet s := rfl
theorem exec_loop (a : BitVec 5) (off : BitVec 11) (s : State) : exec (.loop a off) s = execLoop a off s := rfl
theorem exec_ldB (d : BitVec 5) (b : BitVec 5) (off : BitVec 11) (s : State) : exec (.ldB d b off) s = execLdB d b off s := rfl
theorem exec_ldBz (d : BitVec 5) (b : BitVec 5) (off : BitVec 11) (s : State) : exec (.ldBz d b off) s = execLdBz d b off s := rfl
theorem exec_ldH (d : BitVec 5) (b : BitVec 5) (off : BitVec 11) (s : State) : exec (.ldH d b off) s = execLdH d b off s := rfl
theorem exec_ldHz (d : BitVec 5) (b : BitVec 5) (off : BitVec 11) (s : State) : exec (.ldHz d b off) s = execLdHz d b off s := rfl
theorem exec_ldW (d : BitVec 5) (b : BitVec 5) (off : BitVec 11) (s : State) : exec (.ldW d b off) s = execLdW d b off s := rfl
theorem exec_ldWz (d : BitVec 5) (b : BitVec 5) (off : BitVec 11) (s : State) : exec (.ldWz d b off) s = execLdWz d b off s := rfl
theorem exec_ldD (d : BitVec 5) (b : BitVec 5) (off : BitVec 11) (s : State) : exec (.ldD d b off) s = execLdD d b off s := rfl
theorem exec_ldDWf (d : BitVec 5) (b : BitVec 5) (off : BitVec 11) (s : State) : exec (.ldDWf d b off) s = execLdDWf d b off s := rfl
theorem exec_ldDWfc (d : BitVec 5) (b : BitVec 5) (off : BitVec 11) (s : State) : exec (.ldDWfc d b off) s = execLdDWfc d b off s := rfl
theorem exec_ldDWfHelp (d : BitVec 5) (b : BitVec 5) (off : BitVec 11) (s : State) : exec (.ldDWfHelp d b off) s = execLdDWfHelp d b off s := rfl
theorem exec_ldDWfcHelp (d : BitVec 5) (b : BitVec 5) (off : BitVec 11) (s : State) : exec (.ldDWfcHelp d b off) s = execLdDWfcHelp d b off s := rfl
theorem exec_ldDPr (d : BitVec 5) (b : BitVec 5) (off : BitVec 11) (s : State) : exec (.ldDPr d b off) s = execLdDPr d b off s := rfl
theorem exec_stB (d : BitVec 5) (b : BitVec 5) (off : BitVec 11) (s : State) : exec (.stB d b off) s = execStB d b off s := rfl
theorem exec_stH (d : BitVec 5) (b : BitVec 5) (off : BitVec 11) (s : State) : exec (.stH d b off) s = execStH d b off s := rfl
theorem exec_stW (d : BitVec 5) (b : BitVec 5) (off : BitVec 11) (s : State) : exec (.stW d b off) s = execStW d b off s := rfl
theorem exec_stD (d : BitVec 5) (b : BitVec 5) (off : BitVec 11) (s : State) : exec (.stD d b off) s = execStD d b off s := rfl
theorem exec_stDSf (d : BitVec 5) (b : BitVec 5) (off : BitVec 11) (s : State) : exec (.stDSf d b off) s = execStDSf d b off s := rfl
theorem exec_stDWe (d : BitVec 5) (b : BitVec 5) (off : BitVec 11) (s : State) : exec (.stDWe d b off) s = execStDWe d b off s := rfl
theorem exec_ldmD (d : BitVec 5) (a : BitVec 5) (b : BitVec 5) (imm : BitVec 6) (s : State) : exec (.ldmD d a b imm) s = execLdmD d a b imm s := rfl
theorem exec_stmD (d : BitVec 5) (a : BitVec 5) (b : BitVec 5) (imm : BitVec 6) (s : State) : exec (.stmD d a b imm) s = execStmD d a b imm s := rfl
theorem exec_pset (b : BitVec 5) (off : BitVec 11) (s : State) : exec (.pset b off) s = execPset b off s := rfl
theorem exec_pclr (b : BitVec 5) (off : BitVec 11) (s : State) : exec (.pclr b off) s = execPclr b off s := rfl
theorem exec_pget (d : BitVec 5) (b : BitVec 5) (off : BitVec 11) (s : State) : exec (.pget d b off) s = execPget d b off s := rfl
theorem exec_watch (d : BitVec 5) (b : BitVec 5) (off : BitVec 11) (s : State) : exec (.watch d b off) s = execWatch d b off s := rfl
theorem exec_unwatch (b : BitVec 5) (off : BitVec 11) (s : State) : exec (.unwatch b off) s = execUnwatch b off s := rfl
theorem exec_fenceAcqTile (s : State) : exec (.fenceAcqTile) s = execFenceAcqTile s := rfl
theorem exec_fenceAcqTower (s : State) : exec (.fenceAcqTower) s = execFenceAcqTower s := rfl
theorem exec_fenceAcqPkg (s : State) : exec (.fenceAcqPkg) s = execFenceAcqPkg s := rfl
theorem exec_fenceAcqDom (s : State) : exec (.fenceAcqDom) s = execFenceAcqDom s := rfl
theorem exec_fenceAcqWin (s : State) : exec (.fenceAcqWin) s = execFenceAcqWin s := rfl
theorem exec_fenceRelTile (s : State) : exec (.fenceRelTile) s = execFenceRelTile s := rfl
theorem exec_fenceRelTower (s : State) : exec (.fenceRelTower) s = execFenceRelTower s := rfl
theorem exec_fenceRelPkg (s : State) : exec (.fenceRelPkg) s = execFenceRelPkg s := rfl
theorem exec_fenceRelDom (s : State) : exec (.fenceRelDom) s = execFenceRelDom s := rfl
theorem exec_fenceRelWin (s : State) : exec (.fenceRelWin) s = execFenceRelWin s := rfl
theorem exec_fenceFullTile (s : State) : exec (.fenceFullTile) s = execFenceFullTile s := rfl
theorem exec_fenceFullTower (s : State) : exec (.fenceFullTower) s = execFenceFullTower s := rfl
theorem exec_fenceFullPkg (s : State) : exec (.fenceFullPkg) s = execFenceFullPkg s := rfl
theorem exec_fenceFullDom (s : State) : exec (.fenceFullDom) s = execFenceFullDom s := rfl
theorem exec_fenceFullWin (s : State) : exec (.fenceFullWin) s = execFenceFullWin s := rfl
theorem exec_amoAdd (d : BitVec 5) (a : BitVec 5) (b : BitVec 5) (s : State) : exec (.amoAdd d a b) s = execAmoAdd d a b s := rfl
theorem exec_amoAnd (d : BitVec 5) (a : BitVec 5) (b : BitVec 5) (s : State) : exec (.amoAnd d a b) s = execAmoAnd d a b s := rfl
theorem exec_amoOr (d : BitVec 5) (a : BitVec 5) (b : BitVec 5) (s : State) : exec (.amoOr d a b) s = execAmoOr d a b s := rfl
theorem exec_amoXor (d : BitVec 5) (a : BitVec 5) (b : BitVec 5) (s : State) : exec (.amoXor d a b) s = execAmoXor d a b s := rfl
theorem exec_amoMin (d : BitVec 5) (a : BitVec 5) (b : BitVec 5) (s : State) : exec (.amoMin d a b) s = execAmoMin d a b s := rfl
theorem exec_amoMax (d : BitVec 5) (a : BitVec 5) (b : BitVec 5) (s : State) : exec (.amoMax d a b) s = execAmoMax d a b s := rfl
theorem exec_amoSwap (d : BitVec 5) (a : BitVec 5) (b : BitVec 5) (s : State) : exec (.amoSwap d a b) s = execAmoSwap d a b s := rfl
theorem exec_amoCas (d : BitVec 5) (a : BitVec 5) (b : BitVec 5) (c : BitVec 5) (s : State) : exec (.amoCas d a b c) s = execAmoCas d a b c s := rfl
theorem exec_amoAddW (d : BitVec 5) (a : BitVec 5) (b : BitVec 5) (s : State) : exec (.amoAddW d a b) s = execAmoAddW d a b s := rfl
theorem exec_amoAndW (d : BitVec 5) (a : BitVec 5) (b : BitVec 5) (s : State) : exec (.amoAndW d a b) s = execAmoAndW d a b s := rfl
theorem exec_amoOrW (d : BitVec 5) (a : BitVec 5) (b : BitVec 5) (s : State) : exec (.amoOrW d a b) s = execAmoOrW d a b s := rfl
theorem exec_amoXorW (d : BitVec 5) (a : BitVec 5) (b : BitVec 5) (s : State) : exec (.amoXorW d a b) s = execAmoXorW d a b s := rfl
theorem exec_amoMinW (d : BitVec 5) (a : BitVec 5) (b : BitVec 5) (s : State) : exec (.amoMinW d a b) s = execAmoMinW d a b s := rfl
theorem exec_amoMaxW (d : BitVec 5) (a : BitVec 5) (b : BitVec 5) (s : State) : exec (.amoMaxW d a b) s = execAmoMaxW d a b s := rfl
theorem exec_amoSwapW (d : BitVec 5) (a : BitVec 5) (b : BitVec 5) (s : State) : exec (.amoSwapW d a b) s = execAmoSwapW d a b s := rfl
theorem exec_amoCasW (d : BitVec 5) (a : BitVec 5) (b : BitVec 5) (c : BitVec 5) (s : State) : exec (.amoCasW d a b c) s = execAmoCasW d a b c s := rfl
theorem exec_amoAddFp32 (d : BitVec 5) (a : BitVec 5) (b : BitVec 5) (s : State) : exec (.amoAddFp32 d a b) s = execAmoAddFp32 d a b s := rfl
theorem exec_amoMaxFp32 (d : BitVec 5) (a : BitVec 5) (b : BitVec 5) (s : State) : exec (.amoMaxFp32 d a b) s = execAmoMaxFp32 d a b s := rfl
theorem exec_rdxInit (a : BitVec 5) (s : State) : exec (.rdxInit a) s = execRdxInit a s := rfl
theorem exec_rdxAddFp32 (a : BitVec 5) (b : BitVec 5) (s : State) : exec (.rdxAddFp32 a b) s = execRdxAddFp32 a b s := rfl
theorem exec_rdxAddBf16 (a : BitVec 5) (b : BitVec 5) (s : State) : exec (.rdxAddBf16 a b) s = execRdxAddBf16 a b s := rfl
theorem exec_rdxRead (d : BitVec 5) (a : BitVec 5) (s : State) : exec (.rdxRead d a) s = execRdxRead d a s := rfl
theorem exec_spawn (a : BitVec 5) (s : State) : exec (.spawn a) s = execSpawn a s := rfl
theorem exec_spawnT (a : BitVec 5) (b : BitVec 5) (s : State) : exec (.spawnT a b) s = execSpawnT a b s := rfl
theorem exec_tdone (a : BitVec 5) (s : State) : exec (.tdone a) s = execTdone a s := rfl
theorem exec_tyield (s : State) : exec (.tyield) s = execTyield s := rfl
theorem exec_texit (s : State) : exec (.texit) s = execTexit s := rfl
theorem exec_help (a : BitVec 5) (s : State) : exec (.help a) s = execHelp a s := rfl
theorem exec_dqlen (d : BitVec 5) (s : State) : exec (.dqlen d) s = execDqlen d s := rfl
theorem exec_send (d : BitVec 5) (a : BitVec 5) (b : BitVec 5) (c : BitVec 5) (s : State) : exec (.send d a b c) s = execSend d a b c s := rfl
theorem exec_sendMc (d : BitVec 5) (a : BitVec 5) (b : BitVec 5) (c : BitVec 5) (s : State) : exec (.sendMc d a b c) s = execSendMc d a b c s := rfl
theorem exec_sendMb (d : BitVec 5) (a : BitVec 5) (b : BitVec 5) (s : State) : exec (.sendMb d a b) s = execSendMb d a b s := rfl
theorem exec_sendMbF (d : BitVec 5) (a : BitVec 5) (b : BitVec 5) (s : State) : exec (.sendMbF d a b) s = execSendMbF d a b s := rfl
theorem exec_msgret (s : State) : exec (.msgret) s = execMsgret s := rfl
theorem exec_gbar (d : BitVec 5) (s : State) : exec (.gbar d) s = execGbar d s := rfl
theorem exec_garrive (s : State) : exec (.garrive) s = execGarrive s := rfl
theorem exec_gwait (d : BitVec 5) (s : State) : exec (.gwait d) s = execGwait d s := rfl
theorem exec_gquery (d : BitVec 5) (a : BitVec 5) (s : State) : exec (.gquery d a) s = execGquery d a s := rfl
theorem exec_gleave (s : State) : exec (.gleave) s = execGleave s := rfl
theorem exec_sborrow (d : BitVec 5) (s : State) : exec (.sborrow d) s = execSborrow d s := rfl
theorem exec_sreturn (a : BitVec 5) (s : State) : exec (.sreturn a) s = execSreturn a s := rfl
theorem exec_xmovTo (a : BitVec 5) (b : BitVec 5) (imm : BitVec 6) (s : State) : exec (.xmovTo a b imm) s = execXmovTo a b imm s := rfl
theorem exec_xmovFrom (d : BitVec 5) (a : BitVec 5) (imm : BitVec 6) (s : State) : exec (.xmovFrom d a imm) s = execXmovFrom d a imm s := rfl
theorem exec_xmovmTo (d : BitVec 5) (a : BitVec 5) (b : BitVec 5) (imm : BitVec 6) (s : State) : exec (.xmovmTo d a b imm) s = execXmovmTo d a b imm s := rfl
theorem exec_xmovmFrom (d : BitVec 5) (a : BitVec 5) (b : BitVec 5) (imm : BitVec 6) (s : State) : exec (.xmovmFrom d a b imm) s = execXmovmFrom d a b imm s := rfl
theorem exec_xmovxTo (a : BitVec 5) (b : BitVec 5) (imm : BitVec 6) (s : State) : exec (.xmovxTo a b imm) s = execXmovxTo a b imm s := rfl
theorem exec_xmovxFrom (d : BitVec 5) (a : BitVec 5) (imm : BitVec 6) (s : State) : exec (.xmovxFrom d a imm) s = execXmovxFrom d a imm s := rfl
theorem exec_qput (a : BitVec 5) (imm : BitVec 6) (s : State) : exec (.qput a imm) s = execQput a imm s := rfl
theorem exec_qget (d : BitVec 5) (imm : BitVec 6) (s : State) : exec (.qget d imm) s = execQget d imm s := rfl
theorem exec_qputNb (d : BitVec 5) (a : BitVec 5) (imm : BitVec 6) (s : State) : exec (.qputNb d a imm) s = execQputNb d a imm s := rfl
theorem exec_qgetNb (d : BitVec 5) (imm : BitVec 6) (s : State) : exec (.qgetNb d imm) s = execQgetNb d imm s := rfl
theorem exec_qlen (d : BitVec 5) (imm : BitVec 6) (s : State) : exec (.qlen d imm) s = execQlen d imm s := rfl
theorem exec_vaddFp32 (d : BitVec 6) (a : BitVec 6) (b : BitVec 6) (s : State) : exec (.vaddFp32 d a b) s = execVaddFp32 d a b s := rfl
theorem exec_vsubFp32 (d : BitVec 6) (a : BitVec 6) (b : BitVec 6) (s : State) : exec (.vsubFp32 d a b) s = execVsubFp32 d a b s := rfl
theorem exec_vmulFp32 (d : BitVec 6) (a : BitVec 6) (b : BitVec 6) (s : State) : exec (.vmulFp32 d a b) s = execVmulFp32 d a b s := rfl
theorem exec_vdivFp32 (d : BitVec 6) (a : BitVec 6) (b : BitVec 6) (s : State) : exec (.vdivFp32 d a b) s = execVdivFp32 d a b s := rfl
theorem exec_vfmaFp32 (d : BitVec 6) (a : BitVec 6) (b : BitVec 6) (s : State) : exec (.vfmaFp32 d a b) s = execVfmaFp32 d a b s := rfl
theorem exec_vminFp32 (d : BitVec 6) (a : BitVec 6) (b : BitVec 6) (s : State) : exec (.vminFp32 d a b) s = execVminFp32 d a b s := rfl
theorem exec_vmaxFp32 (d : BitVec 6) (a : BitVec 6) (b : BitVec 6) (s : State) : exec (.vmaxFp32 d a b) s = execVmaxFp32 d a b s := rfl
theorem exec_vabsFp32 (d : BitVec 6) (a : BitVec 6) (s : State) : exec (.vabsFp32 d a) s = execVabsFp32 d a s := rfl
theorem exec_vnegFp32 (d : BitVec 6) (a : BitVec 6) (s : State) : exec (.vnegFp32 d a) s = execVnegFp32 d a s := rfl
theorem exec_vreluFp32 (d : BitVec 6) (a : BitVec 6) (s : State) : exec (.vreluFp32 d a) s = execVreluFp32 d a s := rfl
theorem exec_vaddbFp32 (d : BitVec 6) (a : BitVec 6) (b : BitVec 6) (s : State) : exec (.vaddbFp32 d a b) s = execVaddbFp32 d a b s := rfl
theorem exec_vmulbFp32 (d : BitVec 6) (a : BitVec 6) (b : BitVec 6) (s : State) : exec (.vmulbFp32 d a b) s = execVmulbFp32 d a b s := rfl
theorem exec_vaddBf16 (d : BitVec 6) (a : BitVec 6) (b : BitVec 6) (s : State) : exec (.vaddBf16 d a b) s = execVaddBf16 d a b s := rfl
theorem exec_vsubBf16 (d : BitVec 6) (a : BitVec 6) (b : BitVec 6) (s : State) : exec (.vsubBf16 d a b) s = execVsubBf16 d a b s := rfl
theorem exec_vmulBf16 (d : BitVec 6) (a : BitVec 6) (b : BitVec 6) (s : State) : exec (.vmulBf16 d a b) s = execVmulBf16 d a b s := rfl
theorem exec_vfmaBf16 (d : BitVec 6) (a : BitVec 6) (b : BitVec 6) (s : State) : exec (.vfmaBf16 d a b) s = execVfmaBf16 d a b s := rfl
theorem exec_vminBf16 (d : BitVec 6) (a : BitVec 6) (b : BitVec 6) (s : State) : exec (.vminBf16 d a b) s = execVminBf16 d a b s := rfl
theorem exec_vmaxBf16 (d : BitVec 6) (a : BitVec 6) (b : BitVec 6) (s : State) : exec (.vmaxBf16 d a b) s = execVmaxBf16 d a b s := rfl
theorem exec_vreluBf16 (d : BitVec 6) (a : BitVec 6) (s : State) : exec (.vreluBf16 d a) s = execVreluBf16 d a s := rfl
theorem exec_vaddI32 (d : BitVec 6) (a : BitVec 6) (b : BitVec 6) (s : State) : exec (.vaddI32 d a b) s = execVaddI32 d a b s := rfl
theorem exec_vsubI32 (d : BitVec 6) (a : BitVec 6) (b : BitVec 6) (s : State) : exec (.vsubI32 d a b) s = execVsubI32 d a b s := rfl
theorem exec_vmulI32 (d : BitVec 6) (a : BitVec 6) (b : BitVec 6) (s : State) : exec (.vmulI32 d a b) s = execVmulI32 d a b s := rfl
theorem exec_vminI32 (d : BitVec 6) (a : BitVec 6) (b : BitVec 6) (s : State) : exec (.vminI32 d a b) s = execVminI32 d a b s := rfl
theorem exec_vmaxI32 (d : BitVec 6) (a : BitVec 6) (b : BitVec 6) (s : State) : exec (.vmaxI32 d a b) s = execVmaxI32 d a b s := rfl
theorem exec_vandI32 (d : BitVec 6) (a : BitVec 6) (b : BitVec 6) (s : State) : exec (.vandI32 d a b) s = execVandI32 d a b s := rfl
theorem exec_vorI32 (d : BitVec 6) (a : BitVec 6) (b : BitVec 6) (s : State) : exec (.vorI32 d a b) s = execVorI32 d a b s := rfl
theorem exec_vxorI32 (d : BitVec 6) (a : BitVec 6) (b : BitVec 6) (s : State) : exec (.vxorI32 d a b) s = execVxorI32 d a b s := rfl
theorem exec_vshlI32 (d : BitVec 6) (a : BitVec 6) (b : BitVec 6) (s : State) : exec (.vshlI32 d a b) s = execVshlI32 d a b s := rfl
theorem exec_vsraI32 (d : BitVec 6) (a : BitVec 6) (b : BitVec 6) (s : State) : exec (.vsraI32 d a b) s = execVsraI32 d a b s := rfl
theorem exec_vreluI32 (d : BitVec 6) (a : BitVec 6) (s : State) : exec (.vreluI32 d a) s = execVreluI32 d a s := rfl
theorem exec_vexpFp32 (d : BitVec 6) (a : BitVec 6) (s : State) : exec (.vexpFp32 d a) s = execVexpFp32 d a s := rfl
theorem exec_vlogFp32 (d : BitVec 6) (a : BitVec 6) (s : State) : exec (.vlogFp32 d a) s = execVlogFp32 d a s := rfl
theorem exec_vrcpFp32 (d : BitVec 6) (a : BitVec 6) (s : State) : exec (.vrcpFp32 d a) s = execVrcpFp32 d a s := rfl
theorem exec_vrsqrtFp32 (d : BitVec 6) (a : BitVec 6) (s : State) : exec (.vrsqrtFp32 d a) s = execVrsqrtFp32 d a s := rfl
theorem exec_vsqrtFp32 (d : BitVec 6) (a : BitVec 6) (s : State) : exec (.vsqrtFp32 d a) s = execVsqrtFp32 d a s := rfl
theorem exec_vtanhFp32 (d : BitVec 6) (a : BitVec 6) (s : State) : exec (.vtanhFp32 d a) s = execVtanhFp32 d a s := rfl
theorem exec_vsigmFp32 (d : BitVec 6) (a : BitVec 6) (s : State) : exec (.vsigmFp32 d a) s = execVsigmFp32 d a s := rfl
theorem exec_vcmpEqFp32 (d : BitVec 6) (a : BitVec 6) (b : BitVec 6) (s : State) : exec (.vcmpEqFp32 d a b) s = execVcmpEqFp32 d a b s := rfl
theorem exec_vcmpLtFp32 (d : BitVec 6) (a : BitVec 6) (b : BitVec 6) (s : State) : exec (.vcmpLtFp32 d a b) s = execVcmpLtFp32 d a b s := rfl
theorem exec_vcmpLeFp32 (d : BitVec 6) (a : BitVec 6) (b : BitVec 6) (s : State) : exec (.vcmpLeFp32 d a b) s = execVcmpLeFp32 d a b s := rfl
theorem exec_vcmpEqI32 (d : BitVec 6) (a : BitVec 6) (b : BitVec 6) (s : State) : exec (.vcmpEqI32 d a b) s = execVcmpEqI32 d a b s := rfl
theorem exec_vcmpLtI32 (d : BitVec 6) (a : BitVec 6) (b : BitVec 6) (s : State) : exec (.vcmpLtI32 d a b) s = execVcmpLtI32 d a b s := rfl
theorem exec_vsel (d : BitVec 6) (a : BitVec 6) (b : BitVec 6) (s : State) : exec (.vsel d a b) s = execVsel d a b s := rfl
theorem exec_vsumFp32 (d : BitVec 6) (a : BitVec 6) (s : State) : exec (.vsumFp32 d a) s = execVsumFp32 d a s := rfl
theorem exec_vsumI32 (d : BitVec 6) (a : BitVec 6) (s : State) : exec (.vsumI32 d a) s = execVsumI32 d a s := rfl
theorem exec_vmaxrFp32 (d : BitVec 6) (a : BitVec 6) (s : State) : exec (.vmaxrFp32 d a) s = execVmaxrFp32 d a s := rfl
theorem exec_vbcast (d : BitVec 6) (a : BitVec 6) (s : State) : exec (.vbcast d a) s = execVbcast d a s := rfl
theorem exec_vget (d : BitVec 6) (a : BitVec 6) (b : BitVec 6) (s : State) : exec (.vget d a b) s = execVget d a b s := rfl
theorem exec_vset (d : BitVec 6) (a : BitVec 6) (b : BitVec 6) (s : State) : exec (.vset d a b) s = execVset d a b s := rfl
theorem exec_vcvtBf16Fp32 (d : BitVec 6) (a : BitVec 6) (b : BitVec 6) (s : State) : exec (.vcvtBf16Fp32 d a b) s = execVcvtBf16Fp32 d a b s := rfl
theorem exec_vcvtFp32Bf16 (d : BitVec 6) (a : BitVec 6) (b : BitVec 6) (s : State) : exec (.vcvtFp32Bf16 d a b) s = execVcvtFp32Bf16 d a b s := rfl
theorem exec_vcvtI32Fp32 (d : BitVec 6) (a : BitVec 6) (s : State) : exec (.vcvtI32Fp32 d a) s = execVcvtI32Fp32 d a s := rfl
theorem exec_vcvtFp32I32 (d : BitVec 6) (a : BitVec 6) (s : State) : exec (.vcvtFp32I32 d a) s = execVcvtFp32I32 d a s := rfl
theorem exec_vmov (d : BitVec 6) (a : BitVec 6) (s : State) : exec (.vmov d a) s = execVmov d a s := rfl
theorem exec_vld (d : BitVec 6) (a : BitVec 6) (b : BitVec 6) (s : State) : exec (.vld d a b) s = execVld d a b s := rfl
theorem exec_vst (d : BitVec 6) (a : BitVec 6) (b : BitVec 6) (s : State) : exec (.vst d a b) s = execVst d a b s := rfl
theorem exec_abind (d : BitVec 5) (s : State) : exec (.abind d) s = execAbind d s := rfl
theorem exec_aunbind (s : State) : exec (.aunbind) s = execAunbind s := rfl
theorem exec_atypeFp32 (d : BitVec 5) (s : State) : exec (.atypeFp32 d) s = execAtypeFp32 d s := rfl
theorem exec_atypeI32 (d : BitVec 5) (s : State) : exec (.atypeI32 d) s = execAtypeI32 d s := rfl
theorem exec_atypeBf16 (d : BitVec 5) (s : State) : exec (.atypeBf16 d) s = execAtypeBf16 d s := rfl
theorem exec_azero (d : BitVec 5) (s : State) : exec (.azero d) s = execAzero d s := rfl
theorem exec_aqlen (d : BitVec 5) (s : State) : exec (.aqlen d) s = execAqlen d s := rfl
theorem exec_aver (d : BitVec 5) (a : BitVec 5) (s : State) : exec (.aver d a) s = execAver d a s := rfl
theorem exec_mma (d : BitVec 5) (a : BitVec 5) (s : State) : exec (.mma d a) s = execMma d a s := rfl
theorem exec_mmaSp6 (d : BitVec 5) (a : BitVec 5) (s : State) : exec (.mmaSp6 d a) s = execMmaSp6 d a s := rfl
theorem exec_mmaSp12 (d : BitVec 5) (a : BitVec 5) (s : State) : exec (.mmaSp12 d a) s = execMmaSp12 d a s := rfl
theorem exec_mmaZ (d : BitVec 5) (a : BitVec 5) (s : State) : exec (.mmaZ d a) s = execMmaZ d a s := rfl
theorem exec_await (d : BitVec 5) (a : BitVec 5) (s : State) : exec (.await d a) s = execAwait d a s := rfl
theorem exec_drain (d : BitVec 5) (a : BitVec 5) (b : BitVec 5) (s : State) : exec (.drain d a b) s = execDrain d a b s := rfl
theorem exec_drainAdd (d : BitVec 5) (a : BitVec 5) (b : BitVec 5) (s : State) : exec (.drainAdd d a b) s = execDrainAdd d a b s := rfl
theorem exec_acopy (d : BitVec 5) (a : BitVec 5) (b : BitVec 5) (s : State) : exec (.acopy d a b) s = execAcopy d a b s := rfl
theorem exec_cpy (a : BitVec 5) (b : BitVec 5) (s : State) : exec (.cpy a b) s = execCpy a b s := rfl
theorem exec_cpyMm (d : BitVec 5) (a : BitVec 5) (b : BitVec 5) (imm : BitVec 6) (s : State) : exec (.cpyMm d a b imm) s = execCpyMm d a b imm s := rfl
theorem exec_cpyMc (a : BitVec 5) (b : BitVec 5) (s : State) : exec (.cpyMc a b) s = execCpyMc a b s := rfl
theorem exec_cpyMmMc (d : BitVec 5) (a : BitVec 5) (b : BitVec 5) (imm : BitVec 6) (s : State) : exec (.cpyMmMc d a b imm) s = execCpyMmMc d a b imm s := rfl
theorem exec_cpyAdd (a : BitVec 5) (b : BitVec 5) (s : State) : exec (.cpyAdd a b) s = execCpyAdd a b s := rfl
theorem exec_cpyFill (a : BitVec 5) (b : BitVec 5) (s : State) : exec (.cpyFill a b) s = execCpyFill a b s := rfl
theorem exec_cpyKeep (a : BitVec 5) (b : BitVec 5) (s : State) : exec (.cpyKeep a b) s = execCpyKeep a b s := rfl
theorem exec_cpySend (d : BitVec 5) (a : BitVec 5) (b : BitVec 5) (s : State) : exec (.cpySend d a b) s = execCpySend d a b s := rfl
theorem exec_cpyCancel (d : BitVec 5) (b : BitVec 5) (s : State) : exec (.cpyCancel d b) s = execCpyCancel d b s := rfl
theorem exec_cpyQuery (d : BitVec 5) (b : BitVec 5) (s : State) : exec (.cpyQuery d b) s = execCpyQuery d b s := rfl
theorem exec_xset (d : BitVec 5) (a : BitVec 5) (b : BitVec 5) (s : State) : exec (.xset d a b) s = execXset d a b s := rfl
theorem exec_xgetLo (d : BitVec 5) (a : BitVec 5) (s : State) : exec (.xgetLo d a) s = execXgetLo d a s := rfl
theorem exec_xgetHi (d : BitVec 5) (a : BitVec 5) (s : State) : exec (.xgetHi d a) s = execXgetHi d a s := rfl
theorem exec_xld (d : BitVec 5) (a : BitVec 5) (imm : BitVec 6) (s : State) : exec (.xld d a imm) s = execXld d a imm s := rfl
theorem exec_xst (d : BitVec 5) (a : BitVec 5) (imm : BitVec 6) (s : State) : exec (.xst d a imm) s = execXst d a imm s := rfl
theorem exec_xclr (d : BitVec 5) (s : State) : exec (.xclr d) s = execXclr d s := rfl
theorem exec_trap (imm : BitVec 11) (s : State) : exec (.trap imm) s = execTrap imm s := rfl
theorem exec_brk (imm : BitVec 11) (s : State) : exec (.brk imm) s = execBrk imm s := rfl
theorem exec_tback (s : State) : exec (.tback) s = execTback s := rfl
theorem exec_nap (a : BitVec 5) (s : State) : exec (.nap a) s = execNap a s := rfl
theorem exec_ifence (s : State) : exec (.ifence) s = execIfence s := rfl
theorem exec_cget (d : BitVec 5) (imm : BitVec 6) (s : State) : exec (.cget d imm) s = execCget d imm s := rfl
theorem exec_cset (a : BitVec 5) (imm : BitVec 6) (s : State) : exec (.cset a imm) s = execCset a imm s := rfl
theorem exec_cseti (b : BitVec 5) (imm : BitVec 6) (s : State) : exec (.cseti b imm) s = execCseti b imm s := rfl
theorem exec_cclr (d : BitVec 5) (a : BitVec 5) (imm : BitVec 6) (s : State) : exec (.cclr d a imm) s = execCclr d a imm s := rfl
theorem exec_cbis (d : BitVec 5) (a : BitVec 5) (imm : BitVec 6) (s : State) : exec (.cbis d a imm) s = execCbis d a imm s := rfl
theorem exec_hcget (d : BitVec 5) (a : BitVec 5) (s : State) : exec (.hcget d a) s = execHcget d a s := rfl
theorem exec_hcset (a : BitVec 5) (b : BitVec 5) (s : State) : exec (.hcset a b) s = execHcset a b s := rfl
theorem exec_hstart (d : BitVec 5) (a : BitVec 5) (b : BitVec 5) (c : BitVec 5) (s : State) : exec (.hstart d a b c) s = execHstart d a b c s := rfl
theorem exec_hkill (d : BitVec 5) (a : BitVec 5) (s : State) : exec (.hkill d a) s = execHkill d a s := rfl
theorem exec_hrec (a : BitVec 5) (s : State) : exec (.hrec a) s = execHrec a s := rfl
theorem exec_hquiesce (a : BitVec 5) (s : State) : exec (.hquiesce a) s = execHquiesce a s := rfl
theorem exec_hpurge (d : BitVec 5) (a : BitVec 5) (s : State) : exec (.hpurge d a) s = execHpurge d a s := rfl
theorem exec_hcopy (a : BitVec 5) (b : BitVec 5) (c : BitVec 5) (s : State) : exec (.hcopy a b c) s = execHcopy a b c s := rfl
theorem exec_carouselIssue (tile : Nat) (s : State) : exec (.carouselIssue tile) s = execCarouselIssue tile s := rfl
theorem exec_escalation (ctx : Nat) (s : State) : exec (.escalation ctx) s = execEscalation ctx s := rfl
theorem exec_serviceCall (ctx : Nat) (s : State) : exec (.serviceCall ctx) s = execServiceCall ctx s := rfl
theorem exec_sealCreate (ctx : Nat) (base : Word) (slot : Nat) (idx : Nat) (s : State) : exec (.sealCreate ctx base slot idx) s = execSealCreate ctx base slot idx s := rfl
theorem exec_sealOffer (ctx : Nat) (s : State) : exec (.sealOffer ctx) s = execSealOffer ctx s := rfl
theorem exec_sealJoin (ctx : Nat) (idx : Nat) (s : State) : exec (.sealJoin ctx idx) s = execSealJoin ctx idx s := rfl
theorem exec_sealRights (ctx : Nat) (s : State) : exec (.sealRights ctx) s = execSealRights ctx s := rfl
theorem exec_sealLeave (ctx : Nat) (s : State) : exec (.sealLeave ctx) s = execSealLeave ctx s := rfl
theorem exec_sealRekey (ctx : Nat) (s : State) : exec (.sealRekey ctx) s = execSealRekey ctx s := rfl
theorem exec_sealImport (ctx : Nat) (plain : Option (List Byte)) (s : State) : exec (.sealImport ctx plain) s = execSealImport ctx plain s := rfl
theorem exec_sealExport (ctx : Nat) (sealed : List Byte) (s : State) : exec (.sealExport ctx sealed) s = execSealExport ctx sealed s := rfl
theorem exec_loftSetFormat (ctx : Nat) (s : State) : exec (.loftSetFormat ctx) s = execLoftSetFormat ctx s := rfl
theorem exec_loftFormatApply (ctx : Nat) (s : State) : exec (.loftFormatApply ctx) s = execLoftFormatApply ctx s := rfl
theorem exec_napExpiry (ctx : Nat) (s : State) : exec (.napExpiry ctx) s = execNapExpiry ctx s := rfl
theorem exec_pageWalk (tile : Nat) (k : Nat) (s : State) : exec (.pageWalk tile k) s = execPageWalk tile k s := rfl
theorem exec_pageRequest (tile : Nat) (k : Nat) (s : State) : exec (.pageRequest tile k) s = execPageRequest tile k s := rfl
theorem exec_pageGrant (entry : Nat) (ptes : List (Word × Word)) (s : State) : exec (.pageGrant entry ptes) s = execPageGrant entry ptes s := rfl
theorem exec_pageRequestFail (entry : Nat) (s : State) : exec (.pageRequestFail entry) s = execPageRequestFail entry s := rfl
theorem exec_pageRequestTimeout (entry : Nat) (s : State) : exec (.pageRequestTimeout entry) s = execPageRequestTimeout entry s := rfl
theorem exec_rewalkReport (entry : Nat) (tile : Nat) (s : State) : exec (.rewalkReport entry tile) s = execRewalkReport entry tile s := rfl
theorem exec_portWake (tile : Nat) (part : Nat) (idx : Nat) (page : Nat) (s : State) : exec (.portWake tile part idx page) s = execPortWake tile part idx page s := rfl
theorem exec_wakeHoldExpiry (tile : Nat) (s : State) : exec (.wakeHoldExpiry tile) s = execWakeHoldExpiry tile s := rfl
theorem exec_shootdown (k : Nat) (s : State) : exec (.shootdown k) s = execShootdown k s := rfl
theorem exec_shootdownAck (tile : Nat) (s : State) : exec (.shootdownAck tile) s = execShootdownAck tile s := rfl
theorem exec_arriveLoad (k : Nat) (s : State) : exec (.arriveLoad k) s = execArriveLoad k s := rfl
theorem exec_arriveStore (k : Nat) (s : State) : exec (.arriveStore k) s = execArriveStore k s := rfl
theorem exec_arriveWf (k : Nat) (s : State) : exec (.arriveWf k) s = execArriveWf k s := rfl
theorem exec_arriveWfc (k : Nat) (s : State) : exec (.arriveWfc k) s = execArriveWfc k s := rfl
theorem exec_arriveWe (k : Nat) (s : State) : exec (.arriveWe k) s = execArriveWe k s := rfl
theorem exec_arriveSf (k : Nat) (s : State) : exec (.arriveSf k) s = execArriveSf k s := rfl
theorem exec_arrivePset (k : Nat) (s : State) : exec (.arrivePset k) s = execArrivePset k s := rfl
theorem exec_arrivePclr (k : Nat) (s : State) : exec (.arrivePclr k) s = execArrivePclr k s := rfl
theorem exec_arriveHelp (k : Nat) (s : State) : exec (.arriveHelp k) s = execArriveHelp k s := rfl
theorem exec_arriveProbe (k : Nat) (s : State) : exec (.arriveProbe k) s = execArriveProbe k s := rfl
theorem exec_arrivePget (k : Nat) (s : State) : exec (.arrivePget k) s = execArrivePget k s := rfl
theorem exec_arriveWatch (k : Nat) (s : State) : exec (.arriveWatch k) s = execArriveWatch k s := rfl
theorem exec_arriveUnwatch (k : Nat) (s : State) : exec (.arriveUnwatch k) s = execArriveUnwatch k s := rfl
theorem exec_arriveAmo (k : Nat) (s : State) : exec (.arriveAmo k) s = execArriveAmo k s := rfl
theorem exec_arriveRdxAdd (k : Nat) (s : State) : exec (.arriveRdxAdd k) s = execArriveRdxAdd k s := rfl
theorem exec_rdxSlotRead (k : Nat) (tile : Nat) (s : State) : exec (.rdxSlotRead k tile) s = execRdxSlotRead k tile s := rfl
theorem exec_rdxSum (k : Nat) (s : State) : exec (.rdxSum k) s = execRdxSum k s := rfl
theorem exec_refusalRetry (k : Nat) (s : State) : exec (.refusalRetry k) s = execRefusalRetry k s := rfl
theorem exec_deadlineCheck (s : State) : exec (.deadlineCheck) s = execDeadlineCheck s := rfl
theorem exec_cancel (ctx : Nat) (s : State) : exec (.cancel ctx) s = execCancel ctx s := rfl
theorem exec_reply (k : Nat) (s : State) : exec (.reply k) s = execReply k s := rfl
theorem exec_quarantineLift (k : Nat) (s : State) : exec (.quarantineLift k) s = execQuarantineLift k s := rfl
theorem exec_rekeySweepLine (slot : Nat) (s : State) : exec (.rekeySweepLine slot) s = execRekeySweepLine slot s := rfl
theorem exec_rekeyComplete (slot : Nat) (s : State) : exec (.rekeyComplete slot) s = execRekeyComplete slot s := rfl
theorem exec_keyErase (slot : Nat) (s : State) : exec (.keyErase slot) s = execKeyErase slot s := rfl
theorem exec_matrixStart (tile : Nat) (s : State) : exec (.matrixStart tile) s = execMatrixStart tile s := rfl
theorem exec_matrixComplete (tile : Nat) (s : State) : exec (.matrixComplete tile) s = execMatrixComplete tile s := rfl
theorem exec_staleCommand (tile : Nat) (s : State) : exec (.staleCommand tile) s = execStaleCommand tile s := rfl
theorem exec_awaitTimeout (ctx : Nat) (s : State) : exec (.awaitTimeout ctx) s = execAwaitTimeout ctx s := rfl
theorem exec_drainRun (tile : Nat) (s : State) : exec (.drainRun tile) s = execDrainRun tile s := rfl
theorem exec_copyStart (tile : Nat) (s : State) : exec (.copyStart tile) s = execCopyStart tile s := rfl
theorem exec_copyElement (tile : Nat) (k : Nat) (s : State) : exec (.copyElement tile k) s = execCopyElement tile k s := rfl
theorem exec_copyComplete (tile : Nat) (k : Nat) (s : State) : exec (.copyComplete tile k) s = execCopyComplete tile k s := rfl
theorem exec_followOnReady (tile : Nat) (k : Nat) (dst : Nat) (s : State) : exec (.followOnReady tile k dst) s = execFollowOnReady tile k dst s := rfl
theorem exec_copyResume (tile : Nat) (k : Nat) (s : State) : exec (.copyResume tile k) s = execCopyResume tile k s := rfl
theorem exec_pop (ctx : Nat) (s : State) : exec (.pop ctx) s = execPop ctx s := rfl
theorem exec_frameStart (k : Nat) (s : State) : exec (.frameStart k) s = execFrameStart k s := rfl
theorem exec_stealAttempt (ctx : Nat) (s : State) : exec (.stealAttempt ctx) s = execStealAttempt ctx s := rfl
theorem exec_stealAnswer (ctx : Nat) (s : State) : exec (.stealAnswer ctx) s = execStealAnswer ctx s := rfl
theorem exec_stealBackoff (tile : Nat) (part : Nat) (s : State) : exec (.stealBackoff tile part) s = execStealBackoff tile part s := rfl
theorem exec_stateMark (k : Nat) (s : State) : exec (.stateMark k) s = execStateMark k s := rfl
theorem exec_helpProcedure (ctx : Nat) (s : State) : exec (.helpProcedure ctx) s = execHelpProcedure ctx s := rfl
theorem exec_spawnRelease (k : Nat) (s : State) : exec (.spawnRelease k) s = execSpawnRelease k s := rfl
theorem exec_dequeReserve (k : Nat) (s : State) : exec (.dequeReserve k) s = execDequeReserve k s := rfl
theorem exec_messageArrive (k : Nat) (s : State) : exec (.messageArrive k) s = execMessageArrive k s := rfl
theorem exec_handlerStart (ctx : Nat) (s : State) : exec (.handlerStart ctx) s = execHandlerStart ctx s := rfl
theorem exec_mailboxArrive (k : Nat) (s : State) : exec (.mailboxArrive k) s = execMailboxArrive k s := rfl
theorem exec_gangMemberStart (k : Nat) (s : State) : exec (.gangMemberStart k) s = execGangMemberStart k s := rfl
theorem exec_barrierReport (k : Nat) (s : State) : exec (.barrierReport k) s = execBarrierReport k s := rfl
theorem exec_barrierRelease (k : Nat) (s : State) : exec (.barrierRelease k) s = execBarrierRelease k s := rfl
theorem exec_slotRotation (part : Nat) (tenant : Nat) (s : State) : exec (.slotRotation part tenant) s = execSlotRotation part tenant s := rfl
theorem exec_slotSwap (ctx : Nat) (s : State) : exec (.slotSwap ctx) s = execSlotSwap ctx s := rfl
theorem exec_loftHandover (tile : Nat) (part : Nat) (s : State) : exec (.loftHandover tile part) s = execLoftHandover tile part s := rfl
theorem exec_launchAcquire (fn : Nat) (s : State) : exec (.launchAcquire fn) s = execLaunchAcquire fn s := rfl
theorem exec_launchDone (k : Nat) (s : State) : exec (.launchDone k) s = execLaunchDone k s := rfl
theorem exec_operatingPointChange (tile : Nat) (point : Nat) (s : State) : exec (.operatingPointChange tile point) s = execOperatingPointChange tile point s := rfl
theorem exec_powerThrottle (point : Nat) (s : State) : exec (.powerThrottle point) s = execPowerThrottle point s := rfl
theorem exec_thermalThrottle (point : Nat) (s : State) : exec (.thermalThrottle point) s = execThermalThrottle point s := rfl
theorem exec_thermalReset (s : State) : exec (.thermalReset) s = execThermalReset s := rfl
theorem exec_contextStateError (ctx : Nat) (s : State) : exec (.contextStateError ctx) s = execContextStateError ctx s := rfl
theorem exec_engineOutOfService (tile : Nat) (copy : Bool) (s : State) : exec (.engineOutOfService tile copy) s = execEngineOutOfService tile copy s := rfl
theorem exec_dramParityAlert (tile : Nat) (bank : Nat) (index : Nat) (lines : List Nat) (s : State) : exec (.dramParityAlert tile bank index lines) s = execDramParityAlert tile bank index lines s := rfl
theorem exec_sparingStart (tile : Nat) (bank : Nat) (s : State) : exec (.sparingStart tile bank) s = execSparingStart tile bank s := rfl
theorem exec_sparingRowCopy (tile : Nat) (s : State) : exec (.sparingRowCopy tile) s = execSparingRowCopy tile s := rfl
theorem exec_bankRetire (tile : Nat) (bank : Nat) (s : State) : exec (.bankRetire tile bank) s = execBankRetire tile bank s := rfl
theorem exec_flitResend (link : Nat) (fails : Bool) (s : State) : exec (.flitResend link fails) s = execFlitResend link fails s := rfl
theorem exec_endToEndResend (k : Nat) (s : State) : exec (.endToEndResend k) s = execEndToEndResend k s := rfl
theorem exec_channelRetire (chan : Nat) (s : State) : exec (.channelRetire chan) s = execChannelRetire chan s := rfl
theorem exec_heartbeatSend (tile : Nat) (s : State) : exec (.heartbeatSend tile) s = execHeartbeatSend tile s := rfl
theorem exec_heartbeatReceive (tile : Nat) (j : Nat) (intact : Bool) (s : State) : exec (.heartbeatReceive tile j intact) s = execHeartbeatReceive tile j intact s := rfl
theorem exec_judgement (tile : Nat) (crowd : BitVec 4) (s : State) : exec (.judgement tile crowd) s = execJudgement tile crowd s := rfl
theorem exec_fence (tile : Nat) (s : State) : exec (.fence tile) s = execFence tile s := rfl
theorem exec_frameRecovery (tile : Nat) (s : State) : exec (.frameRecovery tile) s = execFrameRecovery tile s := rfl
theorem exec_selfTestEnd (tile : Nat) (passed : Bool) (s : State) : exec (.selfTestEnd tile passed) s = execSelfTestEnd tile passed s := rfl
theorem exec_bar2PlainWrite (fn : Nat) (off : Word) (width : Nat) (value : Word) (s : State) : exec (.bar2PlainWrite fn off width value) s = execBar2PlainWrite fn off width value s := rfl
theorem exec_bar2PlainRead (fn : Nat) (off : Word) (width : Nat) (s : State) : exec (.bar2PlainRead fn off width) s = execBar2PlainRead fn off width s := rfl
theorem exec_bar2FillWrite (fn : Nat) (off : Word) (width : Nat) (value : Word) (s : State) : exec (.bar2FillWrite fn off width value) s = execBar2FillWrite fn off width value s := rfl
theorem exec_bar2StatusRead (fn : Nat) (off : Word) (s : State) : exec (.bar2StatusRead fn off) s = execBar2StatusRead fn off s := rfl
theorem exec_bar2ReservedAlias (fn : Nat) (off : Word) (write : Bool) (s : State) : exec (.bar2ReservedAlias fn off write) s = execBar2ReservedAlias fn off write s := rfl
theorem exec_mgmtRegisterWrite (master : Nat) (fn : Nat) (off : Nat) (value : Word) (s : State) : exec (.mgmtRegisterWrite master fn off value) s = execMgmtRegisterWrite master fn off value s := rfl
theorem exec_rmownClaim (master : Nat) (s : State) : exec (.rmownClaim master) s = execRmownClaim master s := rfl
theorem exec_rmownHandover (master : Nat) (target : Nat) (s : State) : exec (.rmownHandover master target) s = execRmownHandover master target s := rfl
theorem exec_rmownAccept (master : Nat) (s : State) : exec (.rmownAccept master) s = execRmownAccept master s := rfl
theorem exec_rmownCancel (master : Nat) (s : State) : exec (.rmownCancel master) s = execRmownCancel master s := rfl
theorem exec_handoverTimeout (s : State) : exec (.handoverTimeout) s = execHandoverTimeout s := rfl
theorem exec_i3cHeartbeat (s : State) : exec (.i3cHeartbeat) s = execI3cHeartbeat s := rfl
theorem exec_ownerLost (s : State) : exec (.ownerLost) s = execOwnerLost s := rfl
theorem exec_ownerReturn (s : State) : exec (.ownerReturn) s = execOwnerReturn s := rfl
theorem exec_electionTimeout (s : State) : exec (.electionTimeout) s = execElectionTimeout s := rfl
theorem exec_vfbindWrite (master : Nat) (vf : Nat) (value : Word) (s : State) : exec (.vfbindWrite master vf value) s = execVfbindWrite master vf value s := rfl
theorem exec_vfEnableClear (link : Nat) (s : State) : exec (.vfEnableClear link) s = execVfEnableClear link s := rfl
theorem exec_attestation (part : Nat) (s : State) : exec (.attestation part) s = execAttestation part s := rfl
theorem exec_eqheadWrite (fn : Nat) (value : Word) (s : State) : exec (.eqheadWrite fn value) s = execEqheadWrite fn value s := rfl
theorem exec_errorRecordWrite (s : State) : exec (.errorRecordWrite) s = execErrorRecordWrite s := rfl
theorem exec_icoalTimer (fn : Nat) (vec : Nat) (s : State) : exec (.icoalTimer fn vec) s = execIcoalTimer fn vec s := rfl
theorem exec_msixUnmask (fn : Nat) (vec : Nat) (s : State) : exec (.msixUnmask fn vec) s = execMsixUnmask fn vec s := rfl
theorem exec_firmwareBoot (accepted : Bool) (s : State) : exec (.firmwareBoot accepted) s = execFirmwareBoot accepted s := rfl
theorem exec_powerOn (s : State) : exec (.powerOn) s = execPowerOn s := rfl
theorem exec_pcieFundamentalReset (link : Nat) (s : State) : exec (.pcieFundamentalReset link) s = execPcieFundamentalReset link s := rfl
theorem exec_ownerResetRequest (master : Nat) (s : State) : exec (.ownerResetRequest master) s = execOwnerResetRequest master s := rfl
theorem exec_mcResetRequest (s : State) : exec (.mcResetRequest) s = execMcResetRequest s := rfl
theorem exec_supplyFault (s : State) : exec (.supplyFault) s = execSupplyFault s := rfl
theorem exec_firmwareWatchdog (s : State) : exec (.firmwareWatchdog) s = execFirmwareWatchdog s := rfl
theorem exec_tileReset (tile : Nat) (cause : Nat) (s : State) : exec (.tileReset tile cause) s = execTileReset tile cause s := rfl
theorem exec_bufferEntryFetch (tile : Nat) (k : Nat) (s : State) : exec (.bufferEntryFetch tile k) s = execBufferEntryFetch tile k s := rfl
theorem exec_engineSelfTestEnd (tile : Nat) (s : State) : exec (.engineSelfTestEnd tile) s = execEngineSelfTestEnd tile s := rfl
theorem exec_vfEnableSet (link : Nat) (s : State) : exec (.vfEnableSet link) s = execVfEnableSet link s := rfl

end Sys2Proof.Laws
end

