-- ==== Sys2Proof/Laws/Operations.lean ====
section
/-! SUPPORT. One lemma for each case of each shared operation of the instructions: what it does once its condition is known. A proof
about an instruction cites these and does not unfold the operation. -/

namespace Sys2Proof.Laws

open Sys2Proof Sys2Proof.Machine

/-! ### Waiting and trapping -/

theorem reading_there {s : State} {keys : List Nat} {k : Ctx → Out} (h : s.there keys = true) : s.reading keys k = k s.me := by
  simp only [State.there, Bool.not_eq_true'] at h
  simp [State.reading, h]

theorem reading_awaited {s : State} {keys : List Nat} {k : Ctx → Out} (h : s.there keys = false) : s.reading keys k = .next s.waiting := by
  simp only [State.there, Bool.not_eq_false'] at h
  simp [State.reading, h, State.stall, State.waiting]

/-- A list of registers is there when its parts are. -/
theorem there_append (s : State) (a b : List Nat) : s.there (a ++ b) = (s.there a && s.there b) := by
  simp [State.there, Ctx.awaiting]

theorem there_cons (s : State) (k : Nat) (ks : List Nat) : s.there (k :: ks) = (s.there [k] && s.there ks) := there_append s [k] ks

@[simp] theorem there_nil (s : State) : s.there [] = true := rfl

theorem trap_eq (s : State) (cause : Nat) (tval : Word) : s.trap cause tval = .next (s.trapAt s.cur cause tval) := rfl
theorem trapPoison_eq (s : State) (tv : Word) : s.trapPoison tv = .next (s.trapAt s.cur cPOISON_CONSUMED tv) := rfl
theorem stall_eq (s : State) : s.stall = .next s.waiting := rfl
theorem complete_eq (s : State) (c : Ctx) (len : Nat) : s.complete c len = .next (s.setMe (c.advance len)) := rfl

theorem checked_true {s : State} {ok : Bool} {w : Nat} {k : Out} (h : ok = true) : s.checked ok w k = k := by simp [State.checked, h]
theorem checked_false {s : State} {ok : Bool} {w : Nat} {k : Out} (h : ok = false) :
    s.checked ok w k = .next (s.trapAt s.cur cILLEGAL_OPERAND (wd w)) := by simp [State.checked, h, trap_eq]

theorem house_true {s : State} {w : Nat} {k : Out} (h : houseSlot s.cur = true) : s.house w k = k := by simp [State.house, h]
theorem house_false {s : State} {w : Nat} {k : Out} (h : houseSlot s.cur = false) :
    s.house w k = .next (s.trapAt s.cur cPRIVILEGE (wd w)) := by simp [State.house, h, trap_eq]

theorem orderPoint_none {s : State} {k : State → Out} (h : s.me.deferred = none) : s.orderPoint k = k s := by simp [State.orderPoint, h]
theorem orderPoint_some {s : State} {k : State → Out} {cause : Nat} {p : Word} (h : s.me.deferred = some (cause, p)) :
    s.orderPoint k = .next ((s.setMe { s.me with deferred := none }).trapAt s.cur cause p) := by simp [State.orderPoint, h]

/-- A trap is taken where the vector is a legal target and no trap is being handled; else it escalates. -/
theorem enter_taken {c : Ctx} (cause : Nat) (epc tval : Word) (h1 : c.inTrap = false) (h2 : c.trapvec ≠ 0) (h3 : targetFault c.trapvec = none) :
    c.enter cause epc tval =
      { c with st := .ready, wait := none, again := 0, plainWait := false, barWait := false, seen := [], walked := []
               hold := none, faulted := c.faulted || c.handling, cause := BitVec.ofNat 8 cause, adopted := decide (c.depth ≠ 0), epc := epc, tval := tval
               inTrap := true, pc := c.trapvec } := by
  have h' : (c.inTrap || c.trapvec == 0 || (targetFault c.trapvec).isSome) = false := by
    rw [h1, h3, beq_eq_false_iff_ne.mpr h2]; rfl
  rw [Ctx.enter, if_neg (by rw [h']; exact Bool.false_ne_true)]

theorem enter_escalates {c : Ctx} (cause : Nat) (epc tval : Word)
    (h : c.inTrap = true ∨ c.trapvec = 0 ∨ (targetFault c.trapvec).isSome = true) : c.enter cause epc tval = c.escalate cause epc tval := by
  have h' : (c.inTrap || c.trapvec == 0 || (targetFault c.trapvec).isSome) = true := by
    simp only [Bool.or_eq_true, beq_iff_eq, or_assoc]; exact h
  rw [Ctx.enter, if_pos h']

@[simp] theorem getG_enter (c : Ctx) (cause : Nat) (epc tval : Word) (n : Nat) : (c.enter cause epc tval).getG n = c.getG n := by
  unfold Ctx.enter; split <;> rfl
@[simp] theorem getE_enter (c : Ctx) (cause : Nat) (epc tval : Word) (n : Nat) : (c.enter cause epc tval).getE n = c.getE n := by
  unfold Ctx.enter; split <;> rfl

@[simp] theorem ctxAt_trapAt_same (s : State) (id cause : Nat) (tval : Word) :
    (s.trapAt id cause tval).ctxAt id = (s.ctxAt id).enter cause (s.ctxAt id).pc tval := ctxAt_setCtxAt_same _ _ _
theorem ctxAt_trapAt_ne (s : State) (cause : Nat) (tval : Word) {id j : Nat} (h : j ≠ id) : (s.trapAt id cause tval).ctxAt j = s.ctxAt j :=
  ctxAt_setCtxAt_ne _ _ h
@[simp] theorem tileAt_trapAt (s : State) (id cause : Nat) (tval : Word) (n : Nat) : (s.trapAt id cause tval).tileAt n = s.tileAt n := rfl

theorem trapReturn_outside {s : State} (h : s.me.inTrap = false) :
    s.trapReturn = .next (s.setMe (s.me.escalate cILLEGAL_OPERAND s.me.pc 0)) := by simp [State.trapReturn, h]
theorem trapReturn_bad {s : State} {cause : Nat} (h : s.me.inTrap = true) (ht : targetFault s.me.epc = some cause) :
    s.trapReturn = .next (s.setMe (s.me.escalate cause s.me.pc s.me.epc)) := by simp [State.trapReturn, h, ht]
theorem trapReturn_ok {s : State} (h : s.me.inTrap = true) (ht : targetFault s.me.epc = none) :
    s.trapReturn = .next (s.setMe { s.me with inTrap := false, pc := s.me.epc }) := by simp [State.trapReturn, h, ht]

/-! ### Scalar operands -/

theorem alu2_eq {s : State} {frm : Form} {d a b : Nat} {f : Word → Word → Word} (h : s.there [a, b] = true) :
    s.alu2 frm d a b f =
      .next (s.setMe ((s.me.setG d ⟨f (s.me.getG a).v (s.me.getG b).v, (s.me.getG a).p || (s.me.getG b).p⟩).advance frm.len)) := by
  rw [State.alu2, reading_there h]; rfl

theorem alu1_eq {s : State} {frm : Form} {d a : Nat} {f : Word → Word} (h : s.there [a] = true) :
    s.alu1 frm d a f = .next (s.setMe ((s.me.setG d ⟨f (s.me.getG a).v, (s.me.getG a).p⟩).advance frm.len)) := by
  rw [State.alu1, reading_there h]; rfl

theorem cmp2_eq {s : State} {frm : Form} {d a b : Nat} {f : Word → Word → Bool} (h : s.there [a, b] = true) (ha : (s.me.getG a).p = false)
    (hb : (s.me.getG b).p = false) :
    s.cmp2 frm d a b f = .next (s.setMe ((s.me.setG d ⟨wd (b2n (f (s.me.getG a).v (s.me.getG b).v)), false⟩).advance frm.len)) := by
  rw [State.cmp2, reading_there h]; simp [ha, hb, complete_eq]

theorem cmp2_poison {s : State} {frm : Form} {d a b : Nat} {f : Word → Word → Bool} (h : s.there [a, b] = true)
    (hp : ((s.me.getG a).p || (s.me.getG b).p) = true) :
    s.cmp2 frm d a b f = .next (s.trapAt s.cur cPOISON_CONSUMED (frm.tv s.me.latch)) := by
  rw [State.cmp2, reading_there h]; simp only [hp, if_true]; rfl

theorem cmp1_eq {s : State} {frm : Form} {d a : Nat} {f : Word → Bool} (h : s.there [a] = true) (ha : (s.me.getG a).p = false) :
    s.cmp1 frm d a f = .next (s.setMe ((s.me.setG d ⟨wd (b2n (f (s.me.getG a).v)), false⟩).advance frm.len)) := by
  rw [State.cmp1, reading_there h]; simp [ha, complete_eq]

theorem cmp1_poison {s : State} {frm : Form} {d a : Nat} {f : Word → Bool} (h : s.there [a] = true) (ha : (s.me.getG a).p = true) :
    s.cmp1 frm d a f = .next (s.trapAt s.cur cPOISON_CONSUMED (frm.tv s.me.latch)) := by
  rw [State.cmp1, reading_there h]; simp only [ha, if_true]; rfl

theorem transfer_ok {s : State} {frm : Form} {c : Ctx} {target : Word} (h : targetFault target = none) :
    s.transfer frm c target = .next (s.setMe { c with pc := target }) := by simp [State.transfer, h]
theorem transfer_bad {s : State} {frm : Form} {c : Ctx} {target : Word} {cause : Nat} (h : targetFault target = some cause) :
    s.transfer frm c target = .next (s.trapAt s.cur cause (frm.tv target)) := by simp [State.transfer, h, trap_eq]

theorem branch2_taken {s : State} {frm : Form} {a b : Nat} {off : Word} {taken : Word → Word → Bool} (h : s.there [a, b] = true)
    (ha : (s.me.getG a).p = false) (hb : (s.me.getG b).p = false) (ht : taken (s.me.getG a).v (s.me.getG b).v = true) :
    s.branch2 frm a b off taken = s.transfer frm s.me (halfwordsOn s.me.pc off) := by
  rw [State.branch2, reading_there h]; simp [ha, hb, ht]

theorem branch2_falls {s : State} {frm : Form} {a b : Nat} {off : Word} {taken : Word → Word → Bool} (h : s.there [a, b] = true)
    (ha : (s.me.getG a).p = false) (hb : (s.me.getG b).p = false) (ht : taken (s.me.getG a).v (s.me.getG b).v = false) :
    s.branch2 frm a b off taken = .next (s.setMe (s.me.advance frm.len)) := by
  rw [State.branch2, reading_there h]; simp [ha, hb, ht, complete_eq]

theorem branch2_poison {s : State} {frm : Form} {a b : Nat} {off : Word} {taken : Word → Word → Bool} (h : s.there [a, b] = true)
    (hp : ((s.me.getG a).p || (s.me.getG b).p) = true) :
    s.branch2 frm a b off taken = .next (s.trapAt s.cur cPOISON_CONSUMED (frm.tv s.me.latch)) := by
  rw [State.branch2, reading_there h]; simp only [hp, if_true]; rfl

theorem jumpReg_clean {s : State} {frm : Form} {d a : Nat} {disp : Word} (h : s.there [a] = true) (ha : (s.me.getG a).p = false) :
    s.jumpReg frm d a disp = s.transfer frm (s.me.setG d ⟨s.me.pc + wd frm.len, false⟩) (halfwordsOn (s.me.getG a).v disp) := by
  rw [State.jumpReg, reading_there h]; simp [ha]

theorem jumpReg_poison {s : State} {frm : Form} {d a : Nat} {disp : Word} (h : s.there [a] = true) (ha : (s.me.getG a).p = true) :
    s.jumpReg frm d a disp = .next (s.trapAt s.cur cPOISON_CONSUMED (frm.tv s.me.latch)) := by
  rw [State.jumpReg, reading_there h]; simp only [ha, if_true]; rfl

/-! ### References -/

/-- The checks of R32 pass: the instruction goes on with the target, in the state that `passes` names. -/
theorem port_passes {s s' : State} {ptr tv : Word} {width : Nat} {need : Need} {k : State → Target → Out} {t : Target}
    (h : s.passes ptr width need = some (t, s')) : s.port ptr tv width need k = k s' t := by
  unfold State.passes at h
  by_cases hn : 4096 ≤ s.outstanding (tileOf s.cur)
  · simp [hn] at h
  · simp only [hn, if_false] at h
    unfold State.port State.portWith
    cases hf : s.xlateFront (tileOf s.cur) (s.partOf s.cur) ptr width with
    | error e => cases e <;> simp_all
    | ok idx =>
      simp only [hf] at h ⊢
      cases hb : s.entryFor idx with
      | none => simp [hb] at h
      | some b =>
        simp only [hb] at h ⊢
        cases he : s.xlateEntry b.ent s.me.tenant.toNat (ptrOff ptr) width need with
        | error e => simp [he] at h
        | ok ra =>
          cases ra with
          | some ra =>
            simp only [he, Option.some.injEq, Prod.mk.injEq] at h
            obtain ⟨rfl, rfl⟩ := h
            simp only [hn, if_false]
          | none =>
            simp only [he] at h ⊢
            cases hc : s.transFor idx b.ent.gen (ptrOff ptr) with
            | none => simp [hc] at h
            | some c =>
              simp only [hc] at h ⊢
              by_cases hw : (c.nw && need.writes) = true
              · simp [hw] at h
              · rw [if_neg hw] at h
                simp only [Option.some.injEq, Prod.mk.injEq] at h
                obtain ⟨rfl, rfl⟩ := h
                simp only [hw, hn, if_false, Bool.false_eq_true]

/-- A translation that is used changes the translation cache of the tile only. -/
theorem touched_frame (s : State) (c : PCached) :
    s.touched c = s ∨ ∃ pc, s.touched c = s.setTileAt (tileOf s.cur) { s.tileAt (tileOf s.cur) with pcache := pc } := by
  unfold State.touched
  split
  · exact .inr ⟨_, rfl⟩
  · exact .inl rfl

/-- Passing the checks changes the translation cache of the tile only. -/
theorem passes_frame {s s' : State} {ptr : Word} {width : Nat} {need : Need} {t : Target} (h : s.passes ptr width need = some (t, s')) :
    s' = s ∨ ∃ pc, s' = s.setTileAt (tileOf s.cur) { s.tileAt (tileOf s.cur) with pcache := pc } := by
  unfold State.passes at h
  repeat' split at h
  all_goals first | (simp only [reduceCtorEq] at h) | skip
  all_goals (simp only [Option.some.injEq, Prod.mk.injEq] at h; obtain ⟨-, rfl⟩ := h)
  all_goals first | exact .inl rfl | exact touched_frame _ _

theorem passes_cur {s s' : State} {ptr : Word} {width : Nat} {need : Need} {t : Target} (h : s.passes ptr width need = some (t, s')) :
    s'.cur = s.cur ∧ s'.me = s.me ∧ s'.fresh = s.fresh ∧ s'.net = s.net := by
  obtain rfl | ⟨pc, rfl⟩ := passes_frame h <;> exact ⟨rfl, rfl, rfl, rfl⟩

theorem access_passes {s s' : State} {frm : Form} {keys : List Nat} {base : Nat} {disp : Word} {width : Nat} {need : Need}
    {k : State → Target → Word → Out} {t : Target} (hr : s.there (base :: keys) = true) (hp : (s.me.getG base).p = false)
    (h : s.passes (padd (s.me.getG base).v disp) width need = some (t, s')) :
    s.access frm keys base disp width need k = k s' t (padd (s.me.getG base).v disp) := by
  rw [State.access, reading_there hr]
  simp only [hp, Bool.false_eq_true, if_false]
  exact port_passes h

theorem access_poison {s : State} {frm : Form} {keys : List Nat} {base : Nat} {disp : Word} {width : Nat} {need : Need}
    {k : State → Target → Word → Out} (hr : s.there (base :: keys) = true) (hp : (s.me.getG base).p = true) :
    s.access frm keys base disp width need k = .next (s.trapAt s.cur cPOISON_CONSUMED (frm.tv s.me.latch)) := by
  rw [State.access, reading_there hr]
  simp only [hp, if_true]
  rfl

theorem issue_eq (s : State) (r : Req) : s.issue r = .next (s.sent r) := rfl
theorem issueBlocking_eq (s : State) (r : Req) : s.issueBlocking r = .next (s.sentBlocking r) := rfl
/-- The requests of one instruction leave where the port can track them all (R48). -/
theorem issueAll_eq {s : State} {rs : List Req} (len : Nat) (h : s.outstanding (tileOf s.cur) + rs.length ≤ 4096) :
    s.issueAll rs len = .next (s.sentAll rs len) := by
  rw [State.issueAll, if_neg (by omega)]; rfl

theorem portAll_passes {need : Need} {k : State → List (Word × Target) → Out} (ps : List Word) :
    ∀ {s s' : State} {done ts : List (Word × Target)}, s.passesAll need ps = some (ts, s') →
      s.portAll need done k ps = k s' (done.reverse ++ ts) := by
  induction ps with
  | nil =>
    intro s s' done ts h
    simp only [State.passesAll, Option.some.injEq, Prod.mk.injEq] at h
    obtain ⟨rfl, rfl⟩ := h
    simp [State.portAll]
  | cons p ps ih =>
    intro s s' done ts h
    simp only [State.passesAll] at h
    cases h1 : s.passes p 8 need with
    | none => simp [h1] at h
    | some x =>
      obtain ⟨t, s1⟩ := x
      simp only [h1] at h
      cases h2 : s1.passesAll need ps with
      | none => simp [h2] at h
      | some y =>
        obtain ⟨ts', s2⟩ := y
        simp only [h2, Option.some.injEq, Prod.mk.injEq] at h
        obtain ⟨rfl, rfl⟩ := h
        rw [State.portAll, port_passes h1, ih h2]
        simp

/-! ### Rows -/

theorem rowReady_mono {s : State} {rows rows' : List Nat} (h : s.rowReady rows = true) (hr : ∀ x ∈ rows', x ∈ rows) :
    s.rowReady rows' = true := by
  simp only [State.rowReady, Bool.and_eq_true, Bool.not_eq_true', Tile.loadingRow, List.any_eq_false, List.contains_iff_mem] at h ⊢
  exact ⟨h.1, fun x hx hc => h.2 x hx ⟨hc.1, hr _ hc.2⟩⟩

theorem onRow_ready {s : State} {rows : List Nat} {ty : Option AType} {k : Nat → Out} (h : s.rowReady rows = true) :
    s.onRow rows ty k = match ty with
      | some x => if s.myTile.typeOf s.boundAcc = x then k s.boundAcc else s.trap cFORMAT_MISMATCH (wd s.boundAcc)
      | none => k s.boundAcc := by
  simp only [State.rowReady, Bool.and_eq_true, decide_eq_true_eq, Bool.not_eq_true'] at h
  obtain ⟨⟨⟨h1, h2⟩, h3⟩, h4⟩ := h
  have h5 : ¬ (s.me.abind.toNat < 16) := by omega
  cases ty <;> simp [State.onRow, h5, h2, h3, h4, State.boundAcc] <;> rfl

theorem onRow_typed {s : State} {rows : List Nat} {ty : AType} {k : Nat → Out} (h : s.rowReady rows = true)
    (ht : s.myTile.typeOf s.boundAcc = ty) : s.onRow rows (some ty) k = k s.boundAcc := by rw [onRow_ready h]; exact if_pos ht

theorem onRow_untyped {s : State} {rows : List Nat} {k : Nat → Out} (h : s.rowReady rows = true) :
    s.onRow rows none k = k s.boundAcc := onRow_ready h

theorem onRow_unbound {s : State} {rows : List Nat} {ty : Option AType} {k : Nat → Out} (h : s.me.abind.toNat < 16) :
    s.onRow rows ty k = .next (s.trapAt s.cur cILLEGAL_OPERAND 0) := by simp [State.onRow, h, trap_eq]

theorem onRow_mistyped {s : State} {rows : List Nat} {ty : AType} {k : Nat → Out} (h : s.rowReady rows = true)
    (ht : s.myTile.typeOf s.boundAcc ≠ ty) :
    s.onRow rows (some ty) k = .next (s.trapAt s.cur cFORMAT_MISMATCH (wd s.boundAcc)) := by rw [onRow_ready h]; exact if_neg ht

theorem putRow_eq (s : State) (a row : Nat) (f : Nat → Elem × Bool) : s.putRow a row f = .next (s.withTile (s.myTile.setRow a row f)) := rfl

/-! ### Banks -/

/-- A reference that may be performed is performed by its kind, on a line that has been opened. -/
theorem arrive_done {s : State} {k : Nat} {p : MemOp → Bool} {f : State → Req → State} {r : Req} (h : s.net[k]? = some r) (hp : p r.op = true)
    (hm : s.mayArrive k r = true) (hk : s.draining r.owner = false) (hd : dpaLegal r.dpa = true)
    (hr : dpaLoft r.dpa = true → (s.tileAt (dpaTile r.dpa)).running = true)
    (hq : (r.op.changes && ((s.taken k).openLine r).quarantined r.dpa) = false) :
    s.arrive k p f = .next (f ((s.taken k).openLine r) r).unstall := by
  have ht : s.taken k = { s with net := s.net.eraseIdx k }.noteServed r.dpa r.rank := by
    rw [State.taken, h]
  have hl : (dpaLoft r.dpa && !((s.taken k).tileAt (dpaTile r.dpa)).running) = false := by
    cases hb : dpaLoft r.dpa with
    | false => rfl
    | true => simp only [Bool.true_and, Bool.not_eq_false', ht]; exact hr hb
  unfold State.arrive
  simp only [h, hp, hm, hk, Bool.and_self, if_true, hd, Bool.false_eq_true, if_false]
  rw [if_neg (by simp)]
  rw [← ht, if_neg (by rw [hl]; simp), if_neg (by rw [hq]; simp)]

/-- One that may not be performed yet changes nothing. -/
theorem arrive_waits {s : State} {k : Nat} {p : MemOp → Bool} {f : State → Req → State} {r : Req} (h : s.net[k]? = some r)
    (hm : s.mayArrive k r = false) : s.arrive k p f = .next s := by simp [State.arrive, h, hm]

theorem arrive_none {s : State} {k : Nat} {p : MemOp → Bool} {f : State → Req → State} (h : s.net[k]? = none) : s.arrive k p f = .next s := by
  simp [State.arrive, h]

end Sys2Proof.Laws
end

