-- ==== Sys2Proof/Laws/PerInstr.lean ====
section
/-! SUPPORT. What is shown of every constructor by itself: how long its word is. -/

namespace Sys2Proof.Laws

open Sys2Proof

set_option Elab.async false

/-- The word of an instruction that has one fits its length: a halfword, or two (R178). -/
def WordLength.Statement (i : Instr) : Prop := i.encodable = true → encode i < 2 ^ (8 * instrLen i)

theorem WordLength.mvN (x : BitVec 5) (y : BitVec 5) : WordLength.Statement (.mvN x y) := fun _ =>
  (by have := x.isLt; have := y.isLt; omega : 0 + x.toNat * 64 + y.toNat * 2 < 2 ^ 16)
theorem WordLength.liN (x : BitVec 5) (imm : BitVec 5) : WordLength.Statement (.liN x imm) := fun _ =>
  (by have := x.isLt; have := imm.isLt; omega : 1 + x.toNat * 64 + imm.toNat * 2 < 2 ^ 16)
theorem WordLength.addN (x : BitVec 5) (y : BitVec 5) : WordLength.Statement (.addN x y) := fun _ =>
  (by have := x.isLt; have := y.isLt; omega : 2048 + x.toNat * 64 + y.toNat * 2 < 2 ^ 16)
theorem WordLength.addiN (x : BitVec 5) (imm : BitVec 5) : WordLength.Statement (.addiN x imm) := fun _ =>
  (by have := x.isLt; have := imm.isLt; omega : 2049 + x.toNat * 64 + imm.toNat * 2 < 2 ^ 16)
theorem WordLength.subN (x : BitVec 5) (y : BitVec 5) : WordLength.Statement (.subN x y) := fun _ =>
  (by have := x.isLt; have := y.isLt; omega : 4096 + x.toNat * 64 + y.toNat * 2 < 2 ^ 16)
theorem WordLength.shliN (x : BitVec 5) (imm : BitVec 5) : WordLength.Statement (.shliN x imm) := fun _ =>
  (by have := x.isLt; have := imm.isLt; omega : 4097 + x.toNat * 64 + imm.toNat * 2 < 2 ^ 16)
theorem WordLength.andN (x : BitVec 5) (y : BitVec 5) : WordLength.Statement (.andN x y) := fun _ =>
  (by have := x.isLt; have := y.isLt; omega : 6144 + x.toNat * 64 + y.toNat * 2 < 2 ^ 16)
theorem WordLength.shriN (x : BitVec 5) (imm : BitVec 5) : WordLength.Statement (.shriN x imm) := fun _ =>
  (by have := x.isLt; have := imm.isLt; omega : 6145 + x.toNat * 64 + imm.toNat * 2 < 2 ^ 16)
theorem WordLength.orN (x : BitVec 5) (y : BitVec 5) : WordLength.Statement (.orN x y) := fun _ =>
  (by have := x.isLt; have := y.isLt; omega : 8192 + x.toNat * 64 + y.toNat * 2 < 2 ^ 16)
theorem WordLength.sraiN (x : BitVec 5) (imm : BitVec 5) : WordLength.Statement (.sraiN x imm) := fun _ =>
  (by have := x.isLt; have := imm.isLt; omega : 8193 + x.toNat * 64 + imm.toNat * 2 < 2 ^ 16)
theorem WordLength.xorN (x : BitVec 5) (y : BitVec 5) : WordLength.Statement (.xorN x y) := fun _ =>
  (by have := x.isLt; have := y.isLt; omega : 10240 + x.toNat * 64 + y.toNat * 2 < 2 ^ 16)
theorem WordLength.andiN (x : BitVec 5) (imm : BitVec 5) : WordLength.Statement (.andiN x imm) := fun _ =>
  (by have := x.isLt; have := imm.isLt; omega : 10241 + x.toNat * 64 + imm.toNat * 2 < 2 ^ 16)
theorem WordLength.ldN (x : BitVec 5) (y : BitVec 5) : WordLength.Statement (.ldN x y) := fun _ =>
  (by have := x.isLt; have := y.isLt; omega : 12288 + x.toNat * 64 + y.toNat * 2 < 2 ^ 16)
theorem WordLength.ldspN (x : BitVec 5) (imm : BitVec 5) : WordLength.Statement (.ldspN x imm) := fun _ =>
  (by have := x.isLt; have := imm.isLt; omega : 12289 + x.toNat * 64 + imm.toNat * 2 < 2 ^ 16)
theorem WordLength.stN (x : BitVec 5) (y : BitVec 5) : WordLength.Statement (.stN x y) := fun _ =>
  (by have := x.isLt; have := y.isLt; omega : 14336 + x.toNat * 64 + y.toNat * 2 < 2 ^ 16)
theorem WordLength.stspN (x : BitVec 5) (imm : BitVec 5) : WordLength.Statement (.stspN x imm) := fun _ =>
  (by have := x.isLt; have := imm.isLt; omega : 14337 + x.toNat * 64 + imm.toNat * 2 < 2 ^ 16)
theorem WordLength.beqzN (x : BitVec 5) (off : BitVec 6) : WordLength.Statement (.beqzN x off) := fun _ =>
  (by have := x.isLt; have := off.isLt; omega : 16384 + x.toNat * 64 + off.toNat < 2 ^ 16)
theorem WordLength.bnezN (x : BitVec 5) (off : BitVec 6) : WordLength.Statement (.bnezN x off) := fun _ =>
  (by have := x.isLt; have := off.isLt; omega : 18432 + x.toNat * 64 + off.toNat < 2 ^ 16)
theorem WordLength.jN (off : BitVec 11) : WordLength.Statement (.jN off) := fun _ =>
  (by have := off.isLt; omega : 20480 + off.toNat < 2 ^ 16)
theorem WordLength.jrN (x : BitVec 5) : WordLength.Statement (.jrN x) := fun _ =>
  (by have := x.isLt; omega : 22528 + x.toNat * 64 < 2 ^ 16)
theorem WordLength.callrN (x : BitVec 5) : WordLength.Statement (.callrN x) := fun _ =>
  (by have := x.isLt; omega : 22529 + x.toNat * 64 < 2 ^ 16)
theorem WordLength.retN : WordLength.Statement (.retN) := fun _ =>
  (by omega : 24576 < 2 ^ 16)
theorem WordLength.nopN : WordLength.Statement (.nopN) := fun _ =>
  (by omega : 24577 < 2 ^ 16)
theorem WordLength.addspN (imm : BitVec 10) : WordLength.Statement (.addspN imm) := fun _ =>
  (by have := imm.isLt; omega : 26624 + imm.toNat * 2 < 2 ^ 16)
theorem WordLength.add (d : BitVec 5) (a : BitVec 5) (b : BitVec 5) : WordLength.Statement (.add d a b) := fun _ =>
  (by have := d.isLt; have := a.isLt; have := b.isLt; omega : 32768 + d.toNat * 16 + a.toNat * 134217728 + b.toNat * 4194304 < 2 ^ 32)
theorem WordLength.sub (d : BitVec 5) (a : BitVec 5) (b : BitVec 5) : WordLength.Statement (.sub d a b) := fun _ =>
  (by have := d.isLt; have := a.isLt; have := b.isLt; omega : 32769 + d.toNat * 16 + a.toNat * 134217728 + b.toNat * 4194304 < 2 ^ 32)
theorem WordLength.and (d : BitVec 5) (a : BitVec 5) (b : BitVec 5) : WordLength.Statement (.and d a b) := fun _ =>
  (by have := d.isLt; have := a.isLt; have := b.isLt; omega : 32770 + d.toNat * 16 + a.toNat * 134217728 + b.toNat * 4194304 < 2 ^ 32)
theorem WordLength.or (d : BitVec 5) (a : BitVec 5) (b : BitVec 5) : WordLength.Statement (.or d a b) := fun _ =>
  (by have := d.isLt; have := a.isLt; have := b.isLt; omega : 32771 + d.toNat * 16 + a.toNat * 134217728 + b.toNat * 4194304 < 2 ^ 32)
theorem WordLength.xor (d : BitVec 5) (a : BitVec 5) (b : BitVec 5) : WordLength.Statement (.xor d a b) := fun _ =>
  (by have := d.isLt; have := a.isLt; have := b.isLt; omega : 32772 + d.toNat * 16 + a.toNat * 134217728 + b.toNat * 4194304 < 2 ^ 32)
theorem WordLength.andn (d : BitVec 5) (a : BitVec 5) (b : BitVec 5) : WordLength.Statement (.andn d a b) := fun _ =>
  (by have := d.isLt; have := a.isLt; have := b.isLt; omega : 32773 + d.toNat * 16 + a.toNat * 134217728 + b.toNat * 4194304 < 2 ^ 32)
theorem WordLength.shl (d : BitVec 5) (a : BitVec 5) (b : BitVec 5) : WordLength.Statement (.shl d a b) := fun _ =>
  (by have := d.isLt; have := a.isLt; have := b.isLt; omega : 32774 + d.toNat * 16 + a.toNat * 134217728 + b.toNat * 4194304 < 2 ^ 32)
theorem WordLength.shr (d : BitVec 5) (a : BitVec 5) (b : BitVec 5) : WordLength.Statement (.shr d a b) := fun _ =>
  (by have := d.isLt; have := a.isLt; have := b.isLt; omega : 32775 + d.toNat * 16 + a.toNat * 134217728 + b.toNat * 4194304 < 2 ^ 32)
theorem WordLength.sra (d : BitVec 5) (a : BitVec 5) (b : BitVec 5) : WordLength.Statement (.sra d a b) := fun _ =>
  (by have := d.isLt; have := a.isLt; have := b.isLt; omega : 32776 + d.toNat * 16 + a.toNat * 134217728 + b.toNat * 4194304 < 2 ^ 32)
theorem WordLength.mul (d : BitVec 5) (a : BitVec 5) (b : BitVec 5) : WordLength.Statement (.mul d a b) := fun _ =>
  (by have := d.isLt; have := a.isLt; have := b.isLt; omega : 32777 + d.toNat * 16 + a.toNat * 134217728 + b.toNat * 4194304 < 2 ^ 32)
theorem WordLength.mulh (d : BitVec 5) (a : BitVec 5) (b : BitVec 5) : WordLength.Statement (.mulh d a b) := fun _ =>
  (by have := d.isLt; have := a.isLt; have := b.isLt; omega : 32778 + d.toNat * 16 + a.toNat * 134217728 + b.toNat * 4194304 < 2 ^ 32)
theorem WordLength.mulhu (d : BitVec 5) (a : BitVec 5) (b : BitVec 5) : WordLength.Statement (.mulhu d a b) := fun _ =>
  (by have := d.isLt; have := a.isLt; have := b.isLt; omega : 32779 + d.toNat * 16 + a.toNat * 134217728 + b.toNat * 4194304 < 2 ^ 32)
theorem WordLength.div (d : BitVec 5) (a : BitVec 5) (b : BitVec 5) : WordLength.Statement (.div d a b) := fun _ =>
  (by have := d.isLt; have := a.isLt; have := b.isLt; omega : 32780 + d.toNat * 16 + a.toNat * 134217728 + b.toNat * 4194304 < 2 ^ 32)
theorem WordLength.divu (d : BitVec 5) (a : BitVec 5) (b : BitVec 5) : WordLength.Statement (.divu d a b) := fun _ =>
  (by have := d.isLt; have := a.isLt; have := b.isLt; omega : 32781 + d.toNat * 16 + a.toNat * 134217728 + b.toNat * 4194304 < 2 ^ 32)
theorem WordLength.rem (d : BitVec 5) (a : BitVec 5) (b : BitVec 5) : WordLength.Statement (.rem d a b) := fun _ =>
  (by have := d.isLt; have := a.isLt; have := b.isLt; omega : 32782 + d.toNat * 16 + a.toNat * 134217728 + b.toNat * 4194304 < 2 ^ 32)
theorem WordLength.remu (d : BitVec 5) (a : BitVec 5) (b : BitVec 5) : WordLength.Statement (.remu d a b) := fun _ =>
  (by have := d.isLt; have := a.isLt; have := b.isLt; omega : 32783 + d.toNat * 16 + a.toNat * 134217728 + b.toNat * 4194304 < 2 ^ 32)
theorem WordLength.slt (d : BitVec 5) (a : BitVec 5) (b : BitVec 5) : WordLength.Statement (.slt d a b) := fun _ =>
  (by have := d.isLt; have := a.isLt; have := b.isLt; omega : 33280 + d.toNat * 16 + a.toNat * 134217728 + b.toNat * 4194304 < 2 ^ 32)
theorem WordLength.sltu (d : BitVec 5) (a : BitVec 5) (b : BitVec 5) : WordLength.Statement (.sltu d a b) := fun _ =>
  (by have := d.isLt; have := a.isLt; have := b.isLt; omega : 33281 + d.toNat * 16 + a.toNat * 134217728 + b.toNat * 4194304 < 2 ^ 32)
theorem WordLength.min (d : BitVec 5) (a : BitVec 5) (b : BitVec 5) : WordLength.Statement (.min d a b) := fun _ =>
  (by have := d.isLt; have := a.isLt; have := b.isLt; omega : 33282 + d.toNat * 16 + a.toNat * 134217728 + b.toNat * 4194304 < 2 ^ 32)
theorem WordLength.max (d : BitVec 5) (a : BitVec 5) (b : BitVec 5) : WordLength.Statement (.max d a b) := fun _ =>
  (by have := d.isLt; have := a.isLt; have := b.isLt; omega : 33283 + d.toNat * 16 + a.toNat * 134217728 + b.toNat * 4194304 < 2 ^ 32)
theorem WordLength.clz (d : BitVec 5) (a : BitVec 5) : WordLength.Statement (.clz d a) := fun _ =>
  (by have := d.isLt; have := a.isLt; omega : 33284 + d.toNat * 16 + a.toNat * 134217728 < 2 ^ 32)
theorem WordLength.popc (d : BitVec 5) (a : BitVec 5) : WordLength.Statement (.popc d a) := fun _ =>
  (by have := d.isLt; have := a.isLt; omega : 33285 + d.toNat * 16 + a.toNat * 134217728 < 2 ^ 32)
theorem WordLength.addi (d : BitVec 5) (a : BitVec 5) (imm : BitVec 11) : WordLength.Statement (.addi d a imm) := fun _ =>
  (by have := d.isLt; have := a.isLt; have := imm.isLt; omega : 33792 + d.toNat * 16 + a.toNat * 134217728 + imm.toNat * 65536 < 2 ^ 32)
theorem WordLength.andi (d : BitVec 5) (a : BitVec 5) (imm : BitVec 11) : WordLength.Statement (.andi d a imm) := fun _ =>
  (by have := d.isLt; have := a.isLt; have := imm.isLt; omega : 33793 + d.toNat * 16 + a.toNat * 134217728 + imm.toNat * 65536 < 2 ^ 32)
theorem WordLength.ori (d : BitVec 5) (a : BitVec 5) (imm : BitVec 11) : WordLength.Statement (.ori d a imm) := fun _ =>
  (by have := d.isLt; have := a.isLt; have := imm.isLt; omega : 33794 + d.toNat * 16 + a.toNat * 134217728 + imm.toNat * 65536 < 2 ^ 32)
theorem WordLength.xori (d : BitVec 5) (a : BitVec 5) (imm : BitVec 11) : WordLength.Statement (.xori d a imm) := fun _ =>
  (by have := d.isLt; have := a.isLt; have := imm.isLt; omega : 33795 + d.toNat * 16 + a.toNat * 134217728 + imm.toNat * 65536 < 2 ^ 32)
theorem WordLength.slti (d : BitVec 5) (a : BitVec 5) (imm : BitVec 11) : WordLength.Statement (.slti d a imm) := fun _ =>
  (by have := d.isLt; have := a.isLt; have := imm.isLt; omega : 33796 + d.toNat * 16 + a.toNat * 134217728 + imm.toNat * 65536 < 2 ^ 32)
theorem WordLength.sltui (d : BitVec 5) (a : BitVec 5) (imm : BitVec 11) : WordLength.Statement (.sltui d a imm) := fun _ =>
  (by have := d.isLt; have := a.isLt; have := imm.isLt; omega : 33797 + d.toNat * 16 + a.toNat * 134217728 + imm.toNat * 65536 < 2 ^ 32)
theorem WordLength.shli (d : BitVec 5) (a : BitVec 5) (imm : BitVec 11) : WordLength.Statement (.shli d a imm) := fun _ =>
  (by have := d.isLt; have := a.isLt; have := imm.isLt; omega : 33798 + d.toNat * 16 + a.toNat * 134217728 + imm.toNat * 65536 < 2 ^ 32)
theorem WordLength.shri (d : BitVec 5) (a : BitVec 5) (imm : BitVec 11) : WordLength.Statement (.shri d a imm) := fun _ =>
  (by have := d.isLt; have := a.isLt; have := imm.isLt; omega : 33799 + d.toNat * 16 + a.toNat * 134217728 + imm.toNat * 65536 < 2 ^ 32)
theorem WordLength.srai (d : BitVec 5) (a : BitVec 5) (imm : BitVec 11) : WordLength.Statement (.srai d a imm) := fun _ =>
  (by have := d.isLt; have := a.isLt; have := imm.isLt; omega : 33800 + d.toNat * 16 + a.toNat * 134217728 + imm.toNat * 65536 < 2 ^ 32)
theorem WordLength.addFp32 (d : BitVec 5) (a : BitVec 5) (b : BitVec 5) : WordLength.Statement (.addFp32 d a b) := fun _ =>
  (by have := d.isLt; have := a.isLt; have := b.isLt; omega : 34304 + d.toNat * 16 + a.toNat * 134217728 + b.toNat * 4194304 < 2 ^ 32)
theorem WordLength.subFp32 (d : BitVec 5) (a : BitVec 5) (b : BitVec 5) : WordLength.Statement (.subFp32 d a b) := fun _ =>
  (by have := d.isLt; have := a.isLt; have := b.isLt; omega : 34305 + d.toNat * 16 + a.toNat * 134217728 + b.toNat * 4194304 < 2 ^ 32)
theorem WordLength.mulFp32 (d : BitVec 5) (a : BitVec 5) (b : BitVec 5) : WordLength.Statement (.mulFp32 d a b) := fun _ =>
  (by have := d.isLt; have := a.isLt; have := b.isLt; omega : 34306 + d.toNat * 16 + a.toNat * 134217728 + b.toNat * 4194304 < 2 ^ 32)
theorem WordLength.divFp32 (d : BitVec 5) (a : BitVec 5) (b : BitVec 5) : WordLength.Statement (.divFp32 d a b) := fun _ =>
  (by have := d.isLt; have := a.isLt; have := b.isLt; omega : 34307 + d.toNat * 16 + a.toNat * 134217728 + b.toNat * 4194304 < 2 ^ 32)
theorem WordLength.sqrtFp32 (d : BitVec 5) (a : BitVec 5) : WordLength.Statement (.sqrtFp32 d a) := fun _ =>
  (by have := d.isLt; have := a.isLt; omega : 34308 + d.toNat * 16 + a.toNat * 134217728 < 2 ^ 32)
theorem WordLength.minFp32 (d : BitVec 5) (a : BitVec 5) (b : BitVec 5) : WordLength.Statement (.minFp32 d a b) := fun _ =>
  (by have := d.isLt; have := a.isLt; have := b.isLt; omega : 34309 + d.toNat * 16 + a.toNat * 134217728 + b.toNat * 4194304 < 2 ^ 32)
theorem WordLength.maxFp32 (d : BitVec 5) (a : BitVec 5) (b : BitVec 5) : WordLength.Statement (.maxFp32 d a b) := fun _ =>
  (by have := d.isLt; have := a.isLt; have := b.isLt; omega : 34310 + d.toNat * 16 + a.toNat * 134217728 + b.toNat * 4194304 < 2 ^ 32)
theorem WordLength.fmaFp32 (d : BitVec 5) (a : BitVec 5) (b : BitVec 5) (c : BitVec 5) : WordLength.Statement (.fmaFp32 d a b c) := fun _ =>
  (by have := d.isLt; have := a.isLt; have := b.isLt; have := c.isLt; omega : 34311 + d.toNat * 16 + a.toNat * 134217728 + b.toNat * 4194304 + c.toNat * 131072 < 2 ^ 32)
theorem WordLength.seqFp32 (d : BitVec 5) (a : BitVec 5) (b : BitVec 5) : WordLength.Statement (.seqFp32 d a b) := fun _ =>
  (by have := d.isLt; have := a.isLt; have := b.isLt; omega : 34312 + d.toNat * 16 + a.toNat * 134217728 + b.toNat * 4194304 < 2 ^ 32)
theorem WordLength.sltFp32 (d : BitVec 5) (a : BitVec 5) (b : BitVec 5) : WordLength.Statement (.sltFp32 d a b) := fun _ =>
  (by have := d.isLt; have := a.isLt; have := b.isLt; omega : 34313 + d.toNat * 16 + a.toNat * 134217728 + b.toNat * 4194304 < 2 ^ 32)
theorem WordLength.cvtI32Fp32 (d : BitVec 5) (a : BitVec 5) : WordLength.Statement (.cvtI32Fp32 d a) := fun _ =>
  (by have := d.isLt; have := a.isLt; omega : 34314 + d.toNat * 16 + a.toNat * 134217728 < 2 ^ 32)
theorem WordLength.cvtFp32I32 (d : BitVec 5) (a : BitVec 5) : WordLength.Statement (.cvtFp32I32 d a) := fun _ =>
  (by have := d.isLt; have := a.isLt; omega : 34315 + d.toNat * 16 + a.toNat * 134217728 < 2 ^ 32)
theorem WordLength.lui (d : BitVec 5) (imm : BitVec 20) : WordLength.Statement (.lui d imm) := fun _ =>
  (by have := d.isLt; have := imm.isLt; omega : 36864 + d.toNat * 16 + imm.toNat / 16 * 65536 + imm.toNat % 16 < 2 ^ 32)
theorem WordLength.lpc (d : BitVec 5) (imm : BitVec 20) : WordLength.Statement (.lpc d imm) := fun _ =>
  (by have := d.isLt; have := imm.isLt; omega : 37376 + d.toNat * 16 + imm.toNat / 16 * 65536 + imm.toNat % 16 < 2 ^ 32)
theorem WordLength.pmk (d : BitVec 5) (a : BitVec 5) (b : BitVec 5) : WordLength.Statement (.pmk d a b) := fun _ =>
  (by have := d.isLt; have := a.isLt; have := b.isLt; omega : 37888 + d.toNat * 16 + a.toNat * 134217728 + b.toNat * 4194304 < 2 ^ 32)
theorem WordLength.pidx (d : BitVec 5) (a : BitVec 5) : WordLength.Statement (.pidx d a) := fun _ =>
  (by have := d.isLt; have := a.isLt; omega : 37889 + d.toNat * 16 + a.toNat * 134217728 < 2 ^ 32)
theorem WordLength.poff (d : BitVec 5) (a : BitVec 5) : WordLength.Statement (.poff d a) := fun _ =>
  (by have := d.isLt; have := a.isLt; omega : 37890 + d.toNat * 16 + a.toNat * 134217728 < 2 ^ 32)
theorem WordLength.padd (d : BitVec 5) (a : BitVec 5) (b : BitVec 5) : WordLength.Statement (.padd d a b) := fun _ =>
  (by have := d.isLt; have := a.isLt; have := b.isLt; omega : 37891 + d.toNat * 16 + a.toNat * 134217728 + b.toNat * 4194304 < 2 ^ 32)
theorem WordLength.bfx (d : BitVec 5) (a : BitVec 5) (b : BitVec 5) (imm : BitVec 6) : WordLength.Statement (.bfx d a b imm) := fun _ =>
  (by have := d.isLt; have := a.isLt; have := b.isLt; have := imm.isLt; omega : 38400 + d.toNat * 16 + a.toNat * 134217728 + b.toNat * 4194304 + imm.toNat * 65536 < 2 ^ 32)
theorem WordLength.bfxu (d : BitVec 5) (a : BitVec 5) (b : BitVec 5) (imm : BitVec 6) : WordLength.Statement (.bfxu d a b imm) := fun _ =>
  (by have := d.isLt; have := a.isLt; have := b.isLt; have := imm.isLt; omega : 38401 + d.toNat * 16 + a.toNat * 134217728 + b.toNat * 4194304 + imm.toNat * 65536 < 2 ^ 32)
theorem WordLength.bfi (d : BitVec 5) (a : BitVec 5) (b : BitVec 5) (imm : BitVec 6) : WordLength.Statement (.bfi d a b imm) := fun _ =>
  (by have := d.isLt; have := a.isLt; have := b.isLt; have := imm.isLt; omega : 38402 + d.toNat * 16 + a.toNat * 134217728 + b.toNat * 4194304 + imm.toNat * 65536 < 2 ^ 32)
theorem WordLength.brEq (a : BitVec 5) (b : BitVec 5) (off : BitVec 11) : WordLength.Statement (.brEq a b off) := fun _ =>
  (by have := a.isLt; have := b.isLt; have := off.isLt; omega : 38912 + a.toNat * 16 + b.toNat * 134217728 + off.toNat * 65536 < 2 ^ 32)
theorem WordLength.brNe (a : BitVec 5) (b : BitVec 5) (off : BitVec 11) : WordLength.Statement (.brNe a b off) := fun _ =>
  (by have := a.isLt; have := b.isLt; have := off.isLt; omega : 38913 + a.toNat * 16 + b.toNat * 134217728 + off.toNat * 65536 < 2 ^ 32)
theorem WordLength.brLt (a : BitVec 5) (b : BitVec 5) (off : BitVec 11) : WordLength.Statement (.brLt a b off) := fun _ =>
  (by have := a.isLt; have := b.isLt; have := off.isLt; omega : 38914 + a.toNat * 16 + b.toNat * 134217728 + off.toNat * 65536 < 2 ^ 32)
theorem WordLength.brGe (a : BitVec 5) (b : BitVec 5) (off : BitVec 11) : WordLength.Statement (.brGe a b off) := fun _ =>
  (by have := a.isLt; have := b.isLt; have := off.isLt; omega : 38915 + a.toNat * 16 + b.toNat * 134217728 + off.toNat * 65536 < 2 ^ 32)
theorem WordLength.brLtu (a : BitVec 5) (b : BitVec 5) (off : BitVec 11) : WordLength.Statement (.brLtu a b off) := fun _ =>
  (by have := a.isLt; have := b.isLt; have := off.isLt; omega : 38916 + a.toNat * 16 + b.toNat * 134217728 + off.toNat * 65536 < 2 ^ 32)
theorem WordLength.brGeu (a : BitVec 5) (b : BitVec 5) (off : BitVec 11) : WordLength.Statement (.brGeu a b off) := fun _ =>
  (by have := a.isLt; have := b.isLt; have := off.isLt; omega : 38917 + a.toNat * 16 + b.toNat * 134217728 + off.toNat * 65536 < 2 ^ 32)
theorem WordLength.brLtz (a : BitVec 5) (off : BitVec 11) : WordLength.Statement (.brLtz a off) := fun _ =>
  (by have := a.isLt; have := off.isLt; omega : 38918 + a.toNat * 16 + off.toNat * 65536 < 2 ^ 32)
theorem WordLength.brGez (a : BitVec 5) (off : BitVec 11) : WordLength.Statement (.brGez a off) := fun _ =>
  (by have := a.isLt; have := off.isLt; omega : 38919 + a.toNat * 16 + off.toNat * 65536 < 2 ^ 32)
theorem WordLength.jmp (off : BitVec 20) : WordLength.Statement (.jmp off) := fun _ =>
  (by have := off.isLt; omega : 39424 + off.toNat / 16 * 65536 + off.toNat % 16 < 2 ^ 32)
theorem WordLength.call (d : BitVec 5) (off : BitVec 20) : WordLength.Statement (.call d off) := fun _ =>
  (by have := d.isLt; have := off.isLt; omega : 39424 + d.toNat * 16 + off.toNat / 16 * 65536 + off.toNat % 16 < 2 ^ 32)
theorem WordLength.jr (a : BitVec 5) (imm : BitVec 11) : WordLength.Statement (.jr a imm) := fun _ =>
  (by have := a.isLt; have := imm.isLt; omega : 39936 + a.toNat * 134217728 + imm.toNat * 65536 < 2 ^ 32)
theorem WordLength.callr (d : BitVec 5) (a : BitVec 5) (imm : BitVec 11) : WordLength.Statement (.callr d a imm) := fun _ =>
  (by have := d.isLt; have := a.isLt; have := imm.isLt; omega : 39936 + d.toNat * 16 + a.toNat * 134217728 + imm.toNat * 65536 < 2 ^ 32)
theorem WordLength.ret : WordLength.Statement (.ret) := fun _ =>
  (by omega : 39937 < 2 ^ 32)
theorem WordLength.loop (a : BitVec 5) (off : BitVec 11) : WordLength.Statement (.loop a off) := fun _ =>
  (by have := a.isLt; have := off.isLt; omega : 40448 + a.toNat * 16 + off.toNat * 65536 < 2 ^ 32)
theorem WordLength.ldB (d : BitVec 5) (b : BitVec 5) (off : BitVec 11) : WordLength.Statement (.ldB d b off) := fun _ =>
  (by have := d.isLt; have := b.isLt; have := off.isLt; omega : 40960 + d.toNat * 16 + b.toNat * 134217728 + off.toNat * 65536 < 2 ^ 32)
theorem WordLength.ldBz (d : BitVec 5) (b : BitVec 5) (off : BitVec 11) : WordLength.Statement (.ldBz d b off) := fun _ =>
  (by have := d.isLt; have := b.isLt; have := off.isLt; omega : 40961 + d.toNat * 16 + b.toNat * 134217728 + off.toNat * 65536 < 2 ^ 32)
theorem WordLength.ldH (d : BitVec 5) (b : BitVec 5) (off : BitVec 11) : WordLength.Statement (.ldH d b off) := fun _ =>
  (by have := d.isLt; have := b.isLt; have := off.isLt; omega : 40962 + d.toNat * 16 + b.toNat * 134217728 + off.toNat * 65536 < 2 ^ 32)
theorem WordLength.ldHz (d : BitVec 5) (b : BitVec 5) (off : BitVec 11) : WordLength.Statement (.ldHz d b off) := fun _ =>
  (by have := d.isLt; have := b.isLt; have := off.isLt; omega : 40963 + d.toNat * 16 + b.toNat * 134217728 + off.toNat * 65536 < 2 ^ 32)
theorem WordLength.ldW (d : BitVec 5) (b : BitVec 5) (off : BitVec 11) : WordLength.Statement (.ldW d b off) := fun _ =>
  (by have := d.isLt; have := b.isLt; have := off.isLt; omega : 40964 + d.toNat * 16 + b.toNat * 134217728 + off.toNat * 65536 < 2 ^ 32)
theorem WordLength.ldWz (d : BitVec 5) (b : BitVec 5) (off : BitVec 11) : WordLength.Statement (.ldWz d b off) := fun _ =>
  (by have := d.isLt; have := b.isLt; have := off.isLt; omega : 40965 + d.toNat * 16 + b.toNat * 134217728 + off.toNat * 65536 < 2 ^ 32)
theorem WordLength.ldD (d : BitVec 5) (b : BitVec 5) (off : BitVec 11) : WordLength.Statement (.ldD d b off) := fun _ =>
  (by have := d.isLt; have := b.isLt; have := off.isLt; omega : 40966 + d.toNat * 16 + b.toNat * 134217728 + off.toNat * 65536 < 2 ^ 32)
theorem WordLength.ldDWf (d : BitVec 5) (b : BitVec 5) (off : BitVec 11) : WordLength.Statement (.ldDWf d b off) := fun _ =>
  (by have := d.isLt; have := b.isLt; have := off.isLt; omega : 40967 + d.toNat * 16 + b.toNat * 134217728 + off.toNat * 65536 < 2 ^ 32)
theorem WordLength.ldDWfc (d : BitVec 5) (b : BitVec 5) (off : BitVec 11) : WordLength.Statement (.ldDWfc d b off) := fun _ =>
  (by have := d.isLt; have := b.isLt; have := off.isLt; omega : 40968 + d.toNat * 16 + b.toNat * 134217728 + off.toNat * 65536 < 2 ^ 32)
theorem WordLength.ldDWfHelp (d : BitVec 5) (b : BitVec 5) (off : BitVec 11) : WordLength.Statement (.ldDWfHelp d b off) := fun _ =>
  (by have := d.isLt; have := b.isLt; have := off.isLt; omega : 40969 + d.toNat * 16 + b.toNat * 134217728 + off.toNat * 65536 < 2 ^ 32)
theorem WordLength.ldDWfcHelp (d : BitVec 5) (b : BitVec 5) (off : BitVec 11) : WordLength.Statement (.ldDWfcHelp d b off) := fun _ =>
  (by have := d.isLt; have := b.isLt; have := off.isLt; omega : 40970 + d.toNat * 16 + b.toNat * 134217728 + off.toNat * 65536 < 2 ^ 32)
theorem WordLength.ldDPr (d : BitVec 5) (b : BitVec 5) (off : BitVec 11) : WordLength.Statement (.ldDPr d b off) := fun _ =>
  (by have := d.isLt; have := b.isLt; have := off.isLt; omega : 40971 + d.toNat * 16 + b.toNat * 134217728 + off.toNat * 65536 < 2 ^ 32)
theorem WordLength.stB (d : BitVec 5) (b : BitVec 5) (off : BitVec 11) : WordLength.Statement (.stB d b off) := fun _ =>
  (by have := d.isLt; have := b.isLt; have := off.isLt; omega : 41472 + d.toNat * 16 + b.toNat * 134217728 + off.toNat * 65536 < 2 ^ 32)
theorem WordLength.stH (d : BitVec 5) (b : BitVec 5) (off : BitVec 11) : WordLength.Statement (.stH d b off) := fun _ =>
  (by have := d.isLt; have := b.isLt; have := off.isLt; omega : 41473 + d.toNat * 16 + b.toNat * 134217728 + off.toNat * 65536 < 2 ^ 32)
theorem WordLength.stW (d : BitVec 5) (b : BitVec 5) (off : BitVec 11) : WordLength.Statement (.stW d b off) := fun _ =>
  (by have := d.isLt; have := b.isLt; have := off.isLt; omega : 41474 + d.toNat * 16 + b.toNat * 134217728 + off.toNat * 65536 < 2 ^ 32)
theorem WordLength.stD (d : BitVec 5) (b : BitVec 5) (off : BitVec 11) : WordLength.Statement (.stD d b off) := fun _ =>
  (by have := d.isLt; have := b.isLt; have := off.isLt; omega : 41475 + d.toNat * 16 + b.toNat * 134217728 + off.toNat * 65536 < 2 ^ 32)
theorem WordLength.stDSf (d : BitVec 5) (b : BitVec 5) (off : BitVec 11) : WordLength.Statement (.stDSf d b off) := fun _ =>
  (by have := d.isLt; have := b.isLt; have := off.isLt; omega : 41476 + d.toNat * 16 + b.toNat * 134217728 + off.toNat * 65536 < 2 ^ 32)
theorem WordLength.stDWe (d : BitVec 5) (b : BitVec 5) (off : BitVec 11) : WordLength.Statement (.stDWe d b off) := fun _ =>
  (by have := d.isLt; have := b.isLt; have := off.isLt; omega : 41477 + d.toNat * 16 + b.toNat * 134217728 + off.toNat * 65536 < 2 ^ 32)
theorem WordLength.ldmD (d : BitVec 5) (a : BitVec 5) (b : BitVec 5) (imm : BitVec 6) : WordLength.Statement (.ldmD d a b imm) := fun _ =>
  (by have := d.isLt; have := a.isLt; have := b.isLt; have := imm.isLt; omega : 41984 + d.toNat * 16 + a.toNat * 134217728 + b.toNat * 4194304 + imm.toNat * 65536 < 2 ^ 32)
theorem WordLength.stmD (d : BitVec 5) (a : BitVec 5) (b : BitVec 5) (imm : BitVec 6) : WordLength.Statement (.stmD d a b imm) := fun _ =>
  (by have := d.isLt; have := a.isLt; have := b.isLt; have := imm.isLt; omega : 41985 + d.toNat * 16 + a.toNat * 134217728 + b.toNat * 4194304 + imm.toNat * 65536 < 2 ^ 32)
theorem WordLength.pset (b : BitVec 5) (off : BitVec 11) : WordLength.Statement (.pset b off) := fun _ =>
  (by have := b.isLt; have := off.isLt; omega : 45056 + b.toNat * 134217728 + off.toNat * 65536 < 2 ^ 32)
theorem WordLength.pclr (b : BitVec 5) (off : BitVec 11) : WordLength.Statement (.pclr b off) := fun _ =>
  (by have := b.isLt; have := off.isLt; omega : 45057 + b.toNat * 134217728 + off.toNat * 65536 < 2 ^ 32)
theorem WordLength.pget (d : BitVec 5) (b : BitVec 5) (off : BitVec 11) : WordLength.Statement (.pget d b off) := fun _ =>
  (by have := d.isLt; have := b.isLt; have := off.isLt; omega : 45058 + d.toNat * 16 + b.toNat * 134217728 + off.toNat * 65536 < 2 ^ 32)
theorem WordLength.watch (d : BitVec 5) (b : BitVec 5) (off : BitVec 11) : WordLength.Statement (.watch d b off) := fun _ =>
  (by have := d.isLt; have := b.isLt; have := off.isLt; omega : 45059 + d.toNat * 16 + b.toNat * 134217728 + off.toNat * 65536 < 2 ^ 32)
theorem WordLength.unwatch (b : BitVec 5) (off : BitVec 11) : WordLength.Statement (.unwatch b off) := fun _ =>
  (by have := b.isLt; have := off.isLt; omega : 45060 + b.toNat * 134217728 + off.toNat * 65536 < 2 ^ 32)
theorem WordLength.fenceAcqTile : WordLength.Statement (.fenceAcqTile) := fun _ =>
  (by omega : 45568 < 2 ^ 32)
theorem WordLength.fenceAcqTower : WordLength.Statement (.fenceAcqTower) := fun _ =>
  (by omega : 45569 < 2 ^ 32)
theorem WordLength.fenceAcqPkg : WordLength.Statement (.fenceAcqPkg) := fun _ =>
  (by omega : 45570 < 2 ^ 32)
theorem WordLength.fenceAcqDom : WordLength.Statement (.fenceAcqDom) := fun _ =>
  (by omega : 45571 < 2 ^ 32)
theorem WordLength.fenceAcqWin : WordLength.Statement (.fenceAcqWin) := fun _ =>
  (by omega : 45572 < 2 ^ 32)
theorem WordLength.fenceRelTile : WordLength.Statement (.fenceRelTile) := fun _ =>
  (by omega : 45573 < 2 ^ 32)
theorem WordLength.fenceRelTower : WordLength.Statement (.fenceRelTower) := fun _ =>
  (by omega : 45574 < 2 ^ 32)
theorem WordLength.fenceRelPkg : WordLength.Statement (.fenceRelPkg) := fun _ =>
  (by omega : 45575 < 2 ^ 32)
theorem WordLength.fenceRelDom : WordLength.Statement (.fenceRelDom) := fun _ =>
  (by omega : 45576 < 2 ^ 32)
theorem WordLength.fenceRelWin : WordLength.Statement (.fenceRelWin) := fun _ =>
  (by omega : 45577 < 2 ^ 32)
theorem WordLength.fenceFullTile : WordLength.Statement (.fenceFullTile) := fun _ =>
  (by omega : 45578 < 2 ^ 32)
theorem WordLength.fenceFullTower : WordLength.Statement (.fenceFullTower) := fun _ =>
  (by omega : 45579 < 2 ^ 32)
theorem WordLength.fenceFullPkg : WordLength.Statement (.fenceFullPkg) := fun _ =>
  (by omega : 45580 < 2 ^ 32)
theorem WordLength.fenceFullDom : WordLength.Statement (.fenceFullDom) := fun _ =>
  (by omega : 45581 < 2 ^ 32)
theorem WordLength.fenceFullWin : WordLength.Statement (.fenceFullWin) := fun _ =>
  (by omega : 45582 < 2 ^ 32)
theorem WordLength.amoAdd (d : BitVec 5) (a : BitVec 5) (b : BitVec 5) : WordLength.Statement (.amoAdd d a b) := fun _ =>
  (by have := d.isLt; have := a.isLt; have := b.isLt; omega : 47104 + d.toNat * 16 + a.toNat * 134217728 + b.toNat * 4194304 < 2 ^ 32)
theorem WordLength.amoAnd (d : BitVec 5) (a : BitVec 5) (b : BitVec 5) : WordLength.Statement (.amoAnd d a b) := fun _ =>
  (by have := d.isLt; have := a.isLt; have := b.isLt; omega : 47105 + d.toNat * 16 + a.toNat * 134217728 + b.toNat * 4194304 < 2 ^ 32)
theorem WordLength.amoOr (d : BitVec 5) (a : BitVec 5) (b : BitVec 5) : WordLength.Statement (.amoOr d a b) := fun _ =>
  (by have := d.isLt; have := a.isLt; have := b.isLt; omega : 47106 + d.toNat * 16 + a.toNat * 134217728 + b.toNat * 4194304 < 2 ^ 32)
theorem WordLength.amoXor (d : BitVec 5) (a : BitVec 5) (b : BitVec 5) : WordLength.Statement (.amoXor d a b) := fun _ =>
  (by have := d.isLt; have := a.isLt; have := b.isLt; omega : 47107 + d.toNat * 16 + a.toNat * 134217728 + b.toNat * 4194304 < 2 ^ 32)
theorem WordLength.amoMin (d : BitVec 5) (a : BitVec 5) (b : BitVec 5) : WordLength.Statement (.amoMin d a b) := fun _ =>
  (by have := d.isLt; have := a.isLt; have := b.isLt; omega : 47108 + d.toNat * 16 + a.toNat * 134217728 + b.toNat * 4194304 < 2 ^ 32)
theorem WordLength.amoMax (d : BitVec 5) (a : BitVec 5) (b : BitVec 5) : WordLength.Statement (.amoMax d a b) := fun _ =>
  (by have := d.isLt; have := a.isLt; have := b.isLt; omega : 47109 + d.toNat * 16 + a.toNat * 134217728 + b.toNat * 4194304 < 2 ^ 32)
theorem WordLength.amoSwap (d : BitVec 5) (a : BitVec 5) (b : BitVec 5) : WordLength.Statement (.amoSwap d a b) := fun _ =>
  (by have := d.isLt; have := a.isLt; have := b.isLt; omega : 47110 + d.toNat * 16 + a.toNat * 134217728 + b.toNat * 4194304 < 2 ^ 32)
theorem WordLength.amoCas (d : BitVec 5) (a : BitVec 5) (b : BitVec 5) (c : BitVec 5) : WordLength.Statement (.amoCas d a b c) := fun _ =>
  (by have := d.isLt; have := a.isLt; have := b.isLt; have := c.isLt; omega : 47111 + d.toNat * 16 + a.toNat * 134217728 + b.toNat * 4194304 + c.toNat * 131072 < 2 ^ 32)
theorem WordLength.amoAddW (d : BitVec 5) (a : BitVec 5) (b : BitVec 5) : WordLength.Statement (.amoAddW d a b) := fun _ =>
  (by have := d.isLt; have := a.isLt; have := b.isLt; omega : 47112 + d.toNat * 16 + a.toNat * 134217728 + b.toNat * 4194304 < 2 ^ 32)
theorem WordLength.amoAndW (d : BitVec 5) (a : BitVec 5) (b : BitVec 5) : WordLength.Statement (.amoAndW d a b) := fun _ =>
  (by have := d.isLt; have := a.isLt; have := b.isLt; omega : 47113 + d.toNat * 16 + a.toNat * 134217728 + b.toNat * 4194304 < 2 ^ 32)
theorem WordLength.amoOrW (d : BitVec 5) (a : BitVec 5) (b : BitVec 5) : WordLength.Statement (.amoOrW d a b) := fun _ =>
  (by have := d.isLt; have := a.isLt; have := b.isLt; omega : 47114 + d.toNat * 16 + a.toNat * 134217728 + b.toNat * 4194304 < 2 ^ 32)
theorem WordLength.amoXorW (d : BitVec 5) (a : BitVec 5) (b : BitVec 5) : WordLength.Statement (.amoXorW d a b) := fun _ =>
  (by have := d.isLt; have := a.isLt; have := b.isLt; omega : 47115 + d.toNat * 16 + a.toNat * 134217728 + b.toNat * 4194304 < 2 ^ 32)
theorem WordLength.amoMinW (d : BitVec 5) (a : BitVec 5) (b : BitVec 5) : WordLength.Statement (.amoMinW d a b) := fun _ =>
  (by have := d.isLt; have := a.isLt; have := b.isLt; omega : 47116 + d.toNat * 16 + a.toNat * 134217728 + b.toNat * 4194304 < 2 ^ 32)
theorem WordLength.amoMaxW (d : BitVec 5) (a : BitVec 5) (b : BitVec 5) : WordLength.Statement (.amoMaxW d a b) := fun _ =>
  (by have := d.isLt; have := a.isLt; have := b.isLt; omega : 47117 + d.toNat * 16 + a.toNat * 134217728 + b.toNat * 4194304 < 2 ^ 32)
theorem WordLength.amoSwapW (d : BitVec 5) (a : BitVec 5) (b : BitVec 5) : WordLength.Statement (.amoSwapW d a b) := fun _ =>
  (by have := d.isLt; have := a.isLt; have := b.isLt; omega : 47118 + d.toNat * 16 + a.toNat * 134217728 + b.toNat * 4194304 < 2 ^ 32)
theorem WordLength.amoCasW (d : BitVec 5) (a : BitVec 5) (b : BitVec 5) (c : BitVec 5) : WordLength.Statement (.amoCasW d a b c) := fun _ =>
  (by have := d.isLt; have := a.isLt; have := b.isLt; have := c.isLt; omega : 47119 + d.toNat * 16 + a.toNat * 134217728 + b.toNat * 4194304 + c.toNat * 131072 < 2 ^ 32)
theorem WordLength.amoAddFp32 (d : BitVec 5) (a : BitVec 5) (b : BitVec 5) : WordLength.Statement (.amoAddFp32 d a b) := fun _ =>
  (by have := d.isLt; have := a.isLt; have := b.isLt; omega : 47616 + d.toNat * 16 + a.toNat * 134217728 + b.toNat * 4194304 < 2 ^ 32)
theorem WordLength.amoMaxFp32 (d : BitVec 5) (a : BitVec 5) (b : BitVec 5) : WordLength.Statement (.amoMaxFp32 d a b) := fun _ =>
  (by have := d.isLt; have := a.isLt; have := b.isLt; omega : 47617 + d.toNat * 16 + a.toNat * 134217728 + b.toNat * 4194304 < 2 ^ 32)
theorem WordLength.rdxInit (a : BitVec 5) : WordLength.Statement (.rdxInit a) := fun _ =>
  (by have := a.isLt; omega : 48128 + a.toNat * 134217728 < 2 ^ 32)
theorem WordLength.rdxAddFp32 (a : BitVec 5) (b : BitVec 5) : WordLength.Statement (.rdxAddFp32 a b) := fun _ =>
  (by have := a.isLt; have := b.isLt; omega : 48129 + a.toNat * 134217728 + b.toNat * 4194304 < 2 ^ 32)
theorem WordLength.rdxAddBf16 (a : BitVec 5) (b : BitVec 5) : WordLength.Statement (.rdxAddBf16 a b) := fun _ =>
  (by have := a.isLt; have := b.isLt; omega : 48130 + a.toNat * 134217728 + b.toNat * 4194304 < 2 ^ 32)
theorem WordLength.rdxRead (d : BitVec 5) (a : BitVec 5) : WordLength.Statement (.rdxRead d a) := fun _ =>
  (by have := d.isLt; have := a.isLt; omega : 48131 + d.toNat * 16 + a.toNat * 134217728 < 2 ^ 32)
theorem WordLength.spawn (a : BitVec 5) : WordLength.Statement (.spawn a) := fun _ =>
  (by have := a.isLt; omega : 49152 + a.toNat * 134217728 < 2 ^ 32)
theorem WordLength.spawnT (a : BitVec 5) (b : BitVec 5) : WordLength.Statement (.spawnT a b) := fun _ =>
  (by have := a.isLt; have := b.isLt; omega : 49153 + a.toNat * 134217728 + b.toNat * 4194304 < 2 ^ 32)
theorem WordLength.tdone (a : BitVec 5) : WordLength.Statement (.tdone a) := fun _ =>
  (by have := a.isLt; omega : 49154 + a.toNat * 134217728 < 2 ^ 32)
theorem WordLength.tyield : WordLength.Statement (.tyield) := fun _ =>
  (by omega : 49155 < 2 ^ 32)
theorem WordLength.texit : WordLength.Statement (.texit) := fun _ =>
  (by omega : 49156 < 2 ^ 32)
theorem WordLength.help (a : BitVec 5) : WordLength.Statement (.help a) := fun _ =>
  (by have := a.isLt; omega : 49157 + a.toNat * 134217728 < 2 ^ 32)
theorem WordLength.dqlen (d : BitVec 5) : WordLength.Statement (.dqlen d) := fun _ =>
  (by have := d.isLt; omega : 49158 + d.toNat * 16 < 2 ^ 32)
theorem WordLength.send (d : BitVec 5) (a : BitVec 5) (b : BitVec 5) (c : BitVec 5) : WordLength.Statement (.send d a b c) := fun _ =>
  (by have := d.isLt; have := a.isLt; have := b.isLt; have := c.isLt; omega : 49664 + d.toNat * 16 + a.toNat * 134217728 + b.toNat * 4194304 + c.toNat * 131072 < 2 ^ 32)
theorem WordLength.sendMc (d : BitVec 5) (a : BitVec 5) (b : BitVec 5) (c : BitVec 5) : WordLength.Statement (.sendMc d a b c) := fun _ =>
  (by have := d.isLt; have := a.isLt; have := b.isLt; have := c.isLt; omega : 49665 + d.toNat * 16 + a.toNat * 134217728 + b.toNat * 4194304 + c.toNat * 131072 < 2 ^ 32)
theorem WordLength.sendMb (d : BitVec 5) (a : BitVec 5) (b : BitVec 5) : WordLength.Statement (.sendMb d a b) := fun _ =>
  (by have := d.isLt; have := a.isLt; have := b.isLt; omega : 49666 + d.toNat * 16 + a.toNat * 134217728 + b.toNat * 4194304 < 2 ^ 32)
theorem WordLength.sendMbF (d : BitVec 5) (a : BitVec 5) (b : BitVec 5) : WordLength.Statement (.sendMbF d a b) := fun _ =>
  (by have := d.isLt; have := a.isLt; have := b.isLt; omega : 49667 + d.toNat * 16 + a.toNat * 134217728 + b.toNat * 4194304 < 2 ^ 32)
theorem WordLength.msgret : WordLength.Statement (.msgret) := fun _ =>
  (by omega : 49668 < 2 ^ 32)
theorem WordLength.gbar (d : BitVec 5) : WordLength.Statement (.gbar d) := fun _ =>
  (by have := d.isLt; omega : 50176 + d.toNat * 16 < 2 ^ 32)
theorem WordLength.garrive : WordLength.Statement (.garrive) := fun _ =>
  (by omega : 50177 < 2 ^ 32)
theorem WordLength.gwait (d : BitVec 5) : WordLength.Statement (.gwait d) := fun _ =>
  (by have := d.isLt; omega : 50178 + d.toNat * 16 < 2 ^ 32)
theorem WordLength.gquery (d : BitVec 5) (a : BitVec 5) : WordLength.Statement (.gquery d a) := fun _ =>
  (by have := d.isLt; have := a.isLt; omega : 50179 + d.toNat * 16 + a.toNat * 134217728 < 2 ^ 32)
theorem WordLength.gleave : WordLength.Statement (.gleave) := fun _ =>
  (by omega : 50180 < 2 ^ 32)
theorem WordLength.sborrow (d : BitVec 5) : WordLength.Statement (.sborrow d) := fun _ =>
  (by have := d.isLt; omega : 50688 + d.toNat * 16 < 2 ^ 32)
theorem WordLength.sreturn (a : BitVec 5) : WordLength.Statement (.sreturn a) := fun _ =>
  (by have := a.isLt; omega : 50689 + a.toNat * 134217728 < 2 ^ 32)
theorem WordLength.xmovTo (a : BitVec 5) (b : BitVec 5) (imm : BitVec 6) : WordLength.Statement (.xmovTo a b imm) := fun _ =>
  (by have := a.isLt; have := b.isLt; have := imm.isLt; omega : 50690 + a.toNat * 134217728 + b.toNat * 4194304 + imm.toNat * 65536 < 2 ^ 32)
theorem WordLength.xmovFrom (d : BitVec 5) (a : BitVec 5) (imm : BitVec 6) : WordLength.Statement (.xmovFrom d a imm) := fun _ =>
  (by have := d.isLt; have := a.isLt; have := imm.isLt; omega : 50691 + d.toNat * 16 + a.toNat * 134217728 + imm.toNat * 65536 < 2 ^ 32)
theorem WordLength.xmovmTo (d : BitVec 5) (a : BitVec 5) (b : BitVec 5) (imm : BitVec 6) : WordLength.Statement (.xmovmTo d a b imm) := fun _ =>
  (by have := d.isLt; have := a.isLt; have := b.isLt; have := imm.isLt; omega : 50692 + d.toNat * 16 + a.toNat * 134217728 + b.toNat * 4194304 + imm.toNat * 65536 < 2 ^ 32)
theorem WordLength.xmovmFrom (d : BitVec 5) (a : BitVec 5) (b : BitVec 5) (imm : BitVec 6) : WordLength.Statement (.xmovmFrom d a b imm) := fun _ =>
  (by have := d.isLt; have := a.isLt; have := b.isLt; have := imm.isLt; omega : 50693 + d.toNat * 16 + a.toNat * 134217728 + b.toNat * 4194304 + imm.toNat * 65536 < 2 ^ 32)
theorem WordLength.xmovxTo (a : BitVec 5) (b : BitVec 5) (imm : BitVec 6) : WordLength.Statement (.xmovxTo a b imm) := fun _ =>
  (by have := a.isLt; have := b.isLt; have := imm.isLt; omega : 50694 + a.toNat * 134217728 + b.toNat * 4194304 + imm.toNat * 65536 < 2 ^ 32)
theorem WordLength.xmovxFrom (d : BitVec 5) (a : BitVec 5) (imm : BitVec 6) : WordLength.Statement (.xmovxFrom d a imm) := fun _ =>
  (by have := d.isLt; have := a.isLt; have := imm.isLt; omega : 50695 + d.toNat * 16 + a.toNat * 134217728 + imm.toNat * 65536 < 2 ^ 32)
theorem WordLength.qput (a : BitVec 5) (imm : BitVec 6) : WordLength.Statement (.qput a imm) := fun _ =>
  (by have := a.isLt; have := imm.isLt; omega : 51200 + a.toNat * 134217728 + imm.toNat * 65536 < 2 ^ 32)
theorem WordLength.qget (d : BitVec 5) (imm : BitVec 6) : WordLength.Statement (.qget d imm) := fun _ =>
  (by have := d.isLt; have := imm.isLt; omega : 51201 + d.toNat * 16 + imm.toNat * 65536 < 2 ^ 32)
theorem WordLength.qputNb (d : BitVec 5) (a : BitVec 5) (imm : BitVec 6) : WordLength.Statement (.qputNb d a imm) := fun _ =>
  (by have := d.isLt; have := a.isLt; have := imm.isLt; omega : 51202 + d.toNat * 16 + a.toNat * 134217728 + imm.toNat * 65536 < 2 ^ 32)
theorem WordLength.qgetNb (d : BitVec 5) (imm : BitVec 6) : WordLength.Statement (.qgetNb d imm) := fun _ =>
  (by have := d.isLt; have := imm.isLt; omega : 51203 + d.toNat * 16 + imm.toNat * 65536 < 2 ^ 32)
theorem WordLength.qlen (d : BitVec 5) (imm : BitVec 6) : WordLength.Statement (.qlen d imm) := fun _ =>
  (by have := d.isLt; have := imm.isLt; omega : 51204 + d.toNat * 16 + imm.toNat * 65536 < 2 ^ 32)
theorem WordLength.vaddFp32 (d : BitVec 6) (a : BitVec 6) (b : BitVec 6) : WordLength.Statement (.vaddFp32 d a b) := fun _ =>
  (by have := d.isLt; have := a.isLt; have := b.isLt; omega : 52224 + d.toNat * 8 + a.toNat * 67108864 + b.toNat * 1048576 < 2 ^ 32)
theorem WordLength.vsubFp32 (d : BitVec 6) (a : BitVec 6) (b : BitVec 6) : WordLength.Statement (.vsubFp32 d a b) := fun _ =>
  (by have := d.isLt; have := a.isLt; have := b.isLt; omega : 117760 + d.toNat * 8 + a.toNat * 67108864 + b.toNat * 1048576 < 2 ^ 32)
theorem WordLength.vmulFp32 (d : BitVec 6) (a : BitVec 6) (b : BitVec 6) : WordLength.Statement (.vmulFp32 d a b) := fun _ =>
  (by have := d.isLt; have := a.isLt; have := b.isLt; omega : 183296 + d.toNat * 8 + a.toNat * 67108864 + b.toNat * 1048576 < 2 ^ 32)
theorem WordLength.vdivFp32 (d : BitVec 6) (a : BitVec 6) (b : BitVec 6) : WordLength.Statement (.vdivFp32 d a b) := fun _ =>
  (by have := d.isLt; have := a.isLt; have := b.isLt; omega : 248832 + d.toNat * 8 + a.toNat * 67108864 + b.toNat * 1048576 < 2 ^ 32)
theorem WordLength.vfmaFp32 (d : BitVec 6) (a : BitVec 6) (b : BitVec 6) : WordLength.Statement (.vfmaFp32 d a b) := fun _ =>
  (by have := d.isLt; have := a.isLt; have := b.isLt; omega : 314368 + d.toNat * 8 + a.toNat * 67108864 + b.toNat * 1048576 < 2 ^ 32)
theorem WordLength.vminFp32 (d : BitVec 6) (a : BitVec 6) (b : BitVec 6) : WordLength.Statement (.vminFp32 d a b) := fun _ =>
  (by have := d.isLt; have := a.isLt; have := b.isLt; omega : 379904 + d.toNat * 8 + a.toNat * 67108864 + b.toNat * 1048576 < 2 ^ 32)
theorem WordLength.vmaxFp32 (d : BitVec 6) (a : BitVec 6) (b : BitVec 6) : WordLength.Statement (.vmaxFp32 d a b) := fun _ =>
  (by have := d.isLt; have := a.isLt; have := b.isLt; omega : 445440 + d.toNat * 8 + a.toNat * 67108864 + b.toNat * 1048576 < 2 ^ 32)
theorem WordLength.vabsFp32 (d : BitVec 6) (a : BitVec 6) : WordLength.Statement (.vabsFp32 d a) := fun _ =>
  (by have := d.isLt; have := a.isLt; omega : 510976 + d.toNat * 8 + a.toNat * 67108864 < 2 ^ 32)
theorem WordLength.vnegFp32 (d : BitVec 6) (a : BitVec 6) : WordLength.Statement (.vnegFp32 d a) := fun _ =>
  (by have := d.isLt; have := a.isLt; omega : 576512 + d.toNat * 8 + a.toNat * 67108864 < 2 ^ 32)
theorem WordLength.vreluFp32 (d : BitVec 6) (a : BitVec 6) : WordLength.Statement (.vreluFp32 d a) := fun _ =>
  (by have := d.isLt; have := a.isLt; omega : 642048 + d.toNat * 8 + a.toNat * 67108864 < 2 ^ 32)
theorem WordLength.vaddbFp32 (d : BitVec 6) (a : BitVec 6) (b : BitVec 6) : WordLength.Statement (.vaddbFp32 d a b) := fun _ =>
  (by have := d.isLt; have := a.isLt; have := b.isLt; omega : 707584 + d.toNat * 8 + a.toNat * 67108864 + b.toNat * 1048576 < 2 ^ 32)
theorem WordLength.vmulbFp32 (d : BitVec 6) (a : BitVec 6) (b : BitVec 6) : WordLength.Statement (.vmulbFp32 d a b) := fun _ =>
  (by have := d.isLt; have := a.isLt; have := b.isLt; omega : 773120 + d.toNat * 8 + a.toNat * 67108864 + b.toNat * 1048576 < 2 ^ 32)
theorem WordLength.vaddBf16 (d : BitVec 6) (a : BitVec 6) (b : BitVec 6) : WordLength.Statement (.vaddBf16 d a b) := fun _ =>
  (by have := d.isLt; have := a.isLt; have := b.isLt; omega : 52736 + d.toNat * 8 + a.toNat * 67108864 + b.toNat * 1048576 < 2 ^ 32)
theorem WordLength.vsubBf16 (d : BitVec 6) (a : BitVec 6) (b : BitVec 6) : WordLength.Statement (.vsubBf16 d a b) := fun _ =>
  (by have := d.isLt; have := a.isLt; have := b.isLt; omega : 118272 + d.toNat * 8 + a.toNat * 67108864 + b.toNat * 1048576 < 2 ^ 32)
theorem WordLength.vmulBf16 (d : BitVec 6) (a : BitVec 6) (b : BitVec 6) : WordLength.Statement (.vmulBf16 d a b) := fun _ =>
  (by have := d.isLt; have := a.isLt; have := b.isLt; omega : 183808 + d.toNat * 8 + a.toNat * 67108864 + b.toNat * 1048576 < 2 ^ 32)
theorem WordLength.vfmaBf16 (d : BitVec 6) (a : BitVec 6) (b : BitVec 6) : WordLength.Statement (.vfmaBf16 d a b) := fun _ =>
  (by have := d.isLt; have := a.isLt; have := b.isLt; omega : 249344 + d.toNat * 8 + a.toNat * 67108864 + b.toNat * 1048576 < 2 ^ 32)
theorem WordLength.vminBf16 (d : BitVec 6) (a : BitVec 6) (b : BitVec 6) : WordLength.Statement (.vminBf16 d a b) := fun _ =>
  (by have := d.isLt; have := a.isLt; have := b.isLt; omega : 314880 + d.toNat * 8 + a.toNat * 67108864 + b.toNat * 1048576 < 2 ^ 32)
theorem WordLength.vmaxBf16 (d : BitVec 6) (a : BitVec 6) (b : BitVec 6) : WordLength.Statement (.vmaxBf16 d a b) := fun _ =>
  (by have := d.isLt; have := a.isLt; have := b.isLt; omega : 380416 + d.toNat * 8 + a.toNat * 67108864 + b.toNat * 1048576 < 2 ^ 32)
theorem WordLength.vreluBf16 (d : BitVec 6) (a : BitVec 6) : WordLength.Statement (.vreluBf16 d a) := fun _ =>
  (by have := d.isLt; have := a.isLt; omega : 445952 + d.toNat * 8 + a.toNat * 67108864 < 2 ^ 32)
theorem WordLength.vaddI32 (d : BitVec 6) (a : BitVec 6) (b : BitVec 6) : WordLength.Statement (.vaddI32 d a b) := fun _ =>
  (by have := d.isLt; have := a.isLt; have := b.isLt; omega : 53248 + d.toNat * 8 + a.toNat * 67108864 + b.toNat * 1048576 < 2 ^ 32)
theorem WordLength.vsubI32 (d : BitVec 6) (a : BitVec 6) (b : BitVec 6) : WordLength.Statement (.vsubI32 d a b) := fun _ =>
  (by have := d.isLt; have := a.isLt; have := b.isLt; omega : 118784 + d.toNat * 8 + a.toNat * 67108864 + b.toNat * 1048576 < 2 ^ 32)
theorem WordLength.vmulI32 (d : BitVec 6) (a : BitVec 6) (b : BitVec 6) : WordLength.Statement (.vmulI32 d a b) := fun _ =>
  (by have := d.isLt; have := a.isLt; have := b.isLt; omega : 184320 + d.toNat * 8 + a.toNat * 67108864 + b.toNat * 1048576 < 2 ^ 32)
theorem WordLength.vminI32 (d : BitVec 6) (a : BitVec 6) (b : BitVec 6) : WordLength.Statement (.vminI32 d a b) := fun _ =>
  (by have := d.isLt; have := a.isLt; have := b.isLt; omega : 249856 + d.toNat * 8 + a.toNat * 67108864 + b.toNat * 1048576 < 2 ^ 32)
theorem WordLength.vmaxI32 (d : BitVec 6) (a : BitVec 6) (b : BitVec 6) : WordLength.Statement (.vmaxI32 d a b) := fun _ =>
  (by have := d.isLt; have := a.isLt; have := b.isLt; omega : 315392 + d.toNat * 8 + a.toNat * 67108864 + b.toNat * 1048576 < 2 ^ 32)
theorem WordLength.vandI32 (d : BitVec 6) (a : BitVec 6) (b : BitVec 6) : WordLength.Statement (.vandI32 d a b) := fun _ =>
  (by have := d.isLt; have := a.isLt; have := b.isLt; omega : 380928 + d.toNat * 8 + a.toNat * 67108864 + b.toNat * 1048576 < 2 ^ 32)
theorem WordLength.vorI32 (d : BitVec 6) (a : BitVec 6) (b : BitVec 6) : WordLength.Statement (.vorI32 d a b) := fun _ =>
  (by have := d.isLt; have := a.isLt; have := b.isLt; omega : 446464 + d.toNat * 8 + a.toNat * 67108864 + b.toNat * 1048576 < 2 ^ 32)
theorem WordLength.vxorI32 (d : BitVec 6) (a : BitVec 6) (b : BitVec 6) : WordLength.Statement (.vxorI32 d a b) := fun _ =>
  (by have := d.isLt; have := a.isLt; have := b.isLt; omega : 512000 + d.toNat * 8 + a.toNat * 67108864 + b.toNat * 1048576 < 2 ^ 32)
theorem WordLength.vshlI32 (d : BitVec 6) (a : BitVec 6) (b : BitVec 6) : WordLength.Statement (.vshlI32 d a b) := fun _ =>
  (by have := d.isLt; have := a.isLt; have := b.isLt; omega : 577536 + d.toNat * 8 + a.toNat * 67108864 + b.toNat * 1048576 < 2 ^ 32)
theorem WordLength.vsraI32 (d : BitVec 6) (a : BitVec 6) (b : BitVec 6) : WordLength.Statement (.vsraI32 d a b) := fun _ =>
  (by have := d.isLt; have := a.isLt; have := b.isLt; omega : 643072 + d.toNat * 8 + a.toNat * 67108864 + b.toNat * 1048576 < 2 ^ 32)
theorem WordLength.vreluI32 (d : BitVec 6) (a : BitVec 6) : WordLength.Statement (.vreluI32 d a) := fun _ =>
  (by have := d.isLt; have := a.isLt; omega : 708608 + d.toNat * 8 + a.toNat * 67108864 < 2 ^ 32)
theorem WordLength.vexpFp32 (d : BitVec 6) (a : BitVec 6) : WordLength.Statement (.vexpFp32 d a) := fun _ =>
  (by have := d.isLt; have := a.isLt; omega : 53760 + d.toNat * 8 + a.toNat * 67108864 < 2 ^ 32)
theorem WordLength.vlogFp32 (d : BitVec 6) (a : BitVec 6) : WordLength.Statement (.vlogFp32 d a) := fun _ =>
  (by have := d.isLt; have := a.isLt; omega : 119296 + d.toNat * 8 + a.toNat * 67108864 < 2 ^ 32)
theorem WordLength.vrcpFp32 (d : BitVec 6) (a : BitVec 6) : WordLength.Statement (.vrcpFp32 d a) := fun _ =>
  (by have := d.isLt; have := a.isLt; omega : 184832 + d.toNat * 8 + a.toNat * 67108864 < 2 ^ 32)
theorem WordLength.vrsqrtFp32 (d : BitVec 6) (a : BitVec 6) : WordLength.Statement (.vrsqrtFp32 d a) := fun _ =>
  (by have := d.isLt; have := a.isLt; omega : 250368 + d.toNat * 8 + a.toNat * 67108864 < 2 ^ 32)
theorem WordLength.vsqrtFp32 (d : BitVec 6) (a : BitVec 6) : WordLength.Statement (.vsqrtFp32 d a) := fun _ =>
  (by have := d.isLt; have := a.isLt; omega : 315904 + d.toNat * 8 + a.toNat * 67108864 < 2 ^ 32)
theorem WordLength.vtanhFp32 (d : BitVec 6) (a : BitVec 6) : WordLength.Statement (.vtanhFp32 d a) := fun _ =>
  (by have := d.isLt; have := a.isLt; omega : 381440 + d.toNat * 8 + a.toNat * 67108864 < 2 ^ 32)
theorem WordLength.vsigmFp32 (d : BitVec 6) (a : BitVec 6) : WordLength.Statement (.vsigmFp32 d a) := fun _ =>
  (by have := d.isLt; have := a.isLt; omega : 446976 + d.toNat * 8 + a.toNat * 67108864 < 2 ^ 32)
theorem WordLength.vcmpEqFp32 (d : BitVec 6) (a : BitVec 6) (b : BitVec 6) : WordLength.Statement (.vcmpEqFp32 d a b) := fun _ =>
  (by have := d.isLt; have := a.isLt; have := b.isLt; omega : 54272 + d.toNat * 8 + a.toNat * 67108864 + b.toNat * 1048576 < 2 ^ 32)
theorem WordLength.vcmpLtFp32 (d : BitVec 6) (a : BitVec 6) (b : BitVec 6) : WordLength.Statement (.vcmpLtFp32 d a b) := fun _ =>
  (by have := d.isLt; have := a.isLt; have := b.isLt; omega : 119808 + d.toNat * 8 + a.toNat * 67108864 + b.toNat * 1048576 < 2 ^ 32)
theorem WordLength.vcmpLeFp32 (d : BitVec 6) (a : BitVec 6) (b : BitVec 6) : WordLength.Statement (.vcmpLeFp32 d a b) := fun _ =>
  (by have := d.isLt; have := a.isLt; have := b.isLt; omega : 185344 + d.toNat * 8 + a.toNat * 67108864 + b.toNat * 1048576 < 2 ^ 32)
theorem WordLength.vcmpEqI32 (d : BitVec 6) (a : BitVec 6) (b : BitVec 6) : WordLength.Statement (.vcmpEqI32 d a b) := fun _ =>
  (by have := d.isLt; have := a.isLt; have := b.isLt; omega : 250880 + d.toNat * 8 + a.toNat * 67108864 + b.toNat * 1048576 < 2 ^ 32)
theorem WordLength.vcmpLtI32 (d : BitVec 6) (a : BitVec 6) (b : BitVec 6) : WordLength.Statement (.vcmpLtI32 d a b) := fun _ =>
  (by have := d.isLt; have := a.isLt; have := b.isLt; omega : 316416 + d.toNat * 8 + a.toNat * 67108864 + b.toNat * 1048576 < 2 ^ 32)
theorem WordLength.vsel (d : BitVec 6) (a : BitVec 6) (b : BitVec 6) : WordLength.Statement (.vsel d a b) := fun _ =>
  (by have := d.isLt; have := a.isLt; have := b.isLt; omega : 381952 + d.toNat * 8 + a.toNat * 67108864 + b.toNat * 1048576 < 2 ^ 32)
theorem WordLength.vsumFp32 (d : BitVec 6) (a : BitVec 6) : WordLength.Statement (.vsumFp32 d a) := fun _ =>
  (by have := d.isLt; have := a.isLt; omega : 54784 + d.toNat * 8 + a.toNat * 67108864 < 2 ^ 32)
theorem WordLength.vsumI32 (d : BitVec 6) (a : BitVec 6) : WordLength.Statement (.vsumI32 d a) := fun _ =>
  (by have := d.isLt; have := a.isLt; omega : 120320 + d.toNat * 8 + a.toNat * 67108864 < 2 ^ 32)
theorem WordLength.vmaxrFp32 (d : BitVec 6) (a : BitVec 6) : WordLength.Statement (.vmaxrFp32 d a) := fun _ =>
  (by have := d.isLt; have := a.isLt; omega : 185856 + d.toNat * 8 + a.toNat * 67108864 < 2 ^ 32)
theorem WordLength.vbcast (d : BitVec 6) (a : BitVec 6) : WordLength.Statement (.vbcast d a) := fun _ =>
  (by have := d.isLt; have := a.isLt; omega : 251392 + d.toNat * 8 + a.toNat * 67108864 < 2 ^ 32)
theorem WordLength.vget (d : BitVec 6) (a : BitVec 6) (b : BitVec 6) : WordLength.Statement (.vget d a b) := fun _ =>
  (by have := d.isLt; have := a.isLt; have := b.isLt; omega : 316928 + d.toNat * 8 + a.toNat * 67108864 + b.toNat * 1048576 < 2 ^ 32)
theorem WordLength.vset (d : BitVec 6) (a : BitVec 6) (b : BitVec 6) : WordLength.Statement (.vset d a b) := fun _ =>
  (by have := d.isLt; have := a.isLt; have := b.isLt; omega : 382464 + d.toNat * 8 + a.toNat * 67108864 + b.toNat * 1048576 < 2 ^ 32)
theorem WordLength.vcvtBf16Fp32 (d : BitVec 6) (a : BitVec 6) (b : BitVec 6) : WordLength.Statement (.vcvtBf16Fp32 d a b) := fun _ =>
  (by have := d.isLt; have := a.isLt; have := b.isLt; omega : 55296 + d.toNat * 8 + a.toNat * 67108864 + b.toNat * 1048576 < 2 ^ 32)
theorem WordLength.vcvtFp32Bf16 (d : BitVec 6) (a : BitVec 6) (b : BitVec 6) : WordLength.Statement (.vcvtFp32Bf16 d a b) := fun _ =>
  (by have := d.isLt; have := a.isLt; have := b.isLt; omega : 120832 + d.toNat * 8 + a.toNat * 67108864 + b.toNat * 1048576 < 2 ^ 32)
theorem WordLength.vcvtI32Fp32 (d : BitVec 6) (a : BitVec 6) : WordLength.Statement (.vcvtI32Fp32 d a) := fun _ =>
  (by have := d.isLt; have := a.isLt; omega : 186368 + d.toNat * 8 + a.toNat * 67108864 < 2 ^ 32)
theorem WordLength.vcvtFp32I32 (d : BitVec 6) (a : BitVec 6) : WordLength.Statement (.vcvtFp32I32 d a) := fun _ =>
  (by have := d.isLt; have := a.isLt; omega : 251904 + d.toNat * 8 + a.toNat * 67108864 < 2 ^ 32)
theorem WordLength.vmov (d : BitVec 6) (a : BitVec 6) : WordLength.Statement (.vmov d a) := fun _ =>
  (by have := d.isLt; have := a.isLt; omega : 317440 + d.toNat * 8 + a.toNat * 67108864 < 2 ^ 32)
theorem WordLength.vld (d : BitVec 6) (a : BitVec 6) (b : BitVec 6) : WordLength.Statement (.vld d a b) := fun _ =>
  (by have := d.isLt; have := a.isLt; have := b.isLt; omega : 55808 + d.toNat * 8 + a.toNat * 67108864 + b.toNat * 1048576 < 2 ^ 32)
theorem WordLength.vst (d : BitVec 6) (a : BitVec 6) (b : BitVec 6) : WordLength.Statement (.vst d a b) := fun _ =>
  (by have := d.isLt; have := a.isLt; have := b.isLt; omega : 121344 + d.toNat * 8 + a.toNat * 67108864 + b.toNat * 1048576 < 2 ^ 32)
theorem WordLength.abind (d : BitVec 5) : WordLength.Statement (.abind d) := fun _ =>
  (by have := d.isLt; omega : 56320 + d.toNat * 16 < 2 ^ 32)
theorem WordLength.aunbind : WordLength.Statement (.aunbind) := fun _ =>
  (by omega : 56321 < 2 ^ 32)
theorem WordLength.atypeFp32 (d : BitVec 5) : WordLength.Statement (.atypeFp32 d) := fun _ =>
  (by have := d.isLt; omega : 56322 + d.toNat * 16 < 2 ^ 32)
theorem WordLength.atypeI32 (d : BitVec 5) : WordLength.Statement (.atypeI32 d) := fun _ =>
  (by have := d.isLt; omega : 56323 + d.toNat * 16 < 2 ^ 32)
theorem WordLength.atypeBf16 (d : BitVec 5) : WordLength.Statement (.atypeBf16 d) := fun _ =>
  (by have := d.isLt; omega : 56324 + d.toNat * 16 < 2 ^ 32)
theorem WordLength.azero (d : BitVec 5) : WordLength.Statement (.azero d) := fun _ =>
  (by have := d.isLt; omega : 56325 + d.toNat * 16 < 2 ^ 32)
theorem WordLength.aqlen (d : BitVec 5) : WordLength.Statement (.aqlen d) := fun _ =>
  (by have := d.isLt; omega : 56326 + d.toNat * 16 < 2 ^ 32)
theorem WordLength.aver (d : BitVec 5) (a : BitVec 5) : WordLength.Statement (.aver d a) := fun _ =>
  (by have := d.isLt; have := a.isLt; omega : 56327 + d.toNat * 16 + a.toNat * 134217728 < 2 ^ 32)
theorem WordLength.mma (d : BitVec 5) (a : BitVec 5) : WordLength.Statement (.mma d a) := fun _ =>
  (by have := d.isLt; have := a.isLt; omega : 56832 + d.toNat * 16 + a.toNat * 134217728 < 2 ^ 32)
theorem WordLength.mmaSp6 (d : BitVec 5) (a : BitVec 5) : WordLength.Statement (.mmaSp6 d a) := fun _ =>
  (by have := d.isLt; have := a.isLt; omega : 56833 + d.toNat * 16 + a.toNat * 134217728 < 2 ^ 32)
theorem WordLength.mmaSp12 (d : BitVec 5) (a : BitVec 5) : WordLength.Statement (.mmaSp12 d a) := fun _ =>
  (by have := d.isLt; have := a.isLt; omega : 56834 + d.toNat * 16 + a.toNat * 134217728 < 2 ^ 32)
theorem WordLength.mmaZ (d : BitVec 5) (a : BitVec 5) : WordLength.Statement (.mmaZ d a) := fun _ =>
  (by have := d.isLt; have := a.isLt; omega : 56835 + d.toNat * 16 + a.toNat * 134217728 < 2 ^ 32)
theorem WordLength.await (d : BitVec 5) (a : BitVec 5) : WordLength.Statement (.await d a) := fun _ =>
  (by have := d.isLt; have := a.isLt; omega : 56836 + d.toNat * 16 + a.toNat * 134217728 < 2 ^ 32)
theorem WordLength.drain (d : BitVec 5) (a : BitVec 5) (b : BitVec 5) : WordLength.Statement (.drain d a b) := fun _ =>
  (by have := d.isLt; have := a.isLt; have := b.isLt; omega : 56837 + d.toNat * 16 + a.toNat * 134217728 + b.toNat * 4194304 < 2 ^ 32)
theorem WordLength.drainAdd (d : BitVec 5) (a : BitVec 5) (b : BitVec 5) : WordLength.Statement (.drainAdd d a b) := fun _ =>
  (by have := d.isLt; have := a.isLt; have := b.isLt; omega : 56838 + d.toNat * 16 + a.toNat * 134217728 + b.toNat * 4194304 < 2 ^ 32)
theorem WordLength.acopy (d : BitVec 5) (a : BitVec 5) (b : BitVec 5) : WordLength.Statement (.acopy d a b) := fun _ =>
  (by have := d.isLt; have := a.isLt; have := b.isLt; omega : 56839 + d.toNat * 16 + a.toNat * 134217728 + b.toNat * 4194304 < 2 ^ 32)
theorem WordLength.cpy (a : BitVec 5) (b : BitVec 5) : WordLength.Statement (.cpy a b) := fun _ =>
  (by have := a.isLt; have := b.isLt; omega : 58368 + a.toNat * 134217728 + b.toNat * 4194304 < 2 ^ 32)
theorem WordLength.cpyMm (d : BitVec 5) (a : BitVec 5) (b : BitVec 5) (imm : BitVec 6) : WordLength.Statement (.cpyMm d a b imm) := fun _ =>
  (by have := d.isLt; have := a.isLt; have := b.isLt; have := imm.isLt; omega : 58369 + d.toNat * 16 + a.toNat * 134217728 + b.toNat * 4194304 + imm.toNat * 65536 < 2 ^ 32)
theorem WordLength.cpyMc (a : BitVec 5) (b : BitVec 5) : WordLength.Statement (.cpyMc a b) := fun _ =>
  (by have := a.isLt; have := b.isLt; omega : 58370 + a.toNat * 134217728 + b.toNat * 4194304 < 2 ^ 32)
theorem WordLength.cpyMmMc (d : BitVec 5) (a : BitVec 5) (b : BitVec 5) (imm : BitVec 6) : WordLength.Statement (.cpyMmMc d a b imm) := fun _ =>
  (by have := d.isLt; have := a.isLt; have := b.isLt; have := imm.isLt; omega : 58371 + d.toNat * 16 + a.toNat * 134217728 + b.toNat * 4194304 + imm.toNat * 65536 < 2 ^ 32)
theorem WordLength.cpyAdd (a : BitVec 5) (b : BitVec 5) : WordLength.Statement (.cpyAdd a b) := fun _ =>
  (by have := a.isLt; have := b.isLt; omega : 58372 + a.toNat * 134217728 + b.toNat * 4194304 < 2 ^ 32)
theorem WordLength.cpyFill (a : BitVec 5) (b : BitVec 5) : WordLength.Statement (.cpyFill a b) := fun _ =>
  (by have := a.isLt; have := b.isLt; omega : 58373 + a.toNat * 134217728 + b.toNat * 4194304 < 2 ^ 32)
theorem WordLength.cpyKeep (a : BitVec 5) (b : BitVec 5) : WordLength.Statement (.cpyKeep a b) := fun _ =>
  (by have := a.isLt; have := b.isLt; omega : 58374 + a.toNat * 134217728 + b.toNat * 4194304 < 2 ^ 32)
theorem WordLength.cpySend (d : BitVec 5) (a : BitVec 5) (b : BitVec 5) : WordLength.Statement (.cpySend d a b) := fun _ =>
  (by have := d.isLt; have := a.isLt; have := b.isLt; omega : 58375 + d.toNat * 16 + a.toNat * 134217728 + b.toNat * 4194304 < 2 ^ 32)
theorem WordLength.cpyCancel (d : BitVec 5) (b : BitVec 5) : WordLength.Statement (.cpyCancel d b) := fun _ =>
  (by have := d.isLt; have := b.isLt; omega : 58376 + d.toNat * 16 + b.toNat * 4194304 < 2 ^ 32)
theorem WordLength.cpyQuery (d : BitVec 5) (b : BitVec 5) : WordLength.Statement (.cpyQuery d b) := fun _ =>
  (by have := d.isLt; have := b.isLt; omega : 58377 + d.toNat * 16 + b.toNat * 4194304 < 2 ^ 32)
theorem WordLength.xset (d : BitVec 5) (a : BitVec 5) (b : BitVec 5) : WordLength.Statement (.xset d a b) := fun _ =>
  (by have := d.isLt; have := a.isLt; have := b.isLt; omega : 59392 + d.toNat * 16 + a.toNat * 134217728 + b.toNat * 4194304 < 2 ^ 32)
theorem WordLength.xgetLo (d : BitVec 5) (a : BitVec 5) : WordLength.Statement (.xgetLo d a) := fun _ =>
  (by have := d.isLt; have := a.isLt; omega : 59393 + d.toNat * 16 + a.toNat * 134217728 < 2 ^ 32)
theorem WordLength.xgetHi (d : BitVec 5) (a : BitVec 5) : WordLength.Statement (.xgetHi d a) := fun _ =>
  (by have := d.isLt; have := a.isLt; omega : 59394 + d.toNat * 16 + a.toNat * 134217728 < 2 ^ 32)
theorem WordLength.xld (d : BitVec 5) (a : BitVec 5) (imm : BitVec 6) : WordLength.Statement (.xld d a imm) := fun _ =>
  (by have := d.isLt; have := a.isLt; have := imm.isLt; omega : 59395 + d.toNat * 16 + a.toNat * 134217728 + imm.toNat * 65536 < 2 ^ 32)
theorem WordLength.xst (d : BitVec 5) (a : BitVec 5) (imm : BitVec 6) : WordLength.Statement (.xst d a imm) := fun _ =>
  (by have := d.isLt; have := a.isLt; have := imm.isLt; omega : 59396 + d.toNat * 16 + a.toNat * 134217728 + imm.toNat * 65536 < 2 ^ 32)
theorem WordLength.xclr (d : BitVec 5) : WordLength.Statement (.xclr d) := fun _ =>
  (by have := d.isLt; omega : 59397 + d.toNat * 16 < 2 ^ 32)
theorem WordLength.trap (imm : BitVec 11) : WordLength.Statement (.trap imm) := fun _ =>
  (by have := imm.isLt; omega : 60416 + imm.toNat * 65536 < 2 ^ 32)
theorem WordLength.brk (imm : BitVec 11) : WordLength.Statement (.brk imm) := fun _ =>
  (by have := imm.isLt; omega : 60417 + imm.toNat * 65536 < 2 ^ 32)
theorem WordLength.tback : WordLength.Statement (.tback) := fun _ =>
  (by omega : 60418 < 2 ^ 32)
theorem WordLength.nap (a : BitVec 5) : WordLength.Statement (.nap a) := fun _ =>
  (by have := a.isLt; omega : 60419 + a.toNat * 134217728 < 2 ^ 32)
theorem WordLength.ifence : WordLength.Statement (.ifence) := fun _ =>
  (by omega : 60420 < 2 ^ 32)
theorem WordLength.cget (d : BitVec 5) (imm : BitVec 6) : WordLength.Statement (.cget d imm) := fun _ =>
  (by have := d.isLt; have := imm.isLt; omega : 60928 + d.toNat * 16 + imm.toNat * 65536 < 2 ^ 32)
theorem WordLength.cset (a : BitVec 5) (imm : BitVec 6) : WordLength.Statement (.cset a imm) := fun _ =>
  (by have := a.isLt; have := imm.isLt; omega : 60929 + a.toNat * 134217728 + imm.toNat * 65536 < 2 ^ 32)
theorem WordLength.cseti (b : BitVec 5) (imm : BitVec 6) : WordLength.Statement (.cseti b imm) := fun _ =>
  (by have := b.isLt; have := imm.isLt; omega : 60930 + b.toNat * 4194304 + imm.toNat * 65536 < 2 ^ 32)
theorem WordLength.cclr (d : BitVec 5) (a : BitVec 5) (imm : BitVec 6) : WordLength.Statement (.cclr d a imm) := fun _ =>
  (by have := d.isLt; have := a.isLt; have := imm.isLt; omega : 60931 + d.toNat * 16 + a.toNat * 134217728 + imm.toNat * 65536 < 2 ^ 32)
theorem WordLength.cbis (d : BitVec 5) (a : BitVec 5) (imm : BitVec 6) : WordLength.Statement (.cbis d a imm) := fun _ =>
  (by have := d.isLt; have := a.isLt; have := imm.isLt; omega : 60932 + d.toNat * 16 + a.toNat * 134217728 + imm.toNat * 65536 < 2 ^ 32)
theorem WordLength.hcget (d : BitVec 5) (a : BitVec 5) : WordLength.Statement (.hcget d a) := fun _ =>
  (by have := d.isLt; have := a.isLt; omega : 61440 + d.toNat * 16 + a.toNat * 134217728 < 2 ^ 32)
theorem WordLength.hcset (a : BitVec 5) (b : BitVec 5) : WordLength.Statement (.hcset a b) := fun _ =>
  (by have := a.isLt; have := b.isLt; omega : 61441 + a.toNat * 134217728 + b.toNat * 4194304 < 2 ^ 32)
theorem WordLength.hstart (d : BitVec 5) (a : BitVec 5) (b : BitVec 5) (c : BitVec 5) : WordLength.Statement (.hstart d a b c) := fun _ =>
  (by have := d.isLt; have := a.isLt; have := b.isLt; have := c.isLt; omega : 61442 + d.toNat * 16 + a.toNat * 134217728 + b.toNat * 4194304 + c.toNat * 131072 < 2 ^ 32)
theorem WordLength.hkill (d : BitVec 5) (a : BitVec 5) : WordLength.Statement (.hkill d a) := fun _ =>
  (by have := d.isLt; have := a.isLt; omega : 61443 + d.toNat * 16 + a.toNat * 134217728 < 2 ^ 32)
theorem WordLength.hrec (a : BitVec 5) : WordLength.Statement (.hrec a) := fun _ =>
  (by have := a.isLt; omega : 61444 + a.toNat * 134217728 < 2 ^ 32)
theorem WordLength.hquiesce (a : BitVec 5) : WordLength.Statement (.hquiesce a) := fun _ =>
  (by have := a.isLt; omega : 61445 + a.toNat * 134217728 < 2 ^ 32)
theorem WordLength.hpurge (d : BitVec 5) (a : BitVec 5) : WordLength.Statement (.hpurge d a) := fun _ =>
  (by have := d.isLt; have := a.isLt; omega : 61446 + d.toNat * 16 + a.toNat * 134217728 < 2 ^ 32)
theorem WordLength.hcopy (a : BitVec 5) (b : BitVec 5) (c : BitVec 5) : WordLength.Statement (.hcopy a b c) := fun _ =>
  (by have := a.isLt; have := b.isLt; have := c.isLt; omega : 61447 + a.toNat * 134217728 + b.toNat * 4194304 + c.toNat * 131072 < 2 ^ 32)
theorem WordLength.carouselIssue (tile : Nat) : WordLength.Statement (.carouselIssue tile) := fun h => nomatch h
theorem WordLength.escalation (ctx : Nat) : WordLength.Statement (.escalation ctx) := fun h => nomatch h
theorem WordLength.serviceCall (ctx : Nat) : WordLength.Statement (.serviceCall ctx) := fun h => nomatch h
theorem WordLength.sealCreate (ctx : Nat) (base : Word) (slot : Nat) (idx : Nat) : WordLength.Statement (.sealCreate ctx base slot idx) := fun h => nomatch h
theorem WordLength.sealOffer (ctx : Nat) : WordLength.Statement (.sealOffer ctx) := fun h => nomatch h
theorem WordLength.sealJoin (ctx : Nat) (idx : Nat) : WordLength.Statement (.sealJoin ctx idx) := fun h => nomatch h
theorem WordLength.sealRights (ctx : Nat) : WordLength.Statement (.sealRights ctx) := fun h => nomatch h
theorem WordLength.sealLeave (ctx : Nat) : WordLength.Statement (.sealLeave ctx) := fun h => nomatch h
theorem WordLength.sealRekey (ctx : Nat) : WordLength.Statement (.sealRekey ctx) := fun h => nomatch h
theorem WordLength.sealImport (ctx : Nat) (plain : Option (List Byte)) : WordLength.Statement (.sealImport ctx plain) := fun h => nomatch h
theorem WordLength.sealExport (ctx : Nat) (sealed : List Byte) : WordLength.Statement (.sealExport ctx sealed) := fun h => nomatch h
theorem WordLength.loftSetFormat (ctx : Nat) : WordLength.Statement (.loftSetFormat ctx) := fun h => nomatch h
theorem WordLength.loftFormatApply (ctx : Nat) : WordLength.Statement (.loftFormatApply ctx) := fun h => nomatch h
theorem WordLength.napExpiry (ctx : Nat) : WordLength.Statement (.napExpiry ctx) := fun h => nomatch h
theorem WordLength.pageWalk (tile : Nat) (k : Nat) : WordLength.Statement (.pageWalk tile k) := fun h => nomatch h
theorem WordLength.pageRequest (tile : Nat) (k : Nat) : WordLength.Statement (.pageRequest tile k) := fun h => nomatch h
theorem WordLength.pageGrant (entry : Nat) (ptes : List (Word × Word)) : WordLength.Statement (.pageGrant entry ptes) := fun h => nomatch h
theorem WordLength.pageRequestFail (entry : Nat) : WordLength.Statement (.pageRequestFail entry) := fun h => nomatch h
theorem WordLength.pageRequestTimeout (entry : Nat) : WordLength.Statement (.pageRequestTimeout entry) := fun h => nomatch h
theorem WordLength.rewalkReport (entry : Nat) (tile : Nat) : WordLength.Statement (.rewalkReport entry tile) := fun h => nomatch h
theorem WordLength.portWake (tile : Nat) (part : Nat) (idx : Nat) (page : Nat) : WordLength.Statement (.portWake tile part idx page) := fun h => nomatch h
theorem WordLength.wakeHoldExpiry (tile : Nat) : WordLength.Statement (.wakeHoldExpiry tile) := fun h => nomatch h
theorem WordLength.shootdown (k : Nat) : WordLength.Statement (.shootdown k) := fun h => nomatch h
theorem WordLength.shootdownAck (tile : Nat) : WordLength.Statement (.shootdownAck tile) := fun h => nomatch h
theorem WordLength.arriveLoad (k : Nat) : WordLength.Statement (.arriveLoad k) := fun h => nomatch h
theorem WordLength.arriveStore (k : Nat) : WordLength.Statement (.arriveStore k) := fun h => nomatch h
theorem WordLength.arriveWf (k : Nat) : WordLength.Statement (.arriveWf k) := fun h => nomatch h
theorem WordLength.arriveWfc (k : Nat) : WordLength.Statement (.arriveWfc k) := fun h => nomatch h
theorem WordLength.arriveWe (k : Nat) : WordLength.Statement (.arriveWe k) := fun h => nomatch h
theorem WordLength.arriveSf (k : Nat) : WordLength.Statement (.arriveSf k) := fun h => nomatch h
theorem WordLength.arrivePset (k : Nat) : WordLength.Statement (.arrivePset k) := fun h => nomatch h
theorem WordLength.arrivePclr (k : Nat) : WordLength.Statement (.arrivePclr k) := fun h => nomatch h
theorem WordLength.arriveHelp (k : Nat) : WordLength.Statement (.arriveHelp k) := fun h => nomatch h
theorem WordLength.arriveProbe (k : Nat) : WordLength.Statement (.arriveProbe k) := fun h => nomatch h
theorem WordLength.arrivePget (k : Nat) : WordLength.Statement (.arrivePget k) := fun h => nomatch h
theorem WordLength.arriveWatch (k : Nat) : WordLength.Statement (.arriveWatch k) := fun h => nomatch h
theorem WordLength.arriveUnwatch (k : Nat) : WordLength.Statement (.arriveUnwatch k) := fun h => nomatch h
theorem WordLength.arriveAmo (k : Nat) : WordLength.Statement (.arriveAmo k) := fun h => nomatch h
theorem WordLength.arriveRdxAdd (k : Nat) : WordLength.Statement (.arriveRdxAdd k) := fun h => nomatch h
theorem WordLength.rdxSlotRead (k : Nat) (tile : Nat) : WordLength.Statement (.rdxSlotRead k tile) := fun h => nomatch h
theorem WordLength.rdxSum (k : Nat) : WordLength.Statement (.rdxSum k) := fun h => nomatch h
theorem WordLength.refusalRetry (k : Nat) : WordLength.Statement (.refusalRetry k) := fun h => nomatch h
theorem WordLength.deadlineCheck : WordLength.Statement (.deadlineCheck) := fun h => nomatch h
theorem WordLength.cancel (ctx : Nat) : WordLength.Statement (.cancel ctx) := fun h => nomatch h
theorem WordLength.reply (k : Nat) : WordLength.Statement (.reply k) := fun h => nomatch h
theorem WordLength.quarantineLift (k : Nat) : WordLength.Statement (.quarantineLift k) := fun h => nomatch h
theorem WordLength.rekeySweepLine (slot : Nat) : WordLength.Statement (.rekeySweepLine slot) := fun h => nomatch h
theorem WordLength.rekeyComplete (slot : Nat) : WordLength.Statement (.rekeyComplete slot) := fun h => nomatch h
theorem WordLength.keyErase (slot : Nat) : WordLength.Statement (.keyErase slot) := fun h => nomatch h
theorem WordLength.matrixStart (tile : Nat) : WordLength.Statement (.matrixStart tile) := fun h => nomatch h
theorem WordLength.matrixComplete (tile : Nat) : WordLength.Statement (.matrixComplete tile) := fun h => nomatch h
theorem WordLength.staleCommand (tile : Nat) : WordLength.Statement (.staleCommand tile) := fun h => nomatch h
theorem WordLength.awaitTimeout (ctx : Nat) : WordLength.Statement (.awaitTimeout ctx) := fun h => nomatch h
theorem WordLength.drainRun (tile : Nat) : WordLength.Statement (.drainRun tile) := fun h => nomatch h
theorem WordLength.copyStart (tile : Nat) : WordLength.Statement (.copyStart tile) := fun h => nomatch h
theorem WordLength.copyElement (tile : Nat) (k : Nat) : WordLength.Statement (.copyElement tile k) := fun h => nomatch h
theorem WordLength.copyComplete (tile : Nat) (k : Nat) : WordLength.Statement (.copyComplete tile k) := fun h => nomatch h
theorem WordLength.followOnReady (tile : Nat) (k : Nat) (dst : Nat) : WordLength.Statement (.followOnReady tile k dst) := fun h => nomatch h
theorem WordLength.copyResume (tile : Nat) (k : Nat) : WordLength.Statement (.copyResume tile k) := fun h => nomatch h
theorem WordLength.pop (ctx : Nat) : WordLength.Statement (.pop ctx) := fun h => nomatch h
theorem WordLength.frameStart (k : Nat) : WordLength.Statement (.frameStart k) := fun h => nomatch h
theorem WordLength.stealAttempt (ctx : Nat) : WordLength.Statement (.stealAttempt ctx) := fun h => nomatch h
theorem WordLength.stealAnswer (ctx : Nat) : WordLength.Statement (.stealAnswer ctx) := fun h => nomatch h
theorem WordLength.stealBackoff (tile : Nat) (part : Nat) : WordLength.Statement (.stealBackoff tile part) := fun h => nomatch h
theorem WordLength.stateMark (k : Nat) : WordLength.Statement (.stateMark k) := fun h => nomatch h
theorem WordLength.helpProcedure (ctx : Nat) : WordLength.Statement (.helpProcedure ctx) := fun h => nomatch h
theorem WordLength.spawnRelease (k : Nat) : WordLength.Statement (.spawnRelease k) := fun h => nomatch h
theorem WordLength.dequeReserve (k : Nat) : WordLength.Statement (.dequeReserve k) := fun h => nomatch h
theorem WordLength.messageArrive (k : Nat) : WordLength.Statement (.messageArrive k) := fun h => nomatch h
theorem WordLength.handlerStart (ctx : Nat) : WordLength.Statement (.handlerStart ctx) := fun h => nomatch h
theorem WordLength.mailboxArrive (k : Nat) : WordLength.Statement (.mailboxArrive k) := fun h => nomatch h
theorem WordLength.gangMemberStart (k : Nat) : WordLength.Statement (.gangMemberStart k) := fun h => nomatch h
theorem WordLength.barrierReport (k : Nat) : WordLength.Statement (.barrierReport k) := fun h => nomatch h
theorem WordLength.barrierRelease (k : Nat) : WordLength.Statement (.barrierRelease k) := fun h => nomatch h
theorem WordLength.slotRotation (part : Nat) (tenant : Nat) : WordLength.Statement (.slotRotation part tenant) := fun h => nomatch h
theorem WordLength.slotSwap (ctx : Nat) : WordLength.Statement (.slotSwap ctx) := fun h => nomatch h
theorem WordLength.loftHandover (tile : Nat) (part : Nat) : WordLength.Statement (.loftHandover tile part) := fun h => nomatch h
theorem WordLength.launchAcquire (fn : Nat) : WordLength.Statement (.launchAcquire fn) := fun h => nomatch h
theorem WordLength.launchDone (k : Nat) : WordLength.Statement (.launchDone k) := fun h => nomatch h
theorem WordLength.operatingPointChange (tile : Nat) (point : Nat) : WordLength.Statement (.operatingPointChange tile point) := fun h => nomatch h
theorem WordLength.powerThrottle (point : Nat) : WordLength.Statement (.powerThrottle point) := fun h => nomatch h
theorem WordLength.thermalThrottle (point : Nat) : WordLength.Statement (.thermalThrottle point) := fun h => nomatch h
theorem WordLength.thermalReset : WordLength.Statement (.thermalReset) := fun h => nomatch h
theorem WordLength.contextStateError (ctx : Nat) : WordLength.Statement (.contextStateError ctx) := fun h => nomatch h
theorem WordLength.engineOutOfService (tile : Nat) (copy : Bool) : WordLength.Statement (.engineOutOfService tile copy) := fun h => nomatch h
theorem WordLength.dramParityAlert (tile : Nat) (bank : Nat) (index : Nat) (lines : List Nat) : WordLength.Statement (.dramParityAlert tile bank index lines) := fun h => nomatch h
theorem WordLength.sparingStart (tile : Nat) (bank : Nat) : WordLength.Statement (.sparingStart tile bank) := fun h => nomatch h
theorem WordLength.sparingRowCopy (tile : Nat) : WordLength.Statement (.sparingRowCopy tile) := fun h => nomatch h
theorem WordLength.bankRetire (tile : Nat) (bank : Nat) : WordLength.Statement (.bankRetire tile bank) := fun h => nomatch h
theorem WordLength.flitResend (link : Nat) (fails : Bool) : WordLength.Statement (.flitResend link fails) := fun h => nomatch h
theorem WordLength.endToEndResend (k : Nat) : WordLength.Statement (.endToEndResend k) := fun h => nomatch h
theorem WordLength.channelRetire (chan : Nat) : WordLength.Statement (.channelRetire chan) := fun h => nomatch h
theorem WordLength.heartbeatSend (tile : Nat) : WordLength.Statement (.heartbeatSend tile) := fun h => nomatch h
theorem WordLength.heartbeatReceive (tile : Nat) (j : Nat) (intact : Bool) : WordLength.Statement (.heartbeatReceive tile j intact) := fun h => nomatch h
theorem WordLength.judgement (tile : Nat) (crowd : BitVec 4) : WordLength.Statement (.judgement tile crowd) := fun h => nomatch h
theorem WordLength.fence (tile : Nat) : WordLength.Statement (.fence tile) := fun h => nomatch h
theorem WordLength.frameRecovery (tile : Nat) : WordLength.Statement (.frameRecovery tile) := fun h => nomatch h
theorem WordLength.selfTestEnd (tile : Nat) (passed : Bool) : WordLength.Statement (.selfTestEnd tile passed) := fun h => nomatch h
theorem WordLength.bar2PlainWrite (fn : Nat) (off : Word) (width : Nat) (value : Word) : WordLength.Statement (.bar2PlainWrite fn off width value) := fun h => nomatch h
theorem WordLength.bar2PlainRead (fn : Nat) (off : Word) (width : Nat) : WordLength.Statement (.bar2PlainRead fn off width) := fun h => nomatch h
theorem WordLength.bar2FillWrite (fn : Nat) (off : Word) (width : Nat) (value : Word) : WordLength.Statement (.bar2FillWrite fn off width value) := fun h => nomatch h
theorem WordLength.bar2StatusRead (fn : Nat) (off : Word) : WordLength.Statement (.bar2StatusRead fn off) := fun h => nomatch h
theorem WordLength.bar2ReservedAlias (fn : Nat) (off : Word) (write : Bool) : WordLength.Statement (.bar2ReservedAlias fn off write) := fun h => nomatch h
theorem WordLength.mgmtRegisterWrite (master : Nat) (fn : Nat) (off : Nat) (value : Word) : WordLength.Statement (.mgmtRegisterWrite master fn off value) := fun h => nomatch h
theorem WordLength.rmownClaim (master : Nat) : WordLength.Statement (.rmownClaim master) := fun h => nomatch h
theorem WordLength.rmownHandover (master : Nat) (target : Nat) : WordLength.Statement (.rmownHandover master target) := fun h => nomatch h
theorem WordLength.rmownAccept (master : Nat) : WordLength.Statement (.rmownAccept master) := fun h => nomatch h
theorem WordLength.rmownCancel (master : Nat) : WordLength.Statement (.rmownCancel master) := fun h => nomatch h
theorem WordLength.handoverTimeout : WordLength.Statement (.handoverTimeout) := fun h => nomatch h
theorem WordLength.i3cHeartbeat : WordLength.Statement (.i3cHeartbeat) := fun h => nomatch h
theorem WordLength.ownerLost : WordLength.Statement (.ownerLost) := fun h => nomatch h
theorem WordLength.ownerReturn : WordLength.Statement (.ownerReturn) := fun h => nomatch h
theorem WordLength.electionTimeout : WordLength.Statement (.electionTimeout) := fun h => nomatch h
theorem WordLength.vfbindWrite (master : Nat) (vf : Nat) (value : Word) : WordLength.Statement (.vfbindWrite master vf value) := fun h => nomatch h
theorem WordLength.vfEnableClear (link : Nat) : WordLength.Statement (.vfEnableClear link) := fun h => nomatch h
theorem WordLength.attestation (part : Nat) : WordLength.Statement (.attestation part) := fun h => nomatch h
theorem WordLength.eqheadWrite (fn : Nat) (value : Word) : WordLength.Statement (.eqheadWrite fn value) := fun h => nomatch h
theorem WordLength.errorRecordWrite : WordLength.Statement (.errorRecordWrite) := fun h => nomatch h
theorem WordLength.icoalTimer (fn : Nat) (vec : Nat) : WordLength.Statement (.icoalTimer fn vec) := fun h => nomatch h
theorem WordLength.msixUnmask (fn : Nat) (vec : Nat) : WordLength.Statement (.msixUnmask fn vec) := fun h => nomatch h
theorem WordLength.firmwareBoot (accepted : Bool) : WordLength.Statement (.firmwareBoot accepted) := fun h => nomatch h
theorem WordLength.powerOn : WordLength.Statement (.powerOn) := fun h => nomatch h
theorem WordLength.pcieFundamentalReset (link : Nat) : WordLength.Statement (.pcieFundamentalReset link) := fun h => nomatch h
theorem WordLength.ownerResetRequest (master : Nat) : WordLength.Statement (.ownerResetRequest master) := fun h => nomatch h
theorem WordLength.mcResetRequest : WordLength.Statement (.mcResetRequest) := fun h => nomatch h
theorem WordLength.supplyFault : WordLength.Statement (.supplyFault) := fun h => nomatch h
theorem WordLength.firmwareWatchdog : WordLength.Statement (.firmwareWatchdog) := fun h => nomatch h
theorem WordLength.tileReset (tile : Nat) (cause : Nat) : WordLength.Statement (.tileReset tile cause) := fun h => nomatch h
theorem WordLength.bufferEntryFetch (tile : Nat) (k : Nat) : WordLength.Statement (.bufferEntryFetch tile k) := fun h => nomatch h
theorem WordLength.engineSelfTestEnd (tile : Nat) : WordLength.Statement (.engineSelfTestEnd tile) := fun h => nomatch h
theorem WordLength.vfEnableSet (link : Nat) : WordLength.Statement (.vfEnableSet link) := fun h => nomatch h

end Sys2Proof.Laws
end

