-- ==== Sys2Proof/Tests/Slice0.lean ====
section
/-! SUPPORT. Small checks of the model against hand-made cases of the spec, and a witness for the hypotheses of each statement. -/

namespace Sys2Proof.Tests

open Sys2Proof Sys2Proof.Machine

set_option Elab.async false

theorem test_words_compact :
    ([
      (decodeTableWord 16 0x0264, .mvN 9 18),
      (decodeTableWord 16 0x027D, .liN 9 30),
      (decodeTableWord 16 0x0A64, .addN 9 18),
      (decodeTableWord 16 0x0A7D, .addiN 9 30),
      (decodeTableWord 16 0x1264, .subN 9 18),
      (decodeTableWord 16 0x127D, .shliN 9 30),
      (decodeTableWord 16 0x1A64, .andN 9 18),
      (decodeTableWord 16 0x1A7D, .shriN 9 30),
      (decodeTableWord 16 0x2264, .orN 9 18),
      (decodeTableWord 16 0x227D, .sraiN 9 30),
      (decodeTableWord 16 0x2A64, .xorN 9 18),
      (decodeTableWord 16 0x2A7D, .andiN 9 30),
      (decodeTableWord 16 0x3264, .ldN 9 18),
      (decodeTableWord 16 0x327D, .ldspN 9 30),
      (decodeTableWord 16 0x3A64, .stN 9 18),
      (decodeTableWord 16 0x3A7D, .stspN 9 30),
      (decodeTableWord 16 0x427D, .beqzN 9 61),
      (decodeTableWord 16 0x4A7D, .bnezN 9 61),
      (decodeTableWord 16 0x57FD, .jN 2045),
      (decodeTableWord 16 0x5A40, .jrN 9),
      (decodeTableWord 16 0x5A41, .callrN 9),
      (decodeTableWord 16 0x6000, .retN),
      (decodeTableWord 16 0x6001, .nopN),
      (decodeTableWord 16 0x6FFC, .addspN 1022)] : List (Option Instr × Instr)).all (fun x => decide (x.1 = some x.2)) = true := by decide +kernel

theorem test_words_integer :
    ([
      (decodeTableWord 32 0x11408010, .add 1 2 5),
      (decodeTableWord 32 0x11408011, .sub 1 2 5),
      (decodeTableWord 32 0x11408012, .and 1 2 5),
      (decodeTableWord 32 0x11408013, .or 1 2 5),
      (decodeTableWord 32 0x11408014, .xor 1 2 5),
      (decodeTableWord 32 0x11408015, .andn 1 2 5),
      (decodeTableWord 32 0x11408016, .shl 1 2 5),
      (decodeTableWord 32 0x11408017, .shr 1 2 5),
      (decodeTableWord 32 0x11408018, .sra 1 2 5),
      (decodeTableWord 32 0x11408019, .mul 1 2 5),
      (decodeTableWord 32 0x1140801A, .mulh 1 2 5),
      (decodeTableWord 32 0x1140801B, .mulhu 1 2 5),
      (decodeTableWord 32 0x1140801C, .div 1 2 5),
      (decodeTableWord 32 0x1140801D, .divu 1 2 5),
      (decodeTableWord 32 0x1140801E, .rem 1 2 5),
      (decodeTableWord 32 0x1140801F, .remu 1 2 5),
      (decodeTableWord 32 0x11408210, .slt 1 2 5),
      (decodeTableWord 32 0x11408211, .sltu 1 2 5),
      (decodeTableWord 32 0x11408212, .min 1 2 5),
      (decodeTableWord 32 0x11408213, .max 1 2 5),
      (decodeTableWord 32 0x10008214, .clz 1 2),
      (decodeTableWord 32 0x10008215, .popc 1 2),
      (decodeTableWord 32 0x17FE8410, .addi 1 2 2046),
      (decodeTableWord 32 0x17FE8411, .andi 1 2 2046),
      (decodeTableWord 32 0x17FE8412, .ori 1 2 2046),
      (decodeTableWord 32 0x17FE8413, .xori 1 2 2046),
      (decodeTableWord 32 0x17FE8414, .slti 1 2 2046),
      (decodeTableWord 32 0x17FE8415, .sltui 1 2 2046),
      (decodeTableWord 32 0x17FE8416, .shli 1 2 2046),
      (decodeTableWord 32 0x17FE8417, .shri 1 2 2046),
      (decodeTableWord 32 0x17FE8418, .srai 1 2 2046),
      (decodeTableWord 32 0x11408610, .addFp32 1 2 5),
      (decodeTableWord 32 0x11408611, .subFp32 1 2 5),
      (decodeTableWord 32 0x11408612, .mulFp32 1 2 5),
      (decodeTableWord 32 0x11408613, .divFp32 1 2 5),
      (decodeTableWord 32 0x10008614, .sqrtFp32 1 2),
      (decodeTableWord 32 0x11408615, .minFp32 1 2 5),
      (decodeTableWord 32 0x11408616, .maxFp32 1 2 5),
      (decodeTableWord 32 0x114E8617, .fmaFp32 1 2 5 7),
      (decodeTableWord 32 0x11408618, .seqFp32 1 2 5),
      (decodeTableWord 32 0x11408619, .sltFp32 1 2 5),
      (decodeTableWord 32 0x1000861A, .cvtI32Fp32 1 2),
      (decodeTableWord 32 0x1000861B, .cvtFp32I32 1 2),
      (decodeTableWord 32 0xFFFF901E, .lui 1 1048574),
      (decodeTableWord 32 0xFFFF921E, .lpc 1 1048574),
      (decodeTableWord 32 0x11409410, .pmk 1 2 5),
      (decodeTableWord 32 0x10009411, .pidx 1 2),
      (decodeTableWord 32 0x10009412, .poff 1 2),
      (decodeTableWord 32 0x11409413, .padd 1 2 5),
      (decodeTableWord 32 0x117E9610, .bfx 1 2 5 62),
      (decodeTableWord 32 0x117E9611, .bfxu 1 2 5 62),
      (decodeTableWord 32 0x117E9612, .bfi 1 2 5 62)] : List (Option Instr × Instr)).all (fun x => decide (x.1 = some x.2)) = true := by decide +kernel

theorem test_words_control :
    ([
      (decodeTableWord 32 0x2FFD9820, .brEq 2 5 2045),
      (decodeTableWord 32 0x2FFD9821, .brNe 2 5 2045),
      (decodeTableWord 32 0x2FFD9822, .brLt 2 5 2045),
      (decodeTableWord 32 0x2FFD9823, .brGe 2 5 2045),
      (decodeTableWord 32 0x2FFD9824, .brLtu 2 5 2045),
      (decodeTableWord 32 0x2FFD9825, .brGeu 2 5 2045),
      (decodeTableWord 32 0x07FD9826, .brLtz 2 2045),
      (decodeTableWord 32 0x07FD9827, .brGez 2 2045),
      (decodeTableWord 32 0xFFFF9A0D, .jmp 1048573),
      (decodeTableWord 32 0xFFFF9A1D, .call 1 1048573),
      (decodeTableWord 32 0x17FE9C00, .jr 2 2046),
      (decodeTableWord 32 0x17FE9C10, .callr 1 2 2046),
      (decodeTableWord 32 0x00009C01, .ret),
      (decodeTableWord 32 0x07FD9E20, .loop 2 2045)] : List (Option Instr × Instr)).all (fun x => decide (x.1 = some x.2)) = true := by decide +kernel

theorem test_words_memory :
    ([
      (decodeTableWord 32 0x2FFDA010, .ldB 1 5 2045),
      (decodeTableWord 32 0x2FFDA011, .ldBz 1 5 2045),
      (decodeTableWord 32 0x2FFDA012, .ldH 1 5 2045),
      (decodeTableWord 32 0x2FFDA013, .ldHz 1 5 2045),
      (decodeTableWord 32 0x2FFDA014, .ldW 1 5 2045),
      (decodeTableWord 32 0x2FFDA015, .ldWz 1 5 2045),
      (decodeTableWord 32 0x2FFDA016, .ldD 1 5 2045),
      (decodeTableWord 32 0x2FFDA017, .ldDWf 1 5 2045),
      (decodeTableWord 32 0x2FFDA018, .ldDWfc 1 5 2045),
      (decodeTableWord 32 0x2FFDA019, .ldDWfHelp 1 5 2045),
      (decodeTableWord 32 0x2FFDA01A, .ldDWfcHelp 1 5 2045),
      (decodeTableWord 32 0x2FFDA01B, .ldDPr 1 5 2045),
      (decodeTableWord 32 0x2FFDA210, .stB 1 5 2045),
      (decodeTableWord 32 0x2FFDA211, .stH 1 5 2045),
      (decodeTableWord 32 0x2FFDA212, .stW 1 5 2045),
      (decodeTableWord 32 0x2FFDA213, .stD 1 5 2045),
      (decodeTableWord 32 0x2FFDA214, .stDSf 1 5 2045),
      (decodeTableWord 32 0x2FFDA215, .stDWe 1 5 2045),
      (decodeTableWord 32 0x117EA410, .ldmD 1 2 5 62),
      (decodeTableWord 32 0x117EA411, .stmD 1 2 5 62),
      (decodeTableWord 32 0x2FFDB000, .pset 5 2045),
      (decodeTableWord 32 0x2FFDB001, .pclr 5 2045),
      (decodeTableWord 32 0x2FFDB012, .pget 1 5 2045),
      (decodeTableWord 32 0x2FFDB013, .watch 1 5 2045),
      (decodeTableWord 32 0x2FFDB004, .unwatch 5 2045),
      (decodeTableWord 32 0x0000B200, .fenceAcqTile),
      (decodeTableWord 32 0x0000B201, .fenceAcqTower),
      (decodeTableWord 32 0x0000B202, .fenceAcqPkg),
      (decodeTableWord 32 0x0000B203, .fenceAcqDom),
      (decodeTableWord 32 0x0000B204, .fenceAcqWin),
      (decodeTableWord 32 0x0000B205, .fenceRelTile),
      (decodeTableWord 32 0x0000B206, .fenceRelTower),
      (decodeTableWord 32 0x0000B207, .fenceRelPkg),
      (decodeTableWord 32 0x0000B208, .fenceRelDom),
      (decodeTableWord 32 0x0000B209, .fenceRelWin),
      (decodeTableWord 32 0x0000B20A, .fenceFullTile),
      (decodeTableWord 32 0x0000B20B, .fenceFullTower),
      (decodeTableWord 32 0x0000B20C, .fenceFullPkg),
      (decodeTableWord 32 0x0000B20D, .fenceFullDom),
      (decodeTableWord 32 0x0000B20E, .fenceFullWin)] : List (Option Instr × Instr)).all (fun x => decide (x.1 = some x.2)) = true := by decide +kernel

theorem test_words_atomics :
    ([
      (decodeTableWord 32 0x1140B810, .amoAdd 1 2 5),
      (decodeTableWord 32 0x1140B811, .amoAnd 1 2 5),
      (decodeTableWord 32 0x1140B812, .amoOr 1 2 5),
      (decodeTableWord 32 0x1140B813, .amoXor 1 2 5),
      (decodeTableWord 32 0x1140B814, .amoMin 1 2 5),
      (decodeTableWord 32 0x1140B815, .amoMax 1 2 5),
      (decodeTableWord 32 0x1140B816, .amoSwap 1 2 5),
      (decodeTableWord 32 0x114EB817, .amoCas 1 2 5 7),
      (decodeTableWord 32 0x1140B818, .amoAddW 1 2 5),
      (decodeTableWord 32 0x1140B819, .amoAndW 1 2 5),
      (decodeTableWord 32 0x1140B81A, .amoOrW 1 2 5),
      (decodeTableWord 32 0x1140B81B, .amoXorW 1 2 5),
      (decodeTableWord 32 0x1140B81C, .amoMinW 1 2 5),
      (decodeTableWord 32 0x1140B81D, .amoMaxW 1 2 5),
      (decodeTableWord 32 0x1140B81E, .amoSwapW 1 2 5),
      (decodeTableWord 32 0x114EB81F, .amoCasW 1 2 5 7),
      (decodeTableWord 32 0x1140BA10, .amoAddFp32 1 2 5),
      (decodeTableWord 32 0x1140BA11, .amoMaxFp32 1 2 5),
      (decodeTableWord 32 0x1000BC00, .rdxInit 2),
      (decodeTableWord 32 0x1140BC01, .rdxAddFp32 2 5),
      (decodeTableWord 32 0x1140BC02, .rdxAddBf16 2 5),
      (decodeTableWord 32 0x1000BC13, .rdxRead 1 2)] : List (Option Instr × Instr)).all (fun x => decide (x.1 = some x.2)) = true := by decide +kernel

theorem test_words_tasks :
    ([
      (decodeTableWord 32 0x1000C000, .spawn 2),
      (decodeTableWord 32 0x1140C001, .spawnT 2 5),
      (decodeTableWord 32 0x1000C002, .tdone 2),
      (decodeTableWord 32 0x0000C003, .tyield),
      (decodeTableWord 32 0x0000C004, .texit),
      (decodeTableWord 32 0x1000C005, .help 2),
      (decodeTableWord 32 0x0000C016, .dqlen 1),
      (decodeTableWord 32 0x114EC210, .send 1 2 5 7),
      (decodeTableWord 32 0x114EC211, .sendMc 1 2 5 7),
      (decodeTableWord 32 0x1140C212, .sendMb 1 2 5),
      (decodeTableWord 32 0x1140C213, .sendMbF 1 2 5),
      (decodeTableWord 32 0x0000C204, .msgret),
      (decodeTableWord 32 0x0000C410, .gbar 1),
      (decodeTableWord 32 0x0000C401, .garrive),
      (decodeTableWord 32 0x0000C412, .gwait 1),
      (decodeTableWord 32 0x1000C413, .gquery 1 2),
      (decodeTableWord 32 0x0000C404, .gleave),
      (decodeTableWord 32 0x0000C610, .sborrow 1),
      (decodeTableWord 32 0x1000C601, .sreturn 2),
      (decodeTableWord 32 0x117EC602, .xmovTo 2 5 62),
      (decodeTableWord 32 0x103EC613, .xmovFrom 1 2 62),
      (decodeTableWord 32 0x117EC614, .xmovmTo 1 2 5 62),
      (decodeTableWord 32 0x117EC615, .xmovmFrom 1 2 5 62),
      (decodeTableWord 32 0x117EC606, .xmovxTo 2 5 62),
      (decodeTableWord 32 0x103EC617, .xmovxFrom 1 2 62),
      (decodeTableWord 32 0x103EC800, .qput 2 62),
      (decodeTableWord 32 0x003EC811, .qget 1 62),
      (decodeTableWord 32 0x103EC812, .qputNb 1 2 62),
      (decodeTableWord 32 0x003EC813, .qgetNb 1 62),
      (decodeTableWord 32 0x003EC814, .qlen 1 62)] : List (Option Instr × Instr)).all (fun x => decide (x.1 = some x.2)) = true := by decide +kernel

theorem test_words_rows :
    ([
      (decodeTableWord 32 0x49D0CC48, .vaddFp32 9 18 29),
      (decodeTableWord 32 0x49D1CC48, .vsubFp32 9 18 29),
      (decodeTableWord 32 0x49D2CC48, .vmulFp32 9 18 29),
      (decodeTableWord 32 0x49D3CC48, .vdivFp32 9 18 29),
      (decodeTableWord 32 0x49D4CC48, .vfmaFp32 9 18 29),
      (decodeTableWord 32 0x49D5CC48, .vminFp32 9 18 29),
      (decodeTableWord 32 0x49D6CC48, .vmaxFp32 9 18 29),
      (decodeTableWord 32 0x4807CC48, .vabsFp32 9 18),
      (decodeTableWord 32 0x4808CC48, .vnegFp32 9 18),
      (decodeTableWord 32 0x4809CC48, .vreluFp32 9 18),
      (decodeTableWord 32 0x49DACC48, .vaddbFp32 9 18 29),
      (decodeTableWord 32 0x49DBCC48, .vmulbFp32 9 18 29),
      (decodeTableWord 32 0x49D0CE48, .vaddBf16 9 18 29),
      (decodeTableWord 32 0x49D1CE48, .vsubBf16 9 18 29),
      (decodeTableWord 32 0x49D2CE48, .vmulBf16 9 18 29),
      (decodeTableWord 32 0x49D3CE48, .vfmaBf16 9 18 29),
      (decodeTableWord 32 0x49D4CE48, .vminBf16 9 18 29),
      (decodeTableWord 32 0x49D5CE48, .vmaxBf16 9 18 29),
      (decodeTableWord 32 0x4806CE48, .vreluBf16 9 18),
      (decodeTableWord 32 0x49D0D048, .vaddI32 9 18 29),
      (decodeTableWord 32 0x49D1D048, .vsubI32 9 18 29),
      (decodeTableWord 32 0x49D2D048, .vmulI32 9 18 29),
      (decodeTableWord 32 0x49D3D048, .vminI32 9 18 29),
      (decodeTableWord 32 0x49D4D048, .vmaxI32 9 18 29),
      (decodeTableWord 32 0x49D5D048, .vandI32 9 18 29),
      (decodeTableWord 32 0x49D6D048, .vorI32 9 18 29),
      (decodeTableWord 32 0x49D7D048, .vxorI32 9 18 29),
      (decodeTableWord 32 0x49D8D048, .vshlI32 9 18 29),
      (decodeTableWord 32 0x49D9D048, .vsraI32 9 18 29),
      (decodeTableWord 32 0x480AD048, .vreluI32 9 18),
      (decodeTableWord 32 0x4800D248, .vexpFp32 9 18),
      (decodeTableWord 32 0x4801D248, .vlogFp32 9 18),
      (decodeTableWord 32 0x4802D248, .vrcpFp32 9 18),
      (decodeTableWord 32 0x4803D248, .vrsqrtFp32 9 18),
      (decodeTableWord 32 0x4804D248, .vsqrtFp32 9 18),
      (decodeTableWord 32 0x4805D248, .vtanhFp32 9 18),
      (decodeTableWord 32 0x4806D248, .vsigmFp32 9 18),
      (decodeTableWord 32 0x49D0D448, .vcmpEqFp32 9 18 29),
      (decodeTableWord 32 0x49D1D448, .vcmpLtFp32 9 18 29),
      (decodeTableWord 32 0x49D2D448, .vcmpLeFp32 9 18 29),
      (decodeTableWord 32 0x49D3D448, .vcmpEqI32 9 18 29),
      (decodeTableWord 32 0x49D4D448, .vcmpLtI32 9 18 29),
      (decodeTableWord 32 0x49D5D448, .vsel 9 18 29),
      (decodeTableWord 32 0x4800D648, .vsumFp32 9 18),
      (decodeTableWord 32 0x4801D648, .vsumI32 9 18),
      (decodeTableWord 32 0x4802D648, .vmaxrFp32 9 18),
      (decodeTableWord 32 0x4803D648, .vbcast 9 18),
      (decodeTableWord 32 0x49D4D648, .vget 9 18 29),
      (decodeTableWord 32 0x49D5D648, .vset 9 18 29),
      (decodeTableWord 32 0x49D0D848, .vcvtBf16Fp32 9 18 29),
      (decodeTableWord 32 0x49D1D848, .vcvtFp32Bf16 9 18 29),
      (decodeTableWord 32 0x4802D848, .vcvtI32Fp32 9 18),
      (decodeTableWord 32 0x4803D848, .vcvtFp32I32 9 18),
      (decodeTableWord 32 0x4804D848, .vmov 9 18),
      (decodeTableWord 32 0x49D0DA48, .vld 9 18 29),
      (decodeTableWord 32 0x49D1DA48, .vst 9 18 29)] : List (Option Instr × Instr)).all (fun x => decide (x.1 = some x.2)) = true := by decide +kernel

theorem test_words_matrix :
    ([
      (decodeTableWord 32 0x0000DC10, .abind 1),
      (decodeTableWord 32 0x0000DC01, .aunbind),
      (decodeTableWord 32 0x0000DC12, .atypeFp32 1),
      (decodeTableWord 32 0x0000DC13, .atypeI32 1),
      (decodeTableWord 32 0x0000DC14, .atypeBf16 1),
      (decodeTableWord 32 0x0000DC15, .azero 1),
      (decodeTableWord 32 0x0000DC16, .aqlen 1),
      (decodeTableWord 32 0x1000DC17, .aver 1 2),
      (decodeTableWord 32 0x1000DE10, .mma 1 2),
      (decodeTableWord 32 0x1000DE11, .mmaSp6 1 2),
      (decodeTableWord 32 0x1000DE12, .mmaSp12 1 2),
      (decodeTableWord 32 0x1000DE13, .mmaZ 1 2),
      (decodeTableWord 32 0x1000DE14, .await 1 2),
      (decodeTableWord 32 0x1140DE15, .drain 1 2 5),
      (decodeTableWord 32 0x1140DE16, .drainAdd 1 2 5),
      (decodeTableWord 32 0x1140DE17, .acopy 1 2 5)] : List (Option Instr × Instr)).all (fun x => decide (x.1 = some x.2)) = true := by decide +kernel

theorem test_words_copy :
    ([
      (decodeTableWord 32 0x1140E400, .cpy 2 5),
      (decodeTableWord 32 0x117EE411, .cpyMm 1 2 5 62),
      (decodeTableWord 32 0x1140E402, .cpyMc 2 5),
      (decodeTableWord 32 0x117EE413, .cpyMmMc 1 2 5 62),
      (decodeTableWord 32 0x1140E404, .cpyAdd 2 5),
      (decodeTableWord 32 0x1140E405, .cpyFill 2 5),
      (decodeTableWord 32 0x1140E406, .cpyKeep 2 5),
      (decodeTableWord 32 0x1140E417, .cpySend 1 2 5),
      (decodeTableWord 32 0x0140E418, .cpyCancel 1 5),
      (decodeTableWord 32 0x0140E419, .cpyQuery 1 5)] : List (Option Instr × Instr)).all (fun x => decide (x.1 = some x.2)) = true := by decide +kernel

theorem test_words_extension :
    ([
      (decodeTableWord 32 0x1140E810, .xset 1 2 5),
      (decodeTableWord 32 0x1000E811, .xgetLo 1 2),
      (decodeTableWord 32 0x1000E812, .xgetHi 1 2),
      (decodeTableWord 32 0x103EE813, .xld 1 2 62),
      (decodeTableWord 32 0x103EE814, .xst 1 2 62),
      (decodeTableWord 32 0x0000E815, .xclr 1)] : List (Option Instr × Instr)).all (fun x => decide (x.1 = some x.2)) = true := by decide +kernel

theorem test_words_system :
    ([
      (decodeTableWord 32 0x07FEEC00, .trap 2046),
      (decodeTableWord 32 0x07FEEC01, .brk 2046),
      (decodeTableWord 32 0x0000EC02, .tback),
      (decodeTableWord 32 0x1000EC03, .nap 2),
      (decodeTableWord 32 0x0000EC04, .ifence),
      (decodeTableWord 32 0x003EEE10, .cget 1 62),
      (decodeTableWord 32 0x103EEE01, .cset 2 62),
      (decodeTableWord 32 0x017EEE02, .cseti 5 62),
      (decodeTableWord 32 0x103EEE13, .cclr 1 2 62),
      (decodeTableWord 32 0x103EEE14, .cbis 1 2 62),
      (decodeTableWord 32 0x1000F010, .hcget 1 2),
      (decodeTableWord 32 0x1140F001, .hcset 2 5),
      (decodeTableWord 32 0x114EF012, .hstart 1 2 5 7),
      (decodeTableWord 32 0x1000F013, .hkill 1 2),
      (decodeTableWord 32 0x1000F004, .hrec 2),
      (decodeTableWord 32 0x1000F005, .hquiesce 2),
      (decodeTableWord 32 0x1000F016, .hpurge 1 2),
      (decodeTableWord 32 0x114EF007, .hcopy 2 5 7)] : List (Option Instr × Instr)).all (fun x => decide (x.1 = some x.2)) = true := by decide +kernel

/-! ### Well-formedness: one term that each check refuses, at the first value outside its limit (R183, R192, R197) -/

theorem test_ill_formed_words :
    ([.mvN 0 1, .liN 0 1, .addN 0 1, .addiN 0 1, .subN 0 1, .shliN 0 1, .andN 0 1, .shriN 0 1, .orN 0 1, .sraiN 0 1, .xorN 0 1,
      .andiN 0 1, .ldN 0 1, .ldspN 0 1, .jrN 0, .callrN 0, .call 0 0, .callr 0 1 0, .powerOn, .fence 0] : List Instr).all
      (fun i => !WellFormed i && !i.encodable) = true := by decide +kernel

theorem test_ill_formed_operands :
    ([.shli 1 1 64, .shri 1 1 64, .srai 1 1 64, .bfx 1 1 1 63, .bfxu 1 1 1 63, .bfi 1 1 1 63, .sendMc 8 1 1 1, .xmovTo 1 1 32,
      .xmovFrom 1 1 32, .xmovmTo 1 1 1 33, .xmovmFrom 1 1 1 0, .xmovxTo 1 8 0, .xmovxTo 1 0 8, .xmovxFrom 8 1 0, .xmovxFrom 0 1 8,
      .qput 1 4, .qget 1 4, .qputNb 1 1 4, .qgetNb 1 4, .qlen 1 4, .vaddbFp32 1 1 32, .vmulbFp32 1 1 32, .vbcast 1 32,
      .vget 32 1 1, .vget 1 1 32, .vset 1 32 1, .vset 1 1 32, .vcvtFp32Bf16 1 1 2, .vld 1 32 1, .vld 1 1 32, .vst 1 32 1,
      .vst 1 1 32, .abind 16, .atypeFp32 16, .atypeI32 16, .atypeBf16 16, .azero 16, .aver 1 16, .mma 16 1, .mma 1 8, .mmaSp6 16 1,
      .mmaSp6 1 8, .mmaSp12 16 1, .mmaSp12 1 8, .mmaZ 16 1, .mmaZ 1 8, .await 16 1, .drain 16 1 0, .drain 1 8 0, .drainAdd 16 1 0,
      .drainAdd 1 8 0, .acopy 16 1 1, .acopy 1 16 1, .cpy 8 0, .cpyMm 8 1 0 0, .cpyMm 1 8 0 0, .cpyMc 8 0, .cpyMmMc 8 0 0 0,
 .cpyAdd 8 0, .cpyFill 8 0, .cpyKeep 8 0, .cpySend 1 8 0, .xset 8 1 1, .xgetLo 1 8, .xgetHi 1 8, .xld 8 1 0,
      .xst 8 1 0, .xclr 8, .cget 1 17, .cset 1 17, .cseti 1 17, .cclr 1 1 17, .cbis 1 1 17] : List Instr).all
      (fun i => !WellFormed i && !i.operandsOk && i.encodable) = true := by decide +kernel

theorem test_well_formed :
    ([.mvN 1 0, .shli 1 1 63, .bfx 1 1 0 63, .sendMc 7 1 1 1, .xmovTo 1 1 31, .xmovmFrom 1 1 1 32, .xmovxFrom 7 1 7, .qput 1 3,
      .vaddbFp32 63 63 31, .vcvtFp32Bf16 63 63 1, .abind 15, .mma 15 7, .cpyMc 6 0, .xclr 7, .cget 31 16, .jmp 0, .hcopy 1 2 3]
      : List Instr).all WellFormed = true := by decide +kernel

/-! ### Helpers -/

/-- The state after a step; the empty state where there is none. -/
def after : Out → State
  | .next t => t
  | _ => {}

/-- A package in which context `id` issues, as `c`, in a tile 0 that is `t`. -/
def at_ (c : Ctx) (t : Tile := {}) (id : Nat := 504) : State :=
  { ctxs := [(id, c)], tiles := if t = {} then [] else [(0, t)], cur := id }

/-- Context 504 of tile 0, a house slot, with some general registers. -/
def regs (g : Map GVal) : State := at_ { st := .ready, pc := codeBase + 0x1000, g := g }

/-- A clean value. -/
def ok (v : Word) : GVal := ⟨v, false⟩
/-- A poisoned value. -/
def bad (v : Word) : GVal := ⟨v, true⟩

/-- Bits of the value a step leaves in g[n]. -/
def gAfter (o : Out) (n : Nat) : GVal := (after o).me.getG n

/-! ### The step, the encoding, reset -/

theorem test_witness_step_compact :
    let s := State.reset.withFetchWord 16 0x0846
    (s.issuing = true ∧ s.me.st = .ready ∧ s.myTile.clocked = true ∧ s.badBonds = [] ∧ s.codeOld.length ≤ s.me.fenced ∧
      ptrOff s.me.pc < 0x40000 ∧ s.loftOwned (tileOf s.cur) (lownEntry (ptrOff s.me.pc)) (s.partOf s.cur) = true ∧
      readBytes s.mem (s.loftDpa (tileOf s.cur) (ptrOff s.me.pc)) 2 = 0x0846) ∧
    decode 0x0846 = .ok (.addN 1 3) := ⟨by decide +kernel, rfl⟩

/-- `add g3, g2, g5` in the last two halfwords of the code banks. -/
def lastWord : State :=
  { at_ { st := .ready, pc := codeBase + 0x3FFFC } with
    issuing := true
    mem := writeBytes [] (State.reset.loftDpa 0 0x3FFFC) 4 0x11408030 }

theorem test_witness_step_word :
    (lastWord.issuing = true ∧ lastWord.me.st = .ready ∧ lastWord.myTile.clocked = true ∧ lastWord.badBonds = [] ∧
      lastWord.codeOld.length ≤ lastWord.me.fenced ∧
      ptrOff lastWord.me.pc < 0x40000 ∧ ptrOff (lastWord.me.pc + 2) < 0x40000 ∧
      lastWord.loftOwned (tileOf lastWord.cur) (lownEntry (ptrOff lastWord.me.pc)) (lastWord.partOf lastWord.cur) = true ∧
      lastWord.loftOwned (tileOf lastWord.cur) (lownEntry (ptrOff (lastWord.me.pc + 2))) (lastWord.partOf lastWord.cur) = true ∧
      readBytes lastWord.mem (lastWord.loftDpa (tileOf lastWord.cur) (ptrOff lastWord.me.pc)) 2 = 0x8030 ∧
      readBytes lastWord.mem (lastWord.loftDpa (tileOf lastWord.cur) (ptrOff (lastWord.me.pc + 2))) 2 = 0x1140) ∧
    decode (0x8030 + 0x1140 * 2 ^ 16) = .ok (.add 3 2 5) := ⟨by decide +kernel, rfl⟩

theorem test_witness_step_event :
    (({ State.reset with agenda := [.event .powerOn] } : State).issuing = false ∧ Instr.isInstruction .powerOn = false) ∧
    (({ State.reset with agenda := [.lineFails 64 true] } : State).issuing = false ∧ Turn.lineFails 64 true ≠ .own ∧
      ∀ i, Turn.lineFails 64 true ≠ .event i) := ⟨by decide +kernel, rfl, by decide, fun _ h => nomatch h⟩

theorem test_witness_step_tick :
    ({} : State).issuing = false ∧ ({} : State).agenda = [] ∧ ({} : State).discards = 0 ∧ ({} : State).nextInCycle = none ∧
      ({} : State).tick.nextOwn = none := by decide +kernel

theorem test_witness_fetch_bounds :
    let s := { at_ { st := .ready, pc := codeBase + 0x40000 } with issuing := true }
    s.issuing = true ∧ s.me.st = .ready ∧ s.myTile.clocked = true ∧ 0x40000 ≤ ptrOff s.me.pc := by
  decide +kernel

theorem test_witness_fetch_rights :
    let s := { at_ { st := .ready, pc := codeBase + 0x3FFFE } {} 503 with issuing := true }
    s.issuing = true ∧ s.me.st = .ready ∧ s.myTile.clocked = true ∧ ptrOff s.me.pc < 0x40000 ∧
      s.loftOwned (tileOf s.cur) (lownEntry (ptrOff s.me.pc)) (s.partOf s.cur) = false := by decide +kernel

theorem test_witness_fetch_zero :
    let s := { at_ { st := .ready, pc := codeBase + 0x3FFFE } with issuing := true }
    s.issuing = true ∧ s.me.st = .ready ∧ s.myTile.clocked = true ∧ ptrOff s.me.pc < 0x40000 ∧
      s.loftOwned (tileOf s.cur) (lownEntry (ptrOff s.me.pc)) (s.partOf s.cur) = true ∧ s.badBonds = [] ∧
      s.codeOld.length ≤ s.me.fenced ∧ readBytes s.mem (s.loftDpa (tileOf s.cur) (ptrOff s.me.pc)) 2 = 0 := by decide +kernel

theorem test_witness_DecodeEncode : Instr.encodable (.add 31 31 31) = true ∧ Instr.encodable (.mvN 1 0) = true := by decide +kernel

theorem test_witness_EncodeDecode :
    decode 0xFFFF0846 = .ok (.addN 1 3) ∧ 0xFFFF0846 / 2 ^ 15 % 2 = 0 ∧ decode 0x11408030 = .ok (.add 3 2 5) ∧
      0x11408030 / 2 ^ 15 % 2 = 1 := ⟨rfl, by decide, rfl, by decide⟩

theorem test_witness_MemoryInvariant :
    State.reset.memoryOk = true ∧ ∃ t, step { State.reset with agenda := [.event .i3cHeartbeat] } = .next t :=
  ⟨by decide +kernel, _, rfl⟩

/-! ### Integer, address and bit-field instructions -/

/-- g1 is the least number, g2 is -1, g3 is poisoned 0, g4 is 10 and g5 is 3. -/
def ints : State := regs [(1, ok 0x8000000000000000), (2, ok 0xFFFFFFFFFFFFFFFF), (3, bad 0), (4, ok 10), (5, ok 3)]

theorem test_witness_IntegerRegister :
    ints.there [gr (31 : BitVec 5), gr (0 : BitVec 5)] = true ∧
      (ints.there [gr (1 : BitVec 5), gr (0 : BitVec 5)] = true ∧ ints.gv 0 = 0) ∧
      (ints.there [gr (1 : BitVec 5), gr (2 : BitVec 5)] = true ∧ ints.gv 1 = BitVec.intMin 64 ∧ ints.gv 2 = BitVec.allOnes 64) ∧
      (ints.there [gr (1 : BitVec 5), gr (5 : BitVec 5)] = true ∧ ints.gv 5 ≠ 0 ∧
        ¬ (ints.gv 1 = BitVec.intMin 64 ∧ ints.gv 5 = BitVec.allOnes 64)) := by decide +kernel

/-- R203, R204 on values written out. -/
theorem test_integer_register :
    [gAfter (exec (.add 6 2 4) ints) 6, gAfter (exec (.sub 6 5 4) ints) 6, gAfter (exec (.and 6 4 5) ints) 6,
      gAfter (exec (.or 6 4 5) ints) 6, gAfter (exec (.xor 6 4 5) ints) 6, gAfter (exec (.andn 6 4 5) ints) 6,
      gAfter (exec (.shl 6 4 5) ints) 6, gAfter (exec (.shr 6 1 5) ints) 6, gAfter (exec (.sra 6 1 5) ints) 6,
      gAfter (exec (.shl 6 4 2) ints) 6, gAfter (exec (.mul 6 2 2) ints) 6, gAfter (exec (.mulh 6 1 2) ints) 6,
      gAfter (exec (.mulhu 6 2 2) ints) 6, gAfter (exec (.min 6 1 4) ints) 6, gAfter (exec (.max 6 1 4) ints) 6,
      gAfter (exec (.add 6 3 4) ints) 6] =
    [ok 9, ok 0xFFFFFFFFFFFFFFF9, ok 2, ok 11, ok 9, ok 8,
      ok 80, ok 0x1000000000000000, ok 0xF000000000000000,
      ok 0, ok 1, ok 0,
      ok 0xFFFFFFFFFFFFFFFE, ok 0x8000000000000000, ok 10,
      bad 10] := by decide +kernel

/-- R204: a divisor of 0, the overflow, and signed and unsigned quotients. -/
theorem test_division :
    [gAfter (exec (.div 6 4 0) ints) 6, gAfter (exec (.divu 6 4 0) ints) 6, gAfter (exec (.rem 6 4 0) ints) 6,
      gAfter (exec (.remu 6 4 0) ints) 6, gAfter (exec (.div 6 1 2) ints) 6, gAfter (exec (.rem 6 1 2) ints) 6,
      gAfter (exec (.div 6 4 2) ints) 6, gAfter (exec (.divu 6 2 5) ints) 6, gAfter (exec (.rem 6 2 5) ints) 6,
      gAfter (exec (.remu 6 2 4) ints) 6] =
    [ok 0xFFFFFFFFFFFFFFFF, ok 0xFFFFFFFFFFFFFFFF, ok 10,
      ok 10, ok 0x8000000000000000, ok 0,
      ok 0xFFFFFFFFFFFFFFF6, ok 0x5555555555555555, ok 0xFFFFFFFFFFFFFFFF,
      ok 5] := by decide +kernel

theorem test_witness_Compares :
    (ints.there [gr (1 : BitVec 5), gr (2 : BitVec 5)] = true ∧ (ints.gp 1 || ints.gp 2) = false ∧ ints.gp 1 = false) ∧
      (ints.there [gr (3 : BitVec 5), gr (2 : BitVec 5)] = true ∧ (ints.gp 3 || ints.gp 2) = true ∧ ints.gp 3 = true) := by decide +kernel

theorem test_compares :
    [gAfter (exec (.slt 6 1 2) ints) 6, gAfter (exec (.sltu 6 1 2) ints) 6, gAfter (exec (.sltu 6 2 1) ints) 6,
      gAfter (exec (.slti 6 2 0) ints) 6, gAfter (exec (.slti 6 2 0x7FF) ints) 6, gAfter (exec (.sltui 6 4 0x400) ints) 6,
      gAfter (exec (.seqFp32 6 0 1) ints) 6, gAfter (exec (.sltFp32 6 2 2) ints) 6] =
    [ok 1, ok 1, ok 0, ok 1, ok 0, ok 1, ok 1, ok 0] := by decide +kernel

/-- A trap without a vector escalates: R327, R318. -/
theorem test_compare_poison :
    (after (exec (.slti 6 3 0) ints)).me.st = .blocked (.escalated 0x0D (codeBase + 0x1000) 0 none) := by decide +kernel

theorem test_witness_ImmediatesPointersFields :
    (ints.there [gr (3 : BitVec 5), gr (2 : BitVec 5)] = true ∧ (63 : BitVec 11).toNat ≤ 63 ∧ 63 < (64 : BitVec 11).toNat ∧ ints.gv 3 = 0 ∧
        ints.gv 2 ≠ 0) ∧
      (63 : BitVec 6).toNat + ((0 : BitVec 5).toNat + 1) ≤ 64 ∧ 64 < (63 : BitVec 6).toNat + ((1 : BitVec 5).toNat + 1) := by decide +kernel

/-- R205, R206, R209 to R211 on values written out. -/
theorem test_immediates_pointers_fields :
    [gAfter (exec (.addi 6 4 0x7FF) ints) 6, gAfter (exec (.andi 6 4 6) ints) 6, gAfter (exec (.ori 6 4 5) ints) 6,
      gAfter (exec (.xori 6 4 0x7FF) ints) 6, gAfter (exec (.shli 6 4 63) ints) 6, gAfter (exec (.shri 6 1 63) ints) 6,
      gAfter (exec (.srai 6 1 63) ints) 6, gAfter (exec (.clz 6 0) ints) 6, gAfter (exec (.clz 6 4) ints) 6,
      gAfter (exec (.popc 6 4) ints) 6, gAfter (exec (.lui 6 0xFFFFF) ints) 6, gAfter (exec (.lpc 6 0xFFFFF) ints) 6,
      gAfter (exec (.pmk 6 2 4) ints) 6, gAfter (exec (.pidx 6 1) ints) 6, gAfter (exec (.poff 6 2) ints) 6,
      gAfter (exec (.padd 6 2 4) ints) 6,
      gAfter (exec (.bfx 6 4 2 1) ints) 6, gAfter (exec (.bfxu 6 4 2 1) ints) 6, gAfter (exec (.bfi 4 5 1 62) ints) 4] =
    [ok 9, ok 2, ok 15,
      ok 0xFFFFFFFFFFFFFFF5, ok 0, ok 1,
      ok 0xFFFFFFFFFFFFFFFF, ok 64, ok 60,
      ok 2, ok 0xFFFFFFFFFFFFF000, ok (codeBase + 0xFFE),
      ok 0xFFFFC0000000000A, ok 0x20000, ok 0x3FFFFFFFFFFF,
      ok 0xFFFFC00000000009,
      ok 0xFFFFFFFFFFFFFFFD, ok 5, ok 0xC00000000000000A] := by decide +kernel

theorem test_witness_CompactForms : ints.there [gr (31 : BitVec 5), gr (0 : BitVec 5), 3] = true := by decide +kernel

theorem test_compact_forms :
    [gAfter (exec (.mvN 6 4) ints) 6, gAfter (exec (.liN 6 16) ints) 6, gAfter (exec (.addiN 4 31) ints) 4,
      gAfter (exec (.subN 4 5) ints) 4, gAfter (exec (.sraiN 1 31) ints) 1, gAfter (exec (.andiN 4 0) ints) 4,
      gAfter (exec (.addspN 0x3FF) ints) 3, gAfter (exec (.shliN 4 1) ints) 4] =
    [ok 10, ok 0xFFFFFFFFFFFFFFF0, ok 9, ok 7, ok 0xFFFFFFFF00000000, ok 0, bad 0xFFFFFFFFFFFFFFF8, ok 20] ∧
    (after (exec (.addN 4 5) ints)).me.pc = codeBase + 0x1002 := by decide +kernel

/-- g1 is 1.0, g2 is 3.0, g3 is -0.0 and g4 is infinity, each with bits above that are not read. -/
def floats : State := regs [(1, ok 0x123456783F800000), (2, ok 0x40400000), (3, ok 0x80000000), (4, ok 0x7F800000), (5, ok 7)]

theorem test_witness_ScalarFp32 : floats.there [gr (1 : BitVec 5), gr (2 : BitVec 5), gr (31 : BitVec 5)] = true := by decide +kernel

/-- R207: 1 + 3, 1 - 3, 1 × 3, 1 / 3 to nearest, sqrt 1, fma, min and max with -0, and the conversions. -/
theorem test_scalar_fp32 :
    [gAfter (exec (.addFp32 6 1 2) floats) 6, gAfter (exec (.subFp32 6 1 2) floats) 6, gAfter (exec (.mulFp32 6 1 2) floats) 6,
      gAfter (exec (.divFp32 6 1 2) floats) 6, gAfter (exec (.sqrtFp32 6 1) floats) 6, gAfter (exec (.fmaFp32 6 2 2 1) floats) 6,
      gAfter (exec (.minFp32 6 0 3) floats) 6, gAfter (exec (.maxFp32 6 3 0) floats) 6, gAfter (exec (.divFp32 6 1 3) floats) 6,
      gAfter (exec (.cvtI32Fp32 6 2) floats) 6, gAfter (exec (.cvtI32Fp32 6 4) floats) 6, gAfter (exec (.cvtFp32I32 6 5) floats) 6] =
    [ok 0x40800000, ok 0xC0000000, ok 0x40400000,
      ok 0x3EAAAAAB, ok 0x3F800000, ok 0x41200000,
      ok 0x80000000, ok 0, ok 0xFF800000,
      ok 3, ok 0x7FFFFFFF, ok 0x40E00000] := by decide +kernel

/-- g1 awaits a load. -/
def awaiting : State := at_ { st := .ready, pc := codeBase + 0x1000, g := [(2, ok 5)], pend := [(1, 9)] }

theorem test_witness_RegisterRules : awaiting.there [gr (1 : BitVec 5)] = false ∧ awaiting.there [gr (2 : BitVec 5), gr (0 : BitVec 5)] = true := by
  decide +kernel

theorem test_register_waits : after (exec (.add 3 2 1) awaiting) = awaiting.waiting ∧ gAfter (exec (.add 0 2 2) awaiting) 0 = ok 0 := by
  decide +kernel

/-! ### Control -/

/-- Jump targets: g1 is the last legal one, g2 is odd, g3 is outside the code banks, g4 is a buffer pointer, g5 is -1, g6 is 1. -/
def targets : State :=
  regs [(1, ok (codeBase + 0x3FFFE)), (2, ok (codeBase + 1)), (3, ok (codeBase + 0x40000)), (4, ok 0), (5, ok 0xFFFFFFFFFFFFFFFF),
    (6, ok 1)]

theorem test_witness_Branches :
    targets.there [gr (1 : BitVec 5), gr (2 : BitVec 5), gr (31 : BitVec 5)] = true ∧ targets.gp 1 = false ∧ targets.gp 2 = false ∧
      targets.gp 31 = false := by decide +kernel

theorem test_branches :
    [(after (exec (.brEq 0 7 0x400) targets)).me.pc, (after (exec (.brNe 0 7 0x400) targets)).me.pc,
      (after (exec (.brLt 5 6 0x3FF) targets)).me.pc, (after (exec (.brLtu 5 6 0x3FF) targets)).me.pc,
      (after (exec (.brGe 6 5 1) targets)).me.pc, (after (exec (.brGeu 6 5 1) targets)).me.pc,
      (after (exec (.brLtz 5 1) targets)).me.pc, (after (exec (.brGez 5 1) targets)).me.pc,
      (after (exec (.beqzN 7 32) targets)).me.pc, (after (exec (.bnezN 7 32) targets)).me.pc] =
    [codeBase + 0x800, codeBase + 0x1004,
      codeBase + 0x17FE, codeBase + 0x1004,
      codeBase + 0x1002, codeBase + 0x1004,
      codeBase + 0x1002, codeBase + 0x1004,
      codeBase + 0xFC0, codeBase + 0x1002] := by decide +kernel

/-- R213: loop counts 1 down to 0 and falls through, and 0 down to all ones and branches. -/
theorem test_loop :
    gAfter (exec (.loop 6 2) targets) 6 = ok 0 ∧ (after (exec (.loop 6 2) targets)).me.pc = codeBase + 0x1004 ∧
      gAfter (exec (.loop 4 2) targets) 4 = ok 0xFFFFFFFFFFFFFFFF ∧ (after (exec (.loop 4 2) targets)).me.pc = codeBase + 0x1004 := by
  decide +kernel

theorem test_witness_Jumps :
    (targets.there [gr (1 : BitVec 5), gr (31 : BitVec 5), 1] = true ∧ targets.gp 1 = false ∧ targets.gp 31 = false) ∧
      ((0 : Word).extractLsb' 46 18 ≠ 0x3FFFE) ∧
      ((codeBase + 1).extractLsb' 46 18 = 0x3FFFE ∧ (codeBase + 1).getLsbD 0 = true) ∧
      ((codeBase + 0x40000).extractLsb' 46 18 = 0x3FFFE ∧ (codeBase + 0x40000).getLsbD 0 = false ∧
        0x40000 ≤ ((codeBase + 0x40000).extractLsb' 0 46).toNat) ∧
      ((codeBase + 0x3FFFE).extractLsb' 46 18 = 0x3FFFE ∧ (codeBase + 0x3FFFE).getLsbD 0 = false ∧
        ((codeBase + 0x3FFFE).extractLsb' 0 46).toNat < 0x40000) := by decide +kernel

theorem test_jumps :
    [(after (exec (.jmp 0xFFFFE) targets)).me.pc, (after (exec (.jr 1 0) targets)).me.pc, (after (exec (.jN 0x7FF) targets)).me.pc,
      (after (exec (.jrN 1) targets)).me.pc, (after (exec .ret targets)).me.pc, (after (exec .retN targets)).me.pc,
      (after (exec (.callr 1 1 0) targets)).me.pc, (after (exec (.callrN 1) targets)).me.pc, (after (exec (.call 9 2) targets)).me.pc] =
    [codeBase + 0xFFC, codeBase + 0x3FFFE, codeBase + 0xFFE, codeBase + 0x3FFFE, codeBase + 0x3FFFE, codeBase + 0x3FFFE,
      codeBase + 0x3FFFE, codeBase + 0x3FFFE, codeBase + 0x1004] ∧
    [gAfter (exec (.callr 1 1 0) targets) 1, gAfter (exec (.callrN 1) targets) 1, gAfter (exec (.call 9 2) targets) 9] =
      [ok (codeBase + 0x1004), ok (codeBase + 0x1002), ok (codeBase + 0x1004)] := by decide +kernel

/-- R179, R216: the causes of a bad target, c.epc the jump itself. -/
theorem test_bad_targets :
    [(after (exec (.jr 4 0) targets)).me.st, (after (exec (.jr 2 0) targets)).me.st, (after (exec (.jr 3 0) targets)).me.st] =
    [.blocked (.escalated 0x02 (codeBase + 0x1000) 0 none), .blocked (.escalated 0x03 (codeBase + 0x1000) (codeBase + 1) none),
      .blocked (.escalated 0x08 (codeBase + 0x1000) (codeBase + 0x40000) none)] := by decide +kernel

/-! ### References -/

/-- Region 1: tile scope, home tile 0, every bank below the reserve. Region 2: a reduction region with home slot 0. -/
def testRegions : Map Word := [(1, 0x8000000000000150), (2, 0xC000000400000150)]

/-- Entry with rights R, W, A, S, region 1, generation 3, tenant 0, base 0x1000 and `size` bytes. -/
def plainEntry (size : Word) : BufEntry := ⟨0x8F04000C00000000, 0x1000, size, 0⟩
/-- The same in region 2. -/
def cellEntry : BufEntry := ⟨0x8F08000C00000000, 0, 0x1000, 0⟩
/-- A paged buffer. -/
def pagedEntry : BufEntry := ⟨0xCF04000C00000000, 0x8000, 0x40000000, 0⟩

/-- The pointer of offset `off` of buffer `idx`. -/
def bufPtr (idx off : Nat) : Word := wd (idx * 2 ^ 46 + off)

/-- The tile's port has cached: 5 plain, 6 cells, 7 paged with one page at region address 0x200000, 8 without any right,
9 a window without rights, 10 of tenant 1, 11 plain of 16 bytes. -/
def testTile : Tile :=
  { bcache := [⟨16, 5, plainEntry 0x400⟩, ⟨16, 6, cellEntry⟩, ⟨16, 7, pagedEntry⟩, ⟨16, 8, ⟨0x8004000C00000000, 0x1000, 0x400, 0⟩⟩,
      ⟨16, 9, ⟨0xA004000C00000000, 0x1000, 0x400, 0⟩⟩, ⟨16, 10, ⟨0x8F04000C00000400, 0x1000, 0x400, 0⟩⟩, ⟨16, 11, plainEntry 16⟩]
    pcache := [⟨16, 7, 3, 3, 2, 0x200000, false⟩] }

/-- A house context with those buffers; `lown` is the tile's table of owners. -/
def bufs (g : Map GVal) : State :=
  { at_ { st := .ready, pc := codeBase + 0x1000, g := g } testTile with ircfg := testRegions, houseBtab := 0x1000400000000000 }

/-- A context of no partition in slot 3. -/
def userRegs (g : Map GVal) : State := at_ { st := .ready, pc := codeBase + 0x1000, g := g } {} 3

theorem test_witness_reference_align :
    let s := bufs [(1, ok (bufPtr 5 2))]
    s.there [gr (1 : BitVec 5), gr (31 : BitVec 5)] = true ∧ s.gp 1 = false ∧
      ptrOff (padd (s.gv 1) ((0 : BitVec 11).signExtend 64 * 4)) % 4 ≠ 0 := by decide +kernel

theorem test_witness_reference_loft :
    let s := userRegs [(1, ok (bufPtr 0x3F000 0x7FFFFC)), (2, ok (bufPtr 0x3FFFE 0x800000))]
    let p := padd (s.gv 1) ((0 : BitVec 11).signExtend 64 * 4)
    let q := padd (s.gv 1) ((1 : BitVec 11).signExtend 64 * 4)
    s.there [gr (1 : BitVec 5), gr (31 : BitVec 5)] = true ∧ s.gp 1 = false ∧
      (ptrOff p % 4 = 0 ∧ loftIdx (ptrIdx p) = true ∧ ptrOff p < 0x800000 ∧
        s.loftOwned (loftTile (tileOf s.cur) (ptrIdx p)) (lownEntry (ptrOff p)) (s.partOf s.cur) = false) ∧
      (ptrOff q % 4 = 0 ∧ loftIdx (ptrIdx q) = true ∧ 0x800000 ≤ ptrOff q) := by decide +kernel

theorem test_witness_reference_index :
    let s := bufs [(1, ok (bufPtr 0 0)), (2, ok (bufPtr 0x3F400 0)), (3, ok (bufPtr 16 0))]
    let p (n : BitVec 5) := padd (s.gv n) ((0 : BitVec 11).signExtend 64 * 4)
    s.there [gr (1 : BitVec 5), gr (31 : BitVec 5)] = true ∧ s.gp 1 = false ∧ s.gp 2 = false ∧ s.gp 3 = false ∧
      (ptrOff (p 1) % 4 = 0 ∧ loftIdx (ptrIdx (p 1)) = false ∧ ptrIdx (p 1) = 0) ∧
      (loftIdx (ptrIdx (p 2)) = false ∧ reservedIdx (ptrIdx (p 2)) = true) ∧
      (loftIdx (ptrIdx (p 3)) = false ∧ btabCount (s.btabOf (s.partOf s.cur)) ≤ ptrIdx (p 3)) := by decide +kernel

/-- One pointer into each of the cached buffers; g1 the last word of 5, g7 one past the end of 11, g8 poisoned, g9 a value. -/
def bufRegs : State :=
  bufs [(1, ok (bufPtr 5 0x3F8)), (2, ok (bufPtr 7 0x2000)), (3, ok (bufPtr 5 0)), (4, ok (bufPtr 8 0)), (5, ok (bufPtr 9 0)),
    (6, ok (bufPtr 10 0)), (7, ok (bufPtr 11 16)), (8, bad 1), (9, ok 0x1122334455667788), (10, ok (bufPtr 6 8))]

theorem test_witness_reference_entry :
    let s := bufRegs
    let front (b : BitVec 5) : Prop :=
      s.there [gr b, gr (9 : BitVec 5)] = true ∧ s.gp b = false ∧
        s.xlateFront 0 16 (padd (s.gv b) 0) 8 = .ok (ptrIdx (padd (s.gv b) 0)) ∧ s.partOf s.cur = 16
    (front 6 ∧ s.entryFor 10 = some ⟨16, 10, ⟨0x8F04000C00000400, 0x1000, 0x400, 0⟩⟩ ∧
      (⟨0x8F04000C00000400, 0x1000, 0x400, 0⟩ : BufEntry).owner ≠ s.me.tenant.toNat) ∧
    (front 4 ∧ s.entryFor 8 = some ⟨16, 8, ⟨0x8004000C00000000, 0x1000, 0x400, 0⟩⟩ ∧
      s.entryBad ⟨0x8004000C00000000, 0x1000, 0x400, 0⟩ = false ∧ bit 0x8004000C00000000 59 = false ∧ bit 0x8004000C00000000 58 = false) ∧
    (front 7 ∧ s.entryFor 11 = some ⟨16, 11, plainEntry 16⟩ ∧
      s.entryBad (plainEntry 16) = false ∧ (plainEntry 16).owner = s.me.tenant.toNat ∧ bit (plainEntry 16).w0 59 = true ∧
      bit (plainEntry 16).w0 58 = true ∧ (plainEntry 16).size < ptrOff (padd (s.gv 7) 0) + 8) :=
  ⟨⟨⟨by decide +kernel, by decide +kernel, rfl, by decide +kernel⟩, by decide +kernel⟩,
    ⟨⟨by decide +kernel, by decide +kernel, rfl, by decide +kernel⟩, by decide +kernel⟩,
    ⟨⟨by decide +kernel, by decide +kernel, rfl, by decide +kernel⟩, by decide +kernel⟩⟩

/-- R326, R328: the causes in the order of R32; a window without the right traps WINDOW_RIGHTS. -/
theorem test_reference_checks :
    [(after (exec (.ldD 9 4 0) bufRegs)).me.st, (after (exec (.stD 9 5 0) bufRegs)).me.st, (after (exec (.ldD 9 6 0) bufRegs)).me.st,
      (after (exec (.ldD 9 7 0) bufRegs)).me.st, (after (exec (.ldD 9 8 0) bufRegs)).me.st] =
    [.blocked (.escalated 0x06 (codeBase + 0x1000) (bufPtr 8 0) none), .blocked (.escalated 0x18 (codeBase + 0x1000) (bufPtr 9 0) none),
      .blocked (.escalated 0x04 (codeBase + 0x1000) (bufPtr 10 0) none), .blocked (.escalated 0x05 (codeBase + 0x1000) (bufPtr 11 16) none),
      .blocked (.escalated 0x0D (codeBase + 0x1000) 0 none)] := by decide +kernel

theorem test_witness_LoadsAndStoresLeave :
    let s := bufRegs
    s.there [gr (1 : BitVec 5), gr (9 : BitVec 5), 3] = true ∧ s.gp 1 = false ∧ s.gp 3 = false ∧
      s.passes (padd (s.gv 1) ((7 : BitVec 11).signExtend 64 * wd 1)) 1 needR = some (⟨mkDpa false 0 0 15 0xBF, false, false, 0, 3⟩, s) ∧
      (s.passes (padd (s.gv 1) ((7 : BitVec 11).signExtend 64 * wd 1)) 1 needW).isSome = true ∧
      (s.passes (padd (s.gv 1) ((3 : BitVec 11).signExtend 64 * wd 2)) 2 needR).isSome = true ∧
      (s.passes (padd (s.gv 1) ((3 : BitVec 11).signExtend 64 * wd 2)) 2 needW).isSome = true ∧
      (s.passes (padd (s.gv 1) ((1 : BitVec 11).signExtend 64 * wd 4)) 4 needR).isSome = true ∧
      (s.passes (padd (s.gv 1) ((1 : BitVec 11).signExtend 64 * wd 4)) 4 needW).isSome = true ∧
      (s.passes (padd (s.gv 1) ((0 : BitVec 11).signExtend 64 * wd 8)) 8 needR).isSome = true ∧
      (s.passes (padd (s.gv 2) ((0 : BitVec 11).signExtend 64 * wd 8)) 8 needW).isSome = true ∧
      (s.passes (padd (s.gv 1) 0) 8 needR).isSome = true ∧ (s.passes (padd (s.gv 1) 0) 8 needW).isSome = true ∧
      (s.passes (padd (s.gv 3) (wd (8 * (31 : BitVec 5).toNat))) 8 needR).isSome = true ∧
      (s.passes (padd (s.gv 3) (wd (8 * (31 : BitVec 5).toNat))) 8 needW).isSome = true := by decide +kernel

theorem test_witness_SyncReferencesLeave :
    let s := bufRegs
    s.there [gr (1 : BitVec 5), gr (9 : BitVec 5)] = true ∧ s.gp 1 = false ∧ s.me.deferred = none ∧
      s.passes (padd (s.gv 1) ((0 : BitVec 11).signExtend 64 * 8)) 8 needRS = some (⟨mkDpa false 0 0 15 0xB8, false, false, 0, 3⟩, s) ∧
      s.gp 9 = false ∧ (s.gv 9).toNat % 256 ≠ 255 ∧
      s.passes (padd (s.gv 1) ((0 : BitVec 11).signExtend 64 * 8)) 8 needWS = some (⟨mkDpa false 0 0 15 0xB8, false, false, 0, 3⟩, s) ∧
      (s.gp 9 && s.hostShared ⟨mkDpa false 0 0 15 0xB8, false, false, 0, 3⟩) = false ∧
      (s.passes (padd (s.gv 1) ((0 : BitVec 11).signExtend 64 * 8)) 8 needR).isSome = true := by decide +kernel

/-- R221, R222: a sync load and a store-and-empty-check block; a store-full does not. -/
theorem test_sync_references :
    (after (exec (.ldDWf 9 1 0) bufRegs)).me.st = .blocked (.ref 1) ∧ (after (exec (.stDWe 9 1 0) bufRegs)).me.st = .blocked (.ref 1) ∧
      (after (exec (.stDSf 9 1 0) bufRegs)).me.pc = codeBase + 0x1004 ∧
      (after (exec (.stDSf 9 1 0) bufRegs)).net.map (fun r => (r.dpa, r.rel, r.val)) =
        [(mkDpa false 0 0 15 0xB8, true, ok 0x1122334455667788)] := by decide +kernel

theorem test_witness_MultipleReferencesLeave :
    let s := bufRegs
    s.outstanding 0 + 1024 ≤ 4096 ∧ s.there (gr (3 : BitVec 5) :: (List.range ((31 : BitVec 5).toNat + 1)).map (fun j => (gr (31 : BitVec 5) + j) % 32)) = true ∧
      s.gp 3 = false ∧
      (s.passesAll needR (wordsFrom (padd (s.gv 3) ((0 : BitVec 6).signExtend 64 * 8)) 32)).isSome = true ∧
      (match s.passesAll needW (wordsFrom (padd (s.gv 3) ((0 : BitVec 6).signExtend 64 * 8)) 32) with
        | some (ws, t) => ws.all (fun w => !t.hostShared w.2)
        | none => false) = true ∧
      ((7 : BitVec 5).toNat < 8 ∧ (padd (s.gv 3) ((31 : BitVec 6).signExtend 64 * 16)).toNat % 16 = 0 ∧
        s.there (eKeys (gr (7 : BitVec 5))) = true ∧
        (s.passesAll needR [padd (s.gv 3) ((31 : BitVec 6).signExtend 64 * 16),
          padd (padd (s.gv 3) ((31 : BitVec 6).signExtend 64 * 16)) 8]).isSome = true ∧
        (s.passesAll needW [padd (s.gv 3) ((31 : BitVec 6).signExtend 64 * 16),
          padd (padd (s.gv 3) ((31 : BitVec 6).signExtend 64 * 16)) 8]).isSome = true) := by decide +kernel

/-- R224, R278: registers wrap past g31, and both halves of an e register are awaited. -/
theorem test_multiple_references :
    ((after (exec (.ldmD 31 3 1 0) bufRegs)).net.map (fun r => r.dest) = [[31], [0]]) ∧
      ((after (exec (.xld 7 3 31) bufRegs)).net.map (fun r => (r.dest, ptrOff r.ptr)) = [([46], 0x1F0), ([47], 0x1F8)]) ∧
      ((after (exec (.stmD 8 3 1 63) bufRegs)).net = []) := by decide +kernel

/-- A pending load and a pending store of the context to its own tile, and a pending load to a window. -/
def pendingRef (id : Nat) (op : MemOp) (win : Bool) : Req :=
  { id := id, src := 0, slot := 504, op := op, dpa := 128, ptr := bufPtr 5 0, win := win, part := 16 }

theorem test_witness_Fences :
    bufRegs.me.deferred = none ∧ bufRegs.fenceWaits 504 .all false = false ∧ bufRegs.fenceWaits 504 .all true = false ∧
      ({ bufRegs with net := [pendingRef 1 (.load 8 false) false] } : State).fenceWaits 504 .all true = true ∧
      ({ bufRegs with net := [pendingRef 1 (.store 8) false] } : State).fenceWaits 504 .tile false = true ∧
      (at_ { st := .ready, deferred := some (0x0C, 8) }).me.deferred = some (0x0C, 8) := by decide +kernel

/-- R227, R228, R98: an acquire and ifence wait for reads only, and no dom fence waits for a window access. -/
theorem test_fences :
    let store := { bufRegs with net := [pendingRef 1 (.store 8) false] }
    let load := { bufRegs with net := [pendingRef 1 (.load 8 false) false] }
    let win := { bufRegs with net := [pendingRef 1 (.load 8 false) true] }
    [(after (exec .fenceAcqTile store)).me.st, (after (exec .fenceRelTile store)).me.st, (after (exec .fenceAcqTile load)).me.st,
      (after (exec .ifence store)).me.st, (after (exec .ifence load)).me.st, (after (exec .fenceRelDom win)).me.st,
      (after (exec .fenceAcqWin win)).me.st, (after (exec .fenceFullDom win)).me.st] =
    [.ready, .blocked .retry, .blocked .retry, .ready, .blocked .retry, .ready, .blocked .retry, .blocked .retry] := by decide +kernel

theorem test_witness_AtomicsAndCellsLeave :
    let s := bufRegs
    (s.there [gr (1 : BitVec 5), gr (9 : BitVec 5), gr (31 : BitVec 5), 0] = true ∧ s.gp 1 = false ∧
      s.passes (padd (s.gv 1) 0) 8 needRWA = some (⟨mkDpa false 0 0 15 0xB8, false, false, 0, 3⟩, s) ∧
      (s.passes (padd (s.gv 1) 0) 4 needRWA).isSome = true ∧ (s.gp 9 && s.hostShared ⟨mkDpa false 0 0 15 0xB8, false, false, 0, 3⟩) = false) ∧
    (s.there [gr (10 : BitVec 5), gr (9 : BitVec 5)] = true ∧ s.gp 10 = false ∧ (s.gv 10).toNat % 8 = 0 ∧ loftIdx (ptrIdx (s.gv 10)) = false ∧
      s.passes (s.gv 10) 8 { a := true } = some (⟨mkDpa false 0 0 0 8, false, true, 0, 3⟩, s) ∧
      s.passes (s.gv 10) 8 { r := true, a := true } = some (⟨mkDpa false 0 0 0 8, false, true, 0, 3⟩, s)) := by decide +kernel

theorem test_atomics_leave :
    (after (exec (.amoCasW 4 1 9 1) bufRegs)).net.map (fun r => (r.op, r.val, r.cmp, r.dest)) =
      [(.amo .cas 4, ok 0x1122334455667788, ok (bufPtr 5 0x3F8), [4])] ∧
    (after (exec (.rdxInit 10) bufRegs)).net.length = 1024 ∧
    (after (exec (.rdxAddBf16 10 9) bufRegs)).net.map (fun r => (r.op, r.val, dpaTile r.dpa)) = [(.rdxAdd, ok 0x77880000, 0)] := by
  decide +kernel

/-! ### Traps, control registers, system instructions -/

/-- A context with a vector. -/
def handled : State :=
  at_ { st := .ready, pc := codeBase + 0x1000, g := [(1, ok 0x55), (2, bad 7), (3, ok 0xFFFFFFFFFFFFFFFF)], trapvec := codeBase + 0x3FFFE, depth := 1 }

/-- The handler of a trap that came from the address 0x2000. -/
def inHandler : State :=
  at_ { st := .ready, pc := codeBase + 0x1000, inTrap := true, trapvec := codeBase, epc := codeBase + 0x2000 }

theorem test_witness_Traps :
    (handled.me.inTrap = false ∧ handled.me.trapvec ≠ 0 ∧ targetFault handled.me.trapvec = none ∧ handled.me.deferred = none ∧
      (0x3FF : BitVec 11).toNat ≤ 0x3FF ∧ 0x402 ≤ (0x402 : BitVec 11).toNat) ∧
    inHandler.me.inTrap = true ∧ (regs []).me.trapvec = 0 ∧ targetFault (at_ { st := .ready, trapvec := 2 }).me.trapvec ≠ none ∧
    handled.fenceWaits handled.cur .all false = false ∧
    ({ bufRegs with net := [pendingRef 1 (.store 8) false] } : State).fenceWaits 504 .all false = true := by decide +kernel

/-- R317: brk writes c.cause, c.epc, c.tval and INTRAP, and the pc is the vector. -/
theorem test_trap_taken :
    let c := (after (exec (.brk 0x7FF) handled)).me
    (c.cause, c.adopted, c.epc, c.tval, c.inTrap, c.pc, c.getG 1) =
      (0x14, true, codeBase + 0x1004, 0x7FF, true, codeBase + 0x3FFFE, ok 0x55) := by decide +kernel

/-- R316: a system call number, and a number that is neither a call nor a service. -/
theorem test_trap_numbers :
    (after (exec (.trap 0x3FF) handled)).me.cause = 0x15 ∧ (after (exec (.trap 0x402) handled)).me.cause = 0x02 ∧
      (after (exec (.trap 0x402) handled)).me.epc = codeBase + 0x1000 ∧
      (after (exec (.trap 0x401) handled)).me.st = .blocked (.service 0x401) := by decide +kernel

theorem test_witness_TrapReturn :
    (inHandler.me.inTrap = true ∧ targetFault inHandler.me.epc = none) ∧ handled.me.inTrap = false ∧
      ((at_ { st := .ready, inTrap := true, epc := codeBase + 1 }).me.inTrap = true ∧
        targetFault (at_ { st := .ready, inTrap := true, epc := codeBase + 1 }).me.epc = some cALIGN) := by decide +kernel

theorem test_trap_return :
    (after (exec .tback inHandler)).me.pc = codeBase + 0x2000 ∧ (after (exec .tback inHandler)).me.inTrap = false ∧
      (after (exec .tback handled)).me.st = .blocked (.escalated 0x02 (codeBase + 0x1000) 0 none) := by decide +kernel

theorem test_witness_ControlRegisters :
    (handled.there [gr (1 : BitVec 5)] = true ∧ (16 : BitVec 6).toNat < 17 ∧
      ¬ ((16 : BitVec 6).toNat = 0 ∨ (16 : BitVec 6).toNat = 10 ∨ (16 : BitVec 6).toNat = 11 ∨ (16 : BitVec 6).toNat = 12 ∨
        (16 : BitVec 6).toNat = 13 ∨ (16 : BitVec 6).toNat = 14) ∧
      ¬ ((16 : BitVec 6).toNat = 8 ∧ handled.me.depth ≠ 0) ∧ handled.gp 1 = false) ∧
    handled.there [gr (2 : BitVec 5)] = true ∧ handled.gp 2 = true ∧ (8 : BitVec 6).toNat = 8 ∧ handled.me.depth ≠ 0 := by decide +kernel

/-- R312: cset, cclr, cbis, cseti and cget; c.adopt keeps LIMIT at most 4, and c.cycle is read-only. -/
theorem test_control_registers :
    let s := handled
    (after (exec (.cset 3 7) s)).me.limit = 4 ∧ (after (exec (.cset 3 7) s)).me.adoptOff = true ∧
      (after (exec (.cbis 4 1 15) s)).me.scratch0 = 0x55 ∧ gAfter (exec (.cbis 4 1 15) s) 4 = ok 0 ∧
      (after (exec (.cclr 4 1 4) s)).me.trapvec = codeBase + 0x3FFAA ∧ (after (exec (.cseti 31 9) s)).me.round = 3 ∧
      gAfter (exec (.cget 5 4) s) 5 = ok (codeBase + 0x3FFFE) ∧ (after (exec (.cset 1 13) s)).me.cause = 0x02 ∧
      gAfter (exec (.cget 5 11) s) 5 = ok 0xFC0 := by
  decide +kernel

theorem test_witness_NapYieldCount :
    (handled.there [gr (0 : BitVec 5)] = true ∧ handled.gp 0 = false ∧ (handled.gv 0).toNat % 2 ^ 32 = 0) ∧
      (handled.there [gr (3 : BitVec 5)] = true ∧ handled.gp 3 = false ∧ (handled.gv 3).toNat % 2 ^ 32 ≠ 0) ∧
      (handled.there [gr (2 : BitVec 5)] = true ∧ handled.gp 2 = true) ∧
      (let s := at_ { st := .ready, handler := true }
       s.me.handler = true ∧ s.me.depth = 0 ∧ s.me.deferred = none ∧ s.quiet s.cur = true) ∧
      (handled.me.handler = false ∧ handled.me.depth ≠ 0) := by decide +kernel

/-- R321, R247: nap counts the low 32 bits in reference cycles, and msgret outside a handler traps. -/
theorem test_nap_and_msgret :
    (after (exec (.nap 3) handled)).me.st = .blocked (.nap 0xFFFFFFFF) ∧ (after (exec .msgret handled)).me.cause = 0x02 ∧
      (after (exec .msgret (at_ { st := .ready, handler := true }))).me.st = .idle := by decide +kernel

/-! ### Gangs, borrowed slots, stage queues -/

/-- A member of a gang of one, whose object 2 is its own root. -/
def gangOne : State :=
  at_ { st := .ready, pc := codeBase + 0x1000, gang := true, obj := some 2, lastStatus := 7, g := [(1, ok 0x1C00)] }
    { bars := [(2, { members := 1 <<< 504, v := true, root := true })] }

/-- The same after its arrival. -/
def gangArrived : State :=
  at_ { st := .ready, pc := codeBase + 0x1000, gang := true, obj := some 2, arrived := true }
    { bars := [(2, { members := 1 <<< 504, v := true, root := true })] }

/-- A gbar that had arrived before a rotation; a member whose root in tile 7 is lost. -/
def gangTurned : State := gangOne.setMe { gangOne.me with barWait := true }
def gangLost : State := gangOne.setBarAt 0 2 { gangOne.barAt 0 2 with rootless := some (7 + 1024) }

theorem test_witness_GangInstructions :
    (gangOne.me.deferred = none ∧ gangOne.me.obj = some 2 ∧ gangOne.me.gang = true ∧ gangOne.me.depth = 0 ∧
      (gangOne.barAt 0 2).rootless = none ∧ gangOne.me.arrived = false ∧ gangOne.there [gr (1 : BitVec 5)] = true ∧ gangOne.gp 1 = false ∧
      (gangOne.gv 1).toNat < 2 ^ 13 ∧ gangOne.quiet gangOne.cur = true ∧ slotOf gangOne.cur < 512) ∧
    (gangArrived.me.arrived = true ∧ gangArrived.me.gang = true ∧ gangArrived.me.obj = some 2 ∧ gangArrived.me.deferred = none ∧
      (gangArrived.barAt 0 2).rootless = none ∧ gangArrived.me.barWait = false ∧ gangOne.me.barWait = false) ∧
    gangTurned.me.barWait = true ∧ (gangLost.me.gang = true ∧ gangLost.me.depth = 0 ∧ (gangLost.barAt 0 2).rootless = some (7 + 1024)) ∧
    (at_ { st := .ready, obj := some 2 }).me.gang = false ∧ (at_ { st := .ready, gang := true, depth := 1, obj := some 2 }).me.depth ≠ 0 := by
  decide +kernel

theorem test_witness_gleave :
    gangOne.me.gang = true ∧ gangOne.me.obj = some 2 ∧ ∃ t, exec .gleave gangOne = .next t := ⟨by decide +kernel, by decide +kernel, _, rfl⟩

/-- R250 to R253: an arrival sends one message to the object, gwait reads the last status at once, gquery names a member that has not
arrived (word 7 of slots, bit 56), and gleave leaves the slot IDLE. -/
theorem test_gang :
    (after (exec .garrive gangOne)).me.arrived = true ∧ (after (exec .garrive gangOne)).net.map (fun r => r.op) = [.arrive 0 2] ∧
      gAfter (exec (.gwait 5) gangOne) 5 = ok 7 ∧ gAfter (exec (.gquery 5 1) gangOne) 5 = ok 0x0100000000000000 ∧
      (after (exec .gleave gangOne)).me.st = .idle ∧ (after (exec .garrive gangArrived)).me.st = .blocked .retry := by decide +kernel

/-- R334, R331: a gbar that has arrived goes on as gwait; a member without a root traps GANG_LOST, which names the root's tile. -/
theorem test_gang_turned_lost :
    (after (exec (.gbar 5) gangTurned)).net = [] ∧ gAfter (exec (.gbar 5) gangTurned) 5 = ok 7 ∧
      (after (exec (.gwait 5) gangLost)).me.st = .blocked (.escalated 0x0F (codeBase + 0x1000) 7 none) := by decide +kernel

/-- A context that has borrowed slot 505. -/
def borrower : State :=
  { at_ { st := .ready, pc := codeBase + 0x1000, g := [(1, ok 505), (2, bad 6), (3, ok 9)], borrowed := [505] } with
    ctxs := [(504, { st := .ready, pc := codeBase + 0x1000, g := [(1, ok 505), (2, bad 6), (3, ok 9)], e := [(0, ok 1)], borrowed := [505] }),
      (505, { st := .borrowed, g := [(4, ok 44), (31, ok 31)], e := [(14, ok 14)], aside := some ({}, 0) })] }

theorem test_witness_BorrowedSlots :
    let free (s : State) (k : Nat) : Bool :=
      (s.tileAt 0).partOf k == s.partOf s.cur && decide ((s.ctxAt (ctxId 0 k)).st = .idle) && k != slotOf s.cur
    (handled.me.borrowed.length < 2 ∧ 505 < 512 ∧ free handled 505 = true ∧ ∀ k, k < 505 → free handled k = false) ∧
      (let s := at_ { st := .ready, borrowed := [505, 506] }
       2 ≤ s.me.borrowed.length) ∧
      (borrower.gp 1 = false ∧ (borrower.gv 1).toNat = 505 ∧ borrower.me.borrowed.contains 505 = true ∧
        borrower.there [gr (1 : BitVec 5)] = true ∧ (31 : BitVec 6).toNat < 32 ∧ (32 : BitVec 6).toNat ≤ 32 ∧ (7 : BitVec 6).toNat < 8 ∧
        gr (7 : BitVec 5) < 8 ∧ ctxId 0 505 ≠ borrower.cur ∧ borrower.there [gr (1 : BitVec 5), gr (31 : BitVec 5) % 32] = true ∧
        borrower.there (gr (1 : BitVec 5) :: regKeys (gr (31 : BitVec 5)) 32) = true ∧
        borrower.there (gr (1 : BitVec 5) :: eKeys (gr (7 : BitVec 5))) = true) ∧
      (borrower.there [gr (3 : BitVec 5)] = true ∧ borrower.gp 3 = false ∧
        ¬ ((borrower.gv 3).toNat < 512 ∧ borrower.me.borrowed.contains (borrower.gv 3).toNat = true)) := by decide +kernel

/-- R254, R255: the lowest IDLE slot; values and poison move, register numbers wrap. -/
theorem test_borrowed_slots :
    gAfter (exec (.sborrow 5) handled) 5 = ok 505 ∧ (after (exec (.sborrow 5) handled)).me.borrowed = [505] ∧
      gAfter (exec (.xmovFrom 5 1 31) borrower) 5 = ok 31 ∧
      ((after (exec (.xmovTo 1 2 30) borrower)).ctxAt 505).getG 30 = bad 6 ∧
      gAfter (exec (.xmovmFrom 31 1 3 2) borrower) 31 = ok 0 ∧
      ((after (exec (.xmovxTo 1 0 3) borrower)).ctxAt 505).getE 6 = ok 1 ∧
      (after (exec (.xmovxFrom 2 1 7) borrower)).me.getE 4 = ok 14 ∧
      (after (exec (.sreturn 3) borrower)).me.st = .blocked (.escalated 0x13 (codeBase + 0x1000) 9 none) := by decide +kernel

/-- A middle stage of a pipelined gang: set 1 up, set 2 down; the FIFOs 2 and 3 of the set above hold words from below. -/
def stageOne : State :=
  at_ { st := .ready, pc := codeBase + 0x1000, gang := true, pipe := true, stage := 1, stages := 3, qup := some 1, qdown := some 2,
        g := [(1, bad 9)] }
    { qsets := [(1, { f0 := [ok 5, ok 6] }), (2, { f0 := List.replicate 16 (ok 1), f1 := List.replicate 15 (ok 2) })] }

theorem test_witness_StageQueues :
    let s := stageOne
    (s.there [gr (1 : BitVec 5)] = true ∧ s.me.pipe = true ∧ s.me.stage.toNat + 1 < s.me.stages ∧ s.me.qdown = some 2 ∧ s.me.stage ≠ 0 ∧
      s.me.qup = some 1) ∧
    ((s.myTile.qsetAt 2).fifo 1).length < 16 ∧ 16 ≤ ((s.myTile.qsetAt 2).fifo 0).length ∧ (s.myTile.qsetAt 1).fifo ((3 + 2) % 4) = [] ∧
      (s.myTile.qsetAt 1).fifo ((2 + 2) % 4) = ok 5 :: [ok 6] := by decide +kernel

/-- R256, R257: queue 0 down is full, queue 2 reads FIFO 0 of the set above, and qlen counts words and room. -/
theorem test_stage_queues :
    (after (exec (.qput 1 0) stageOne)).me.st = .blocked .retry ∧ gAfter (exec (.qputNb 5 1 0) stageOne) 5 = ok 0 ∧
      (((after (exec (.qput 1 1) stageOne)).myTile.qsetAt 2).f1.getLastD {}) = bad 9 ∧ gAfter (exec (.qget 5 2) stageOne) 5 = ok 5 ∧
      gAfter (exec (.qgetNb 31 2) stageOne) 31 = ok 5 ∧ (after (exec (.qget 5 3) stageOne)).me.st = .blocked .retry ∧
      gAfter (exec (.qlen 5 2) stageOne) 5 = ok 0x1002 ∧ gAfter (exec (.qlen 5 1) stageOne) 5 = ok 0x100 := by decide +kernel

/-! ### Tasks and messages -/

/-- State word of a frame that runs in slot 504 of tile 0. -/
def runningWord : Nat := 2 ^ 63 + 2 ^ 60 + 504 * 2 ^ 37

/-- A context whose frame stands at offset 0 of buffer 5, with its adoption stack at offset 0x200; g1 is the frame, g4 is tile 1023. -/
def framed (depth : BitVec 3) : State :=
  { at_ { st := .ready, pc := codeBase + 0x1000, g := [(1, ok (bufPtr 5 0)), (2, ok (bufPtr 5 0)), (3, ok 9), (4, ok 1023)], depth := depth
          adoptsp := bufPtr 5 0x400, trapvec := codeBase } testTile with
    ircfg := testRegions, houseBtab := 0x1000400000000000, mem := writeBytes [] 136 8 runningWord }

theorem test_witness_SpawnAndHelp :
    let s := framed 0
    s.there [gr (1 : BitVec 5), gr (4 : BitVec 5)] = true ∧ s.gp 1 = false ∧ s.gp 4 = false ∧ s.me.deferred = none ∧
      (s.gv 1).toNat % 64 = 0 ∧ ptrIdx (s.gv 1) < 0x20000 ∧
      (match s.passesAll needRWS (wordsFrom (s.gv 1) 8) with
        | some (_, t) => decide (((t.tileAt (tileOf t.cur)).dequeAt (t.partOf t.cur)).count < 4096 ∧ (t.gv 4).toNat < 1024)
        | none => false) = true ∧
      (match ({ s with tiles := [(0, { testTile with deque := [(16, { tail := 4096 })] })] } : State).passesAll needRWS
          (wordsFrom (s.gv 1) 8) with
        | some (_, t) => decide (4096 ≤ ((t.tileAt (tileOf t.cur)).dequeAt (t.partOf t.cur)).count)
        | none => false) = true ∧
      (s.passesAll needRS (wordsFrom (s.gv 1) 2)).isSome = true := by decide +kernel

/-- R238, R242: the entry is reserved at once, and the release part has left. -/
theorem test_spawn :
    let t := after (exec (.spawn 1) (framed 0))
    ((t.myTile.dequeAt 16).entries.map (fun e => (e.frame, e.st)) = [(bufPtr 5 0, .reserved)]) ∧ (t.myTile.dequeAt 16).tail = 1 ∧
      t.me.pc = codeBase + 0x1004 ∧ t.net.map (fun r => (r.rel, r.ptr)) = [(true, bufPtr 5 0)] ∧
      gAfter (exec (.dqlen 5) t) 5 = ok 1 := by decide +kernel

/-- The state once the frame's words are checked, with the state word's line opened. -/
def frameOpen (s : State) : State :=
  match s.passesAll needRWS (wordsFrom (s.gv 2) 8) with
  | some (_, t) => t.openUnit 136 t.me.tenant.toNat (t.partOf t.cur) (s.gv 2)
  | none => {}

theorem test_witness_FrameEnds :
    let ends (s : State) : Prop :=
      s.there [gr (3 : BitVec 5), 2] = true ∧ s.me.deferred = none ∧ s.quiet s.cur = true ∧ s.marksDone s.cur = true ∧ s.gp 2 = false ∧
        s.me.gang = false
    let framed' (s : State) : Prop :=
      s.gv 2 ≠ 0 ∧ (s.gv 2).toNat % 64 = 0 ∧ ptrIdx (s.gv 2) < 0x20000 ∧
        (match s.passesAll needRWS (wordsFrom (s.gv 2) 8) with
          | some (ws, t) => ((ws.map (fun (x : Word × Target) => x.2)).getD 1 { dpa := 8 }).dpa == 136 && !t.gated 136
          | none => false) = true
    let named (s : State) : Prop :=
      (frameOpen s).quarantined 136 = false ∧ ((frameOpen s).gval 136).p = false ∧ swRunsIn ((frameOpen s).gval 136).v 0 504 = true
    (ends (regs []) ∧ (regs []).gv 2 = 0) ∧
    (ends (framed 0) ∧ framed' (framed 0) ∧ named (framed 0) ∧ (framed 0).me.depth = 0) ∧
    (ends (framed 1) ∧ framed' (framed 1) ∧ named (framed 1) ∧ (framed 1).me.depth ≠ 0) ∧
    (let s := { framed 0 with mem := [] }
     ends s ∧ framed' s ∧ ¬ named s ∧ s.me.depth = 0) := by decide +kernel

/-- R240, R164: DONE and the result; at depth 1 the reloads are due; a word that does not name the slot is left, with a record. -/
theorem test_frame_ends :
    (let t := after (exec (.tdone 3) (framed 0))
     swState (t.word 136) = 3 ∧ t.gval 128 = ok 9 ∧ t.me.st = .idle) ∧
    (let t := after (exec .texit (framed 0))
     swState (t.word 136) = 4 ∧ t.gval 128 = bad (bufPtr 5 0) ∧ t.records.map (fun r => fld r.w0 63 48) = [0x15]) ∧
    (let t := after (exec (.tdone 3) (framed 1))
     swState (t.word 136) = 3 ∧ t.me.st = .blocked (.returning false none)) ∧
    (let t := after (exec (.tdone 3) { framed 0 with mem := [] })
     t.word 136 = 0 ∧ t.me.st = .idle ∧ t.records.map (fun r => fld r.w0 63 48) = [0x0111]) := by decide +kernel

/-- g1 a message target in tile 3, g2 one of house, g3 a multicast target, e7 a mask of two tiles, g5 an aligned pointer of buffer 5. -/
def sender : State :=
  { at_ { st := .ready, pc := codeBase + 0x1000, g := [(1, ok 0x3005), (2, ok 0x80000000), (3, ok 0x80005), (5, ok (bufPtr 5 16))],
          e := [(14, ok 5)] } testTile with
    ircfg := testRegions, houseBtab := 0x1000400000000000 }

theorem test_witness_MessagesLeave :
    let s := sender
    s.there ([gr (1 : BitVec 5), gr (3 : BitVec 5), gr (9 : BitVec 5)] ++ eKeys (gr (7 : BitVec 5))) = true ∧ s.gp 1 = false ∧ s.gp 3 = false ∧
      s.gp 9 = false ∧ s.me.deferred = none ∧ (s.gv 1).toNat < 2 ^ 32 ∧ houseSlot s.cur = true ∧ s.fenceWaits s.cur .dom false = false ∧
      (houseSlot 503 = false ∧ (0x3005 : Word).toNat < 2 ^ 31 ∧ (0x3005 : Word).toNat / 2 ^ 8 % 2 ^ 4 = 0 ∧ (0x3005 : Word).toNat % 2 ^ 8 ≠ 0xFF) ∧
      ((s.gv 3).toNat / 2 ^ 30 % 2 = 0 ∧ (s.gv 3).toNat / 2 ^ 12 % 2 ^ 7 = 0 ∧ gr (7 : BitVec 5) < 8 ∧
        (s.me.getE 14).p = false ∧ (s.me.getE 15).p = false) ∧
      mcastTiles (s.me.getE 14).v (s.me.getE 15).v ((s.gv 3).toNat / 2 ^ 19 % 8) ≠ [] ∧
      mcastTiles (s.me.getE 12).v (s.me.getE 13).v ((s.gv 3).toNat / 2 ^ 19 % 8) = [] ∧
      ((s.gv 5).toNat % 16 = 0 ∧ s.gp 5 = false ∧ (s.passes (s.gv 5) 8 needWS).isSome = true) := by decide +kernel

/-- R244, R248, R249: the destination tile, a multicast to the tiles of the mask, and the mailbox's release. -/
theorem test_messages_leave :
    (after (exec (.send 6 1 3 9) sender)).msgs.map (fun m => (m.dst, m.type, m.m0)) = [(3, 5, 0x80005)] ∧
      (after (exec (.sendMc 7 3 9 9) sender)).msgs.map (fun m => m.dst) = [128, 130] ∧
      (after (exec (.sendMb 6 5 3) sender)).net.map (fun r => (r.op, r.rel, r.blocking)) = [(.mailbox false, true, true)] := by decide +kernel

/-! ### The row unit -/

/-- A context bound to accumulator `n` of type `ty`; rows 0 to 3 have these lanes 0, 1 and 63. -/
def rowsOf (ty : AType) (g : Map GVal) (lanes : List (Nat × (Elem × Bool))) : State :=
  at_ { st := .ready, pc := codeBase + 0x1000, abind := 31, g := g }
    { lown := [(46, 16)], acc := lanes.map (fun x => (15 * 4096 + x.1, x.2)), atype := if ty = .fp32 then [] else [(15, ty)] }

/-- Rows of fp32: 1.0 and -2.0 in row 0; 3.0 and a poisoned 0 in row 1. -/
def fpRows : State :=
  rowsOf .fp32 [(1, ok 0x40000000), (2, bad 0x3F800000), (3, ok 63), (4, ok 64)]
    [(0, (0x3F800000, false)), (1, (0xC0000000, false)), (64, (0x40400000, false)), (65, (0, true)), (191, (0x40800000, false))]

/-- Rows of i32: 5 and -7 in row 0; 2 and 33 in row 1, lane 1 of row 2 poisoned. -/
def intRows : State :=
  rowsOf .i32 [(1, ok 4)] [(0, (5, false)), (1, (0xFFFFFFF9, false)), (64, (2, false)), (65, (33, false)), (129, (0x7FFFFFFF, true))]

/-- Rows of bf16 pairs: (1.0, 2.0) in row 0 and (3.0, -1.0) in row 1. -/
def bfRows : State := rowsOf .bf16 [] [(0, (0x40003F80, false)), (64, (0xBF804040, false))]

/-- Lane `i` of row `row` of accumulator 15 after a step. -/
def laneAfter (o : Out) (row i : Nat) : Elem × Bool := (after o).myTile.lane 15 row i

theorem test_witness_RowsFp32 :
    fpRows.rowReady [5, 0, 31] = true ∧ fpRows.myTile.typeOf fpRows.boundAcc = .fp32 ∧ (31 : BitVec 6).toNat < 32 ∧
      fpRows.there [gr (31 : BitVec 6)] = true ∧ 31 < (32 : BitVec 6).toNat := by decide +kernel

/-- R265, R274: 1 + 3, -2 + poison; fma adds to the destination; broadcast operands carry their poison. -/
theorem test_rows_fp32 :
    [laneAfter (exec (.vaddFp32 5 0 1) fpRows) 5 0, laneAfter (exec (.vaddFp32 5 0 1) fpRows) 5 1, laneAfter (exec (.vsubFp32 5 0 1) fpRows) 5 0,
      laneAfter (exec (.vmulFp32 5 0 1) fpRows) 5 0, laneAfter (exec (.vdivFp32 5 0 1) fpRows) 5 0, laneAfter (exec (.vfmaFp32 0 0 1) fpRows) 0 0,
      laneAfter (exec (.vminFp32 5 0 1) fpRows) 5 0, laneAfter (exec (.vmaxFp32 5 0 1) fpRows) 5 0, laneAfter (exec (.vabsFp32 5 0) fpRows) 5 1,
      laneAfter (exec (.vnegFp32 5 0) fpRows) 5 0, laneAfter (exec (.vreluFp32 5 0) fpRows) 5 1, laneAfter (exec (.vsqrtFp32 5 2) fpRows) 5 63,
      laneAfter (exec (.vrcpFp32 5 0) fpRows) 5 1, laneAfter (exec (.vaddbFp32 5 0 1) fpRows) 5 0, laneAfter (exec (.vmulbFp32 5 0 2) fpRows) 5 1] =
    [(0x40800000, false), (0xC0000000, true), (0xC0000000, false), (0x40400000, false), (0x3EAAAAAB, false), (0x40800000, false),
      (0x3F800000, false), (0x40400000, false), (0x40000000, false), (0xBF800000, false), (0, false), (0x40000000, false),
      (0xBF000000, false), (0x40400000, false), (0xC0000000, true)] := by decide +kernel

/-- R268 at arguments with exact results: exp 0, log 1, rsqrt 4, tanh 0, sigm 0. -/
theorem test_row_functions :
    [laneAfter (exec (.vexpFp32 5 3) fpRows) 5 0, laneAfter (exec (.vlogFp32 5 0) fpRows) 5 0, laneAfter (exec (.vrsqrtFp32 5 2) fpRows) 5 63,
      laneAfter (exec (.vtanhFp32 5 3) fpRows) 5 0, laneAfter (exec (.vsigmFp32 5 3) fpRows) 5 0] =
    [(0x3F800000, false), (0, false), (0x3F000000, false), (0, false), (0x3F000000, false)] := by decide +kernel

theorem test_witness_RowsBf16I32 :
    bfRows.rowReady [5, 0, 1] = true ∧ bfRows.myTile.typeOf bfRows.boundAcc = .bf16 ∧ intRows.rowReady [5, 0, 1] = true ∧
      intRows.myTile.typeOf intRows.boundAcc = .i32 := by decide +kernel

/-- R266: (1 + 3, 2 - 1); R267: wrapping, shifts by the low five bits. -/
theorem test_rows_bf16_i32 :
    [laneAfter (exec (.vaddBf16 5 0 1) bfRows) 5 0, laneAfter (exec (.vmulBf16 5 0 1) bfRows) 5 0, laneAfter (exec (.vmaxBf16 5 0 1) bfRows) 5 0,
      laneAfter (exec (.vfmaBf16 0 0 1) bfRows) 0 0, laneAfter (exec (.vreluBf16 5 1) bfRows) 5 0,
      laneAfter (exec (.vaddI32 5 2 2) intRows) 5 1, laneAfter (exec (.vsubI32 5 0 1) intRows) 5 0, laneAfter (exec (.vmulI32 5 0 1) intRows) 5 1,
      laneAfter (exec (.vminI32 5 0 1) intRows) 5 1, laneAfter (exec (.vandI32 5 0 1) intRows) 5 1, laneAfter (exec (.vshlI32 5 0 1) intRows) 5 1,
      laneAfter (exec (.vsraI32 5 0 1) intRows) 5 1, laneAfter (exec (.vreluI32 5 0) intRows) 5 1] =
    [(0x3F804080, false), (0xC0004040, false), (0x40004040, false),
      (0x00004080, false), (0x00004040, false),
      (0xFFFFFFFE, true), (3, false), (0xFFFFFF19, false),
      (0xFFFFFFF9, false), (33, false), (0xFFFFFFF2, false),
      (0xFFFFFFFC, false), (0, false)] := by decide +kernel

theorem test_witness_RowCompares :
    (fpRows.rowReady [5, 0, 1] = true ∧ fpRows.myTile.typeOf fpRows.boundAcc = .fp32 ∧ fpRows.myTile.poisonedLane fpRows.boundAcc 0 = none ∧
      fpRows.myTile.poisonedLane fpRows.boundAcc 2 = none) ∧
    (intRows.rowReady [5, 0, 1] = true ∧ intRows.myTile.typeOf intRows.boundAcc = .i32 ∧ intRows.myTile.poisonedLane intRows.boundAcc 0 = none ∧
      intRows.myTile.poisonedLane intRows.boundAcc 1 = none ∧ intRows.myTile.poisonedLane intRows.boundAcc 2 = some 1) := by decide +kernel

/-- R269, R274: all ones or 0; the lowest poisoned element names itself in c.tval. -/
theorem test_row_compares :
    laneAfter (exec (.vcmpLtI32 5 0 1) intRows) 5 1 = (0xFFFFFFFF, false) ∧ laneAfter (exec (.vcmpEqI32 5 0 1) intRows) 5 0 = (0, false) ∧
      laneAfter (exec (.vcmpLeFp32 5 0 0) fpRows) 5 1 = (0xFFFFFFFF, false) ∧ laneAfter (exec (.vsel 0 1 2) intRows) 0 0 = (2, false) ∧
      (after (exec (.vcmpEqI32 5 2 0) intRows)).me.st = .blocked (.escalated 0x0D (codeBase + 0x1000) 0xF0201 none) := by decide +kernel

theorem test_witness_RowReductionsConversions :
    fpRows.rowReady [5, 0, 1] = true ∧ fpRows.myTile.typeOf fpRows.boundAcc = .fp32 ∧ intRows.myTile.typeOf intRows.boundAcc = .i32 ∧
      (31 : BitVec 6).toNat < 32 ∧ fpRows.there [gr (31 : BitVec 6)] = true ∧ fpRows.there [gr (3 : BitVec 6)] = true ∧
      (fpRows.me.getG (gr (3 : BitVec 6))).p = false ∧ (fpRows.me.getG (gr (3 : BitVec 6))).v.toNat < 64 ∧ intRows.rowReady [5, 0, 1] = true := by
  decide +kernel

/-- R270, R271: a sum in all lanes, a maximum, one element, and conversions both ways. -/
theorem test_row_reductions :
    laneAfter (exec (.vsumFp32 5 0) fpRows) 5 63 = (0xBF800000, false) ∧ laneAfter (exec (.vmaxrFp32 5 2) fpRows) 5 0 = (0x40800000, false) ∧
      laneAfter (exec (.vsumI32 5 0) intRows) 5 7 = (0xFFFFFFFE, false) ∧ laneAfter (exec (.vbcast 5 2) fpRows) 5 9 = (0x3F800000, true) ∧
      gAfter (exec (.vget 6 2 3) fpRows) 6 = ok 0x40800000 ∧ laneAfter (exec (.vset 0 1 3) fpRows) 0 63 = (0x40000000, false) ∧
      laneAfter (exec (.vcvtBf16Fp32 5 0 1) fpRows) 5 0 = (0x40403F80, false) ∧ laneAfter (exec (.vcvtFp32Bf16 5 0 1) bfRows) 5 0 = (0x40000000, false) ∧
      laneAfter (exec (.vcvtI32Fp32 5 0) fpRows) 5 1 = (0xFFFFFFFE, false) ∧ laneAfter (exec (.vcvtFp32I32 5 0) intRows) 5 0 = (0x40A00000, false) ∧
      (after (exec (.vget 6 2 4) fpRows)).me.st = .blocked (.escalated 0x02 (codeBase + 0x1000) 64 none) := by decide +kernel

/-- Bank 2 holds raw fp32 words by the format register `fmt`; g1 points at its last row of 64 elements of four bytes. -/
def loftRows (fmt : Word) : State :=
  { at_ { st := .ready, pc := codeBase + 0x1000, abind := 31, g := [(1, ok (bufPtr 0x3FFFE 0x5FF00)), (2, ok 0)] }
      { lown := [(46, 16)], fmt := [(2, fmt)], acc := [(15 * 4096 + 64, (0x40400000, false))] } with
    mem := writeBytes [] (State.reset.loftDpa 0 0x5FF00) 4 0x3F800000 }

theorem test_witness_RowMemory :
    let s := loftRows (wd (fFP32 * 2 ^ 16))
    let p := padd (s.me.getG 1).v (s.me.getG 2).v
    let load : RowLoad := { id := 1, ctx := 504, acc := 15, row := 5, type := .fp32, fmt := wd (fFP32 * 2 ^ 16)
                            dpa := State.reset.loftDpa 0 0x5FF00, ptr := p, need := 32 }
    let ws := wordsOf load.dpa (runBytes fFP32 64)
    (s.rowReady [5, 1, 2] = true ∧ (1 : BitVec 6).toNat < 32 ∧ (2 : BitVec 6).toNat < 32 ∧ s.there [1, 2] = true ∧ (s.me.getG 1).p = false ∧
      (s.me.getG 2).p = false ∧ ptrIdx p = 0x3FFFE ∧ 0x40000 ≤ ptrOff p ∧ ptrOff p < 0x800000 ∧
      lfmtFmt (s.myTile.fmtAt (bankOf (ptrOff p)).1) ≠ fRAW ∧ ptrOff p % elemBytes fFP32 = 0 ∧
      (bankOf (ptrOff p)).2.1 + runBytes fFP32 64 = (bankOf (ptrOff p)).2.2 ∧
      s.loftOwned 0 (lownEntry (ptrOff p)) (s.partOf s.cur) = true ∧
      s.outstanding 0 + (runWords (s.loftDpa 0 (ptrOff p)) (runBytes fFP32 64) p).length ≤ 4096) ∧
    (load.type ≠ .bf16 ∧ lfmtFmt load.fmt ≠ fRAW ∧ (∀ w ∈ ws, s.retiredAt w = false) ∧
      ({ load with words := ws.map (fun w => (w, s.gval w)) } : RowLoad).words = ws.map (fun w => (w, s.gval w))) := by decide +kernel

/-- R272, R273: a row from and to the bank, whose last lane ends with the bank: 32 words, and the element in each half of the first. -/
theorem test_row_memory :
    (after (exec (.vld 5 1 2) (loftRows (wd (fFP32 * 2 ^ 16))))).net.length = 32 ∧
      (after (exec (.vld 5 1 2) (loftRows (wd (fFP32 * 2 ^ 16))))).me.pc = codeBase + 0x1004 ∧
      ((after (exec (.vst 1 1 2) (loftRows (wd (fFP32 * 2 ^ 16))))).net.map (fun r => (r.op, r.val))).head? =
        some (.rowStore 8, ok 0x40400000) := by decide +kernel

/-! ### The matrix unit, the copy engine -/

/-- A tile whose bank 2 and slices hold fp32 operands: bank 2 with layout `lay` and a pitch of 48 words. -/
def matrixTile (lay : Nat) : Tile :=
  { testTile with lown := [(16, 16), (46, 16)], fmt := [(2, wd (lay * 2 ^ 22 + fFP32 * 2 ^ 16 + 48)), (32, wd (fFP32 * 2 ^ 16))] }

/-- e0: the descriptor of a command of K = 96 on bank 2, row 0, slice offset 0; e1: an element pointer for a drain. -/
def matrixRegs (lay : Nat) : State :=
  { at_ { st := .ready, pc := codeBase + 0x1000, g := [(1, ok (bufPtr 5 0)), (2, ok 32768), (3, ok 32769), (4, bad 0), (5, ok 0x10000)],
          e := [(0, ok 0x0000042000000000), (2, ok (bufPtr 5 64))] } (matrixTile lay) with
    ircfg := testRegions, houseBtab := 0x1000400000000000 }

/-- The same, with a command on accumulator 3 in the queue. -/
def busyMatrix : State :=
  (matrixRegs 0).setTileAt 0 { matrixTile 0 with mq := [{ id := 9, form := .z, dst := 3, part := 16, tenant := 0, ctx := 504 }] }

theorem test_witness_Accumulators :
    (busyMatrix.ownsMatrix = true ∧ (15 : BitVec 5).toNat < 16 ∧ busyMatrix.myTile.busyAcc 15 = false ∧
      busyMatrix.myTile.busyAcc (3 : BitVec 5).toNat = true ∧ (7 : BitVec 5).toNat < 8 ∧
      busyMatrix.there [gr (1 : BitVec 5), gr (4 : BitVec 5)] = true ∧ busyMatrix.there (eKeys (gr (7 : BitVec 5))) = true) ∧
    (bufRegs.ownsMatrix = false ∧ bufRegs.there (gr (7 : BitVec 5) :: eKeys (gr (7 : BitVec 5))) = true) := by decide +kernel

/-- R277, R278: binding, types, an interlocked accumulator, and the halves of an e register with their poison. -/
theorem test_accumulators :
    (after (exec (.abind 15) busyMatrix)).me.abind = 31 ∧ (after (exec .aunbind busyMatrix)).me.abind = 0 ∧
      (after (exec (.atypeI32 15) busyMatrix)).myTile.typeOf 15 = .i32 ∧ (after (exec (.azero 3) busyMatrix)).me.st = .blocked .retry ∧
      gAfter (exec (.aqlen 5) busyMatrix) 5 = ok 1 ∧ gAfter (exec (.aver 5 15) busyMatrix) 5 = ok 0 ∧
      (after (exec (.xset 7 1 4) busyMatrix)).me.getE 15 = bad 0 ∧ gAfter (exec (.xgetLo 5 1) busyMatrix) 5 = ok (bufPtr 5 64) ∧
      gAfter (exec (.xgetHi 5 0) busyMatrix) 5 = ok 0 ∧ (after (exec (.xclr 0) busyMatrix)).me.getE 0 = ok 0 := by decide +kernel

theorem test_witness_MatrixCommands :
    let s := matrixRegs 0
    (s.ownsMatrix = true ∧ s.myTile.matrixDown = false ∧ (15 : BitVec 5).toNat < 16 ∧
      s.there (gr (1 : BitVec 5) :: eKeys (gr (0 : BitVec 5))) = true ∧ (s.me.getE 0).p = false ∧ (s.me.getE 1).p = false ∧
      s.myTile.descFault (s.partOf s.cur) 15 .mma (s.me.getE 0).v (s.me.getE 1).v = none ∧
      s.myTile.descFault (s.partOf s.cur) 15 .z (s.me.getE 0).v (s.me.getE 1).v = none ∧
      (matrixRegs 1).myTile.descFault 16 15 .sp6 (s.me.getE 0).v (s.me.getE 1).v = none ∧
      (matrixRegs 2).myTile.descFault 16 15 .sp12 (s.me.getE 0).v (s.me.getE 1).v = none ∧
      s.myTile.descFault 16 15 .mma (s.me.getE 2).v (s.me.getE 3).v = some (cILLEGAL_OPERAND, bufPtr 5 64)) ∧
    (s.doneOk 0 = some (none, s) ∧ s.doneOk 1 = some (some (bufPtr 5 0), s) ∧ (s.me.getE 3).v = 0 ∧ (s.me.getE 2).v.toNat % 64 = 0 ∧
      s.myTile.copyDown = false ∧ s.myTile.busyAcc 15 = false ∧ s.myTile.typeOf 15 ≠ .i32) ∧
    (s.gp 2 = false ∧ s.myTile.typeOf 15 = s.myTile.typeOf 0 ∧
      ((s.gv 2).setWidth 16 - s.myTile.version (gr (15 : BitVec 5))).toNat ≤ 32768) ∧
    (s.gp 5 = false ∧ ((s.gv 5).setWidth 16 - s.myTile.version 0).toNat = 0 ∧
      32768 < ((s.gv 3).setWidth 16 - s.myTile.version 0).toNat ∧ ((s.gv 2).setWidth 16 - s.myTile.version 0).toNat ≠ 0) := by
  decide +kernel

/-- R280 to R289: what a command's entry holds, and what an await waits for. -/
theorem test_matrix_commands :
    (after (exec (.mma 15 0) (matrixRegs 0))).myTile.mq =
        [{ id := 1, form := .mma, dst := 15, lo := 0x0000042000000000, part := 16, tenant := 0, ctx := 504 }] ∧
      (after (exec (.acopy 15 4 2) (matrixRegs 0))).myTile.mq =
        [{ id := 1, form := .acopy, dst := 15, src := 4, expver := 32768, part := 16, tenant := 0, ctx := 504 }] ∧
      (after (exec (.drain 15 1 1) (matrixRegs 0))).myTile.mq =
        [{ id := 1, form := .drain, dst := 15, lo := bufPtr 5 64, part := 16, tenant := 0, ctx := 504, done := some (bufPtr 5 0) }] ∧
      (after (exec (.await 0 2) (matrixRegs 0))).me.st = .blocked (.await 0 32768 none) ∧
      (after (exec (.await 0 3) (matrixRegs 0))).me.pc = codeBase + 0x1004 ∧
      (after (exec (.acopy 15 4 3) (matrixRegs 0))).me.st = .blocked (.escalated 0x11 (codeBase + 0x1000) 32769 none) := by decide +kernel

/-- e0: source and destination records at offsets 0 and 64; e1: a multicast mask of tiles 0 and 1 of tower 0; e2: a descriptor. -/
def copyRegs : State :=
  { at_ { st := .ready, pc := codeBase + 0x1000, g := [(1, ok (bufPtr 5 0)), (2, ok 0x3005)],
          e := [(0, ok (bufPtr 5 0)), (1, ok (bufPtr 5 64)), (2, ok 3), (4, ok 0x0000042000000000)] } (matrixTile 0) with
    ircfg := testRegions, houseBtab := 0x1000400000000000 }

theorem test_witness_CopyCommandsQueue :
    let s := copyRegs
    s.myTile.copyDown = false ∧ (0 : BitVec 5).toNat < 8 ∧ (2 : BitVec 5).toNat < 8 ∧ s.doneOk 1 = some (some (bufPtr 5 0), s) ∧
      s.there (eKeys (gr (0 : BitVec 5)) ++ eKeys (gr (0 : BitVec 5) + 1) ++ [gr (1 : BitVec 5), gr (2 : BitVec 5)] ++ eKeys (gr (2 : BitVec 5))) = true ∧
      (s.me.getE 1).p = false ∧ (s.me.getE 1).v.toNat % 64 = 0 ∧ (s.me.getE 0).p = false ∧ (s.me.getE 0).v.toNat % 64 = 0 ∧
      ((0 : BitVec 5).toNat % 2 = 0 ∧ (s.me.getE 2).p = false ∧ (s.me.getE 3).p = false ∧ (s.me.getE 3).v.toNat < 16) ∧
      (s.gp 2 = false ∧ (s.gv 2).toNat < 2 ^ 31 ∧ (s.gv 2).toNat / 2 ^ 8 % 2 ^ 4 = 0 ∧ (s.gv 2).toNat % 2 ^ 8 ≠ 0xFF) ∧
      (s.myTile.matrixDown = false ∧ s.ownsMatrix = true ∧ (s.me.getE 4).p = false ∧ (s.me.getE 5).p = false ∧
        s.myTile.descFault (s.partOf s.cur) 15 (followForm 0) (s.me.getE 4).v (s.me.getE 5).v = none ∧ s.copyRoom = true ∧
        s.myTile.mq.length < 32) := by decide +kernel

/-- R292, R298, R303: the entries of both queues. -/
theorem test_copy_commands :
    (after (exec (.cpy 0 0) copyRegs)).myTile.cq =
        [{ id := 1, form := .cpy, lo := ok (bufPtr 5 0), hi := ok (bufPtr 5 64), ctx := 504, part := 16, tenant := 0, user := false }] ∧
      (after (exec (.cpySend 2 0 1) copyRegs)).myTile.cq =
        [{ id := 1, form := .send, lo := ok (bufPtr 5 0), hi := ok (bufPtr 5 64), ctx := 504, part := 16, tenant := 0, user := false
           target := 0x3005, done := some (bufPtr 5 0) }] ∧
      (after (exec (.cpyMm 2 0 0 15) copyRegs)).myTile.cq =
        [{ id := 1, form := .mm, lo := ok (bufPtr 5 0), hi := ok (bufPtr 5 64), ctx := 504, part := 16, tenant := 0, user := false
           follow := some 2, facc := 15, fdesc := (0x0000042000000000, 0) }] ∧
      (after (exec (.cpyMmMc 2 0 0 15) copyRegs)).myTile.mq.map (fun m => (m.form, m.dst, m.waits, m.ghost)) = [(.mma, 15, true, false)] ∧
      (after (exec (.cpyMc 1 0) copyRegs)).me.st = .blocked (.escalated 0x02 (codeBase + 0x1000) 1 none) := by decide +kernel

/-- Two commands in the queue of tile 0, the second with a completion word. -/
def copies : State :=
  copyRegs.setTileAt 0 { matrixTile 0 with
    cq := [{ id := 7, form := .cpy, lo := ok 0, hi := ok 0, ctx := 504, part := 16, tenant := 0 },
      { id := 8, form := .fill, lo := ok 0, hi := ok 0, ctx := 505, part := 16, tenant := 0, done := some (bufPtr 5 0), st := .running, pos := 5 }] }

theorem test_witness_CopyCancelQuery :
    copies.there [gr (0 : BitVec 5)] = true ∧ copies.gp 0 = false ∧ copies.there [gr (1 : BitVec 5)] = true ∧ copies.gp 1 = false ∧
      copies.myTile.copyDown = false ∧ copies.doneOk 0 = some (none, copies) ∧ copies.doneOk 1 = some (some (bufPtr 5 0), copies) ∧
      (let s := copies.setTileAt 0 { copies.myTile with copyDown := true }
       s.gp 0 = false ∧ s.myTile.copyDown = true) ∧ ((regs [(1, bad 1)]).there [gr (1 : BitVec 5)] = true ∧ (regs [(1, bad 1)]).gp 1 = true) ∧
      (copies.namedCopies (gr (1 : BitVec 5)) (fun _ => true)).map (fun c => c.id) = [8] ∧
      copies.namedCopies (gr (2 : BitVec 5)) (fun _ => true) = [] := by decide +kernel

/-- R307, R308: one command of this context, and the state and position of the named one. -/
theorem test_copy_cancel_query :
    gAfter (exec (.cpyCancel 5 0) copies) 5 = ok 1 ∧ gAfter (exec (.cpyQuery 5 0) copies) 5 = ok 2 ∧
      gAfter (exec (.cpyQuery 5 1) copies) 5 = ok 0x8000000000000005 ∧ gAfter (exec (.cpyQuery 5 2) copies) 5 = ok 0 := by decide +kernel

/-! ### Device firmware's instructions -/

/-- A parked reference of this package, in entry `n`. -/
def waitOf (r : Req) (n : Nat) : Wait := { req := r, num := n, shared := false, deadline := none, pkg := 0 }

/-- g1 selects LOWN entry 16 of tile 1, g2 a bad block; g3 names context 511 of tile 0, g8 this one; g4 and g6 are aligned, g5 is 64. -/
def firmware : State :=
  { at_ { st := .ready, pc := codeBase + 0x1000, g := [(1, ok 0x01004010), (2, ok 0x0D000000), (3, ok 511), (4, ok (bufPtr 5 0)), (5, ok 64),
          (6, ok (bufPtr 5 64)), (7, ok 0x100000000), (8, ok 504), (9, ok codeBase), (10, ok 0x0C000000)] } testTile with
    ircfg := testRegions, houseBtab := 0x1000400000000000, mem := writeBytes (writeBytes [] 128 8 0x1122) 184 8 0x3344
    tags := [(136, ⟨false, false, true⟩)] }

/-- The same with context 511 at work, one of its references parked, and a load to bank 0 in flight. -/
def firmwareBusy : State :=
  { firmware.setCtxAt 511 { st := .ready } with
    waits := [waitOf { id := 3, src := 0, slot := 511, op := .wf, dpa := 128, ptr := 0, blocking := true } 0]
    net := [{ pendingRef 1 (.load 8 false) false with dpa := mkDpa true 0 0 0 0 }] }

theorem test_witness_HouseRegisters :
    slotOf (userRegs []).cur < 504 ∧
      (504 ≤ slotOf firmware.cur ∧ firmware.there [gr (1 : BitVec 5), gr (5 : BitVec 5)] = true ∧ firmware.gp 1 = false ∧ firmware.gp 5 = false ∧
        (firmware.gv 1).toNat < 2 ^ 32 ∧ selectorOk 1 16 = true ∧ selectorOk 12 0 = true ∧ selectorOk 13 0 = false ∧
        2 ^ 32 ≤ (firmware.gv 7).toNat ∧ (firmware.gv 10).toNat / 2 ^ 24 % 2 ^ 8 = 12) := by decide +kernel

/-- R323: LOWN of another tile; a selector outside the table, and a user slot. -/
theorem test_house_registers :
    gAfter (exec (.hcget 11 1) firmware) 11 = ok 31 ∧ ((after (exec (.hcset 1 5) firmware)).tileAt 1).lownAt 16 = 0 ∧
      (after (exec (.hcget 11 2) firmware)).me.st = .blocked (.escalated 0x02 (codeBase + 0x1000) 0x0D000000 none) ∧
      (after (exec (.hcget 11 7) firmware)).me.st = .blocked (.escalated 0x02 (codeBase + 0x1000) 0x100000000 none) ∧
      (after (exec (.hkill 11 1) (userRegs []))).me.st = .blocked (.escalated 0x17 (codeBase + 0x1000) 0x0800F0B3 none) := by decide +kernel

theorem test_witness_HouseSlots :
    (504 ≤ slotOf firmware.cur ∧ firmware.there [gr (3 : BitVec 5), gr (9 : BitVec 5), gr (5 : BitVec 5)] = true ∧ firmware.gp 3 = false ∧
      firmware.gp 9 = false ∧ firmware.gp 5 = false ∧ (firmware.ctxAt ((firmware.gv 3).toNat % 2 ^ 19)).st = .idle ∧
      (firmwareBusy.ctxAt ((firmwareBusy.gv 3).toNat % 2 ^ 19)).st ≠ .idle ∧ 511 ≠ firmware.cur ∧
      (firmware.ctxAt ((firmware.gv 8).toNat % 2 ^ 19)).st ≠ .idle ∧ (firmware.gv 8).toNat % 2 ^ 19 = firmware.cur ∧
      firmware.spaceQuiet 0 ((firmware.gv 0).toNat % 64) = true ∧ firmwareBusy.spaceQuiet 0 ((firmware.gv 0).toNat % 64) = false) ∧
    (firmware.quiet firmware.cur = true ∧
      (firmware.gv 4).toNat % 64 = 0 ∧ (firmware.passesAll needR (wordsFrom (firmware.gv 4) 8)).isSome = true ∧ firmware.gv 0 = 0 ∧
      (firmware.gv 5).toNat % 64 = 0 ∧
      (match firmware.passesAll needR (wordsFrom (firmware.gv 4) ((firmware.gv 5).toNat / 8)) with
        | some (ws, t) => ws.all (fun v => !t.homeWaits v.2.dpa && decide (t.homeStop v.2.dpa false = none))
        | none => false) = true ∧
      (match firmware.passesAll needW (wordsFrom (firmware.gv 6) ((firmware.gv 5).toNat / 8)) with
        | some (vs, u) => vs.all (fun v => !u.homeWaits v.2.dpa && decide (u.homeStop v.2.dpa true = none))
        | none => false) = true) := by decide +kernel

/-- R324: a start, an end that cancels, a record, and a copy that carries presence and poison. -/
theorem test_house_slots :
    ((after (exec (.hstart 11 3 9 5) firmware)).ctxAt 511).st = .ready ∧ ((after (exec (.hstart 11 3 9 5) firmware)).ctxAt 511).getG 4 = ok 64 ∧
      gAfter (exec (.hstart 11 3 9 5) firmwareBusy) 11 = ok 1 ∧ gAfter (exec (.hkill 11 3) firmwareBusy) 11 = ok 1 ∧
      (after (exec (.hkill 11 3) firmwareBusy)).waits = [] ∧ gAfter (exec (.hpurge 11 0) firmwareBusy) 11 = ok 1 ∧
      (after (exec (.hquiesce 0) firmwareBusy)).me.st = .blocked .retry ∧
      (after (exec (.hrec 4) firmware)).records.map (fun r => (r.w0, r.w7)) = [(0x1122, 0x3344)] ∧
      (after (exec (.hcopy 4 6 5) firmware)).word (mkDpa false 0 0 1 128) = 0x1122 ∧
      (after (exec (.hcopy 4 6 5) firmware)).tagAt (mkDpa false 0 0 1 136) = ⟨false, false, true⟩ := by decide +kernel

/-! ### Events at the banks, and answers -/

/-- A package in which one request is in flight to the word at 128, which holds 0xFFEEDDCCBBAA9988. -/
def flying (op : MemOp) (val : GVal) (tag : Tag) : State :=
  { net := [{ id := 3, src := 0, slot := 7, op := op, dpa := 128, ptr := bufPtr 5 0, val := val, dest := [4], limit := 2 }]
    mem := writeBytes [] 128 8 0xFFEEDDCCBBAA9988, tags := if tag = {} then [] else [(128, tag)] }

/-- The request of `flying`. -/
def flyingReq (op : MemOp) (val : GVal) : Req :=
  { id := 3, src := 0, slot := 7, op := op, dpa := 128, ptr := bufPtr 5 0, val := val, dest := [4], limit := 2 }

/-- An empty word. -/
def emptyTag : Tag := ⟨false, false, false⟩

theorem test_witness_ArrivalsRead :
    State.arrives (flying (.load 8 true) {} {}) 0 (flyingReq (.load 8 true) {}) ∧ (128 % 8 = 0) ∧
      State.arrives (flying .probe {} emptyTag) 0 (flyingReq .probe {}) ∧ State.arrives (flying .pget {} emptyTag) 0 (flyingReq .pget {}) ∧
      State.arrives (flying (.rowLoad 2) {} {}) 0 (flyingReq (.rowLoad 2) {}) ∧
      State.arrives (flying .wf {} {}) 0 (flyingReq .wf {}) ∧ ((flying .wf {} {}).tagAt 128).full = true ∧
      State.arrives (flying .wf {} emptyTag) 0 (flyingReq .wf {}) ∧ ((flying .wf {} emptyTag).tagAt 128).full = false := by
  unfold State.arrives; decide +kernel

theorem test_witness_ArrivalsRead_help :
    State.arrives (flying .wfc {} {}) 0 (flyingReq .wfc {}) ∧ ((flying .wfc {} {}).tagAt 128).full = true ∧
      State.arrives (flying .wfc {} emptyTag) 0 (flyingReq .wfc {}) ∧ ((flying .wfc {} emptyTag).tagAt 128).full = false ∧
      State.arrives (flying (.help true) {} {}) 0 (flyingReq (.help true) {}) ∧ ((flying (.help true) {} {}).tagAt 128).full = true ∧
      State.arrives (flying (.help false) {} emptyTag) 0 (flyingReq (.help false) {}) ∧
      ((flying (.help false) {} emptyTag).tagAt 128).full = false ∧ (flying (.help false) {} emptyTag).ownerOf 128 (bufPtr 5 0) = 0 ∧
      State.ownerOf { mem := writeBytes [] 136 8 0x1234 } 128 0 ≠ 0 := by
  unfold State.arrives; decide +kernel

/-- R62, R66, R219: a signed byte, a probe of an empty word, and the order of a list. -/
theorem test_arrivals_read :
    (after (exec (.arriveLoad 0) (flying (.load 1 true) {} {}))).replies.map (fun r => r.ans) = [.value (ok 0xFFFFFFFFFFFFFF88)] ∧
      (after (exec (.arriveProbe 0) (flying .probe {} ⟨false, false, true⟩))).replies.map (fun r => r.ans) =
        [.probed (bad 0xFFEEDDCCBBAA9988) false] ∧
      (after (exec (.arriveWf 0) (flying .wf {} emptyTag))).waits.map (fun w => (w.req.id, w.deadline)) = [(3, none)] ∧
      ((after (exec (.arriveWfc 0) (flying .wfc {} {}))).tagAt 128).full = false := by decide +kernel

theorem test_witness_park :
    (flying .wf {} emptyTag).waitRoom (flyingReq .wf {}) = some false ∧
      ({ waits := List.replicate 480 { waitOf (flyingReq .wf {}) 0 with shared := true } ++ List.replicate 64 (waitOf (flyingReq .wf {}) 0) } : State).waitRoom
        (flyingReq .wf {}) = none ∧
      (flyingReq .wf {}).deadline = 0 ∧ ({ flyingReq .wf {} with deadline := 1 } : Req).deadline ≠ 0 := by decide +kernel

theorem test_witness_ArrivalsWrite :
    State.arrives (flying (.store 4) (ok 5) {}) 0 (flyingReq (.store 4) (ok 5)) ∧ State.arrives (flying .sf (ok 5) {}) 0 (flyingReq .sf (ok 5)) ∧
      State.arrives (flying .we (ok 5) emptyTag) 0 (flyingReq .we (ok 5)) ∧ ((flying .we (ok 5) emptyTag).tagAt 128).full = false ∧
      State.alone (flying .we (ok 5) emptyTag) 128 ∧ State.arrives (flying .we (ok 5) {}) 0 (flyingReq .we (ok 5)) ∧
      ((flying .we (ok 5) {}).tagAt 128).full = true ∧ State.arrives (flying .pset {} emptyTag) 0 (flyingReq .pset {}) ∧
      State.arrives (flying .pclr {} {}) 0 (flyingReq .pclr {}) := by
  unfold State.arrives State.alone; decide +kernel

theorem test_witness_ArrivalsWrite_row :
    State.arrives (flying (.rowStore 8) (ok 5) {}) 0 (flyingReq (.rowStore 8) (ok 5)) ∧
      (flyingReq (.rowStore 8) (ok 5)).dpa % 8 + 8 ≤ 8 ∧ State.alone (flying .sf (ok 5) {}) 128 ∧ State.alone (flying .pset {} {}) 128 := by
  unfold State.arrives State.alone; decide +kernel

theorem test_arrivals_write :
    (after (exec (.arriveStore 0) (flying (.store 2) (ok 0x12345) {}))).word 128 = 0xFFEEDDCCBBAA2345 ∧
      (after (exec (.arriveWe 0) (flying .we (ok 5) emptyTag))).word 128 = 5 ∧
      ((after (exec (.arriveWe 0) (flying .we (ok 5) emptyTag))).tagAt 128).full = true ∧
      (after (exec (.arriveSf 0) (flying .sf (bad 5) emptyTag))).tagAt 128 = ⟨true, false, true⟩ := by decide +kernel

/-- A reduce-cell read with every slot but one read. -/
def cellRead (n : Nat) : State :=
  { net := [{ flyingReq .rdxRead {} with slots := (List.range n).map (fun t => (t, ok 0)) }] }

theorem test_witness_ArrivalsAtomic :
    State.arrives (flying (.amo .add 8) (ok 1) {}) 0 (flyingReq (.amo .add 8) (ok 1)) ∧ 128 % 8 = 0 ∧ AmoOp.add ≠ .addFp32 ∧
      AmoOp.add ≠ .maxFp32 ∧ State.arrives (flying (.amo .cas 4) (ok 1) {}) 0 (flyingReq (.amo .cas 4) (ok 1)) ∧
      ((flying (.amo .cas 4) (ok 1) {}).tagAt 128).poison = false ∧ (flyingReq (.amo .cas 4) (ok 1)).cmp.p = false ∧
      State.arrives (flying .rdxAdd (ok 1) {}) 0 (flyingReq .rdxAdd (ok 1)) := by
  unfold State.arrives; decide +kernel

/-- Two adds to the word at 64 of bank 0 of tile 1, from tiles of two other towers; the first comes through the upper port. -/
def addFrom (id src : Nat) : Req :=
  { id := id, src := src, slot := 7, op := .amo .add 8, dpa := mkDpa false 0 1 0 64, ptr := bufPtr 5 0, val := ok 1, dest := [4], limit := 2 }
def twoAdds : State := { net := [addFrom 3 128, addFrom 4 64] }

theorem test_witness_ArrivalsAtomic_alone :
    (flying (.amo .add 8) (ok 1) {}).combinable 0 (flyingReq (.amo .add 8) (ok 1)) = [] ∧ (flyingReq (.amo .add 8) (ok 1)).guest = false ∧
      ((flying (.amo .add 8) (ok 1) {}).tagAt 128).poison = false ∧ (flyingReq (.amo .add 8) (ok 1)).val.p = false := by decide +kernel

theorem test_witness_ArrivalsAtomic_combined :
    State.arrives twoAdds 0 (addFrom 3 128) ∧ (addFrom 3 128).dpa % 8 = 0 ∧ (addFrom 3 128).guest = false ∧ (addFrom 4 64).guest = false ∧
      twoAdds.combinable 0 (addFrom 3 128) = [addFrom 4 64] ∧ (addFrom 4 64).key = (addFrom 3 128).key ∧
      twoAdds.windowOf (lineOf (addFrom 3 128).dpa) = none := by
  unfold State.arrives; decide +kernel

theorem test_witness_ArrivalsAtomic_slots :
    State.arrives (cellRead 3) 0 { flyingReq .rdxRead {} with slots := (List.range 3).map (fun t => (t, ok 0)) } ∧
      ((List.range 3).map (fun t => (t, ok 0))).all (fun x : Nat × GVal => x.1 != 1023) = true ∧ (cellRead 3).spares = [] ∧
      1024 ≤ ((List.range 1024).map (fun t => (t, ok 0))).length := by
  unfold State.arrives; decide +kernel

theorem test_witness_ArrivalsAtomic_watch :
    State.arrives (flying (.watch 5) {} {}) 0 (flyingReq (.watch 5) {}) ∧ (∀ x ∈ (flying (.watch 5) {} {}).watches, x.dpa ≠ wordOf 128) ∧
      (flying (.watch 5) {} {}).watchRoom 128 = true ∧ State.arrives (flying .unwatch {} {}) 0 (flyingReq .unwatch {}) := by
  unfold State.arrives; decide +kernel

theorem test_witness_ArrivalsAtomic_mailbox :
    State.arrives (flying (.mailbox false) (ok 1) emptyTag) 0 (flyingReq (.mailbox false) (ok 1)) ∧
      State.alone (flying (.mailbox false) (ok 1) emptyTag) 128 ∧
      (((flying (.mailbox false) (ok 1) emptyTag).taken 0).openLine (flyingReq (.mailbox false) (ok 1))).mailboxDead
        (flyingReq (.mailbox false) (ok 1)) =
        (false, ((flying (.mailbox false) (ok 1) emptyTag).taken 0).openLine (flyingReq (.mailbox false) (ok 1))) := by
  unfold State.arrives State.alone; decide +kernel

theorem test_witness_rdx_sum : State.arrives (cellRead 1024) 0 { flyingReq .rdxRead {} with slots := (List.range 1024).map (fun t => (t, ok 0)) } := by
  unfold State.arrives; decide +kernel

/-- R229, R231, R233: the old value comes back, and the new one stands in the word. -/
theorem test_arrivals_atomic :
    (after (exec (.arriveAmo 0) (flying (.amo .add 8) (ok 1) {}))).word 128 = 0xFFEEDDCCBBAA9989 ∧
      (after (exec (.arriveAmo 0) (flying (.amo .max 4) (ok 1) {}))).word 128 = 0xFFEEDDCC00000001 ∧
      (after (exec (.arriveAmo 0) (flying (.amo .swap 4) (bad 1) {}))).replies.map (fun r => r.ans) = [.value (bad 0xFFFFFFFFBBAA9988)] ∧
      ((after (exec (.mailboxArrive 0) (flying (.mailbox false) (ok 1) emptyTag))).tagAt 128).full = true := by decide +kernel

/-! ### Answers, keys and windows -/

/-- An answer `a` to the request of `flying` is in flight; context 7 of tile 0 waits for it, blocked on it or not. -/
def answering (a : Answer) (blocking : Bool) (tries : Nat := 0) : State :=
  { ctxs := [(7, { st := if blocking then .blocked (.ref 3) else .ready, pend := if blocking then [] else [(4, 3)], tenant := 5 })]
    replies := [⟨{ flyingReq .wf {} with blocking := blocking, tries := tries }, a⟩] }

theorem test_witness_Answers_value :
    let r := flyingReq .wf {}
    r.op ≠ .claim ∧ r.slot < 512 ∧ ((answering (.value (bad 5)) false).tileAt r.src).point ≠ .g ∧
      (answering (.value (bad 5)) false).replies[0]? = some ⟨{ r with blocking := false, tries := 0 }, .value (bad 5)⟩ ∧
      ((answering (.value (bad 5)) false).ctxAt (ctxId 0 7)).awaits 4 = 3 ∧
      (answering (.value (bad 5)) true).replies[0]? = some ⟨{ r with blocking := true, tries := 0 }, .value (bad 5)⟩ ∧
      ((answering (.value (bad 5)) true).ctxAt (ctxId 0 7)).st = .blocked (.ref 3) ∧
      ((answering (.value (bad 5)) true).ctxAt (ctxId 0 7)).parkedAt = none := by decide +kernel

/-- One parked reference whose deadline is unit 4, one without a deadline; context 7 is named by a rotation. -/
def parked : State :=
  { ctxs := [(7, { st := .blocked (.ref 3), wait := some (flyingReq .wf {}), tenant := 5 })], cycle := 4096
    waits := [{ waitOf (flyingReq .wf {}) 0 with deadline := some 4 }, waitOf { flyingReq .wf {} with id := 9 } 1]
    rotations := [{ part := 0, incoming := 6, outgoing := 5, left := [7], tiles := [] }] }

theorem test_witness_Answers :
    (answering .refused true 1).replies[0]? = some ⟨{ flyingReq .wf {} with blocking := true, tries := 1 }, .refused⟩ ∧
      (1 < (flyingReq .wf {}).limit ∧ (flyingReq .wf {}).limit ≤ 2) ∧
      ((answering .refused true 1).ctxAt (ctxId 0 7)).st = .blocked (.ref 3) ∧
      ({ refused := [flyingReq .wf {}] } : State).refused[0]? = some (flyingReq .wf {}) ∧ parked.cycle.toNat % 1024 = 0 ∧
      (∃ rot ∈ parked.rotations, 7 ∈ rot.left) ∧ (parked.ctxAt 7).st = .blocked (.ref 3) ∧
      parked.waits.any (fun w => w.req.id == 3) = true := by decide +kernel

/-- R17, R69, R70, R73: poison is latched; a refusal at the limit escalates; one of the two parked references expires, or is cancelled. -/
theorem test_answers :
    ((after (exec (.reply 0) (answering (.value (bad 5)) true))).ctxAt 7).latch = bufPtr 5 0 ∧
      ((after (exec (.reply 0) (answering (.value (bad 5)) true))).ctxAt 7).getG 4 = bad 5 ∧
      ((after (exec (.reply 0) (answering .refused true 2))).ctxAt 7).st = .blocked (.escalated 0x0A 0 (bufPtr 5 0) none) ∧
      (after (exec .deadlineCheck parked)).waits.map (fun w => w.req.id) = [9] ∧
      (after (exec (.cancel 7) parked)).waits.map (fun w => w.req.id) = [9] := by decide +kernel
/-! ### Keys, windows and the seal service -/

/-- Does an answer of the checks come out well? -/
def isOk {α : Type} : Except Stop α → Bool
  | .ok _ => true
  | .error _ => false

/-- Window 9. -/
def testWindow : Window :=
  { slot := 9, creator := 5, idx := 2, base := 0x10000, size := 0x2000, region := 1, offers := [(6, 3)]
    sharers := [(5, 0, 2), (0xF001, 1017, 3)] }

/-- Window 11, in a region of package 1. -/
def bounceWindow : Window :=
  { slot := 11, creator := 5, idx := 6, base := 0x10000, size := 0x2000, region := 16, sharers := [(5, 0, 6), (0xF001, 1017, 4)] }

/-- Partition 0 of tile 0 holds slots 0 to 7 for tenant 5, with a table of 64 entries at 0x8000 of region 1. Tenant 6 has
partition 1 in slots 8 to 15. -/
def twoTenants : State :=
  { tiles := [(0, { pcfg := [(0, 0x8000800000000005), (1, 0x8200800000000006)] })], members := [(1, true)]
    ircfg := testRegions ++ [(16, 0xF400000800000150)], btab := [(0, 0x1001000000008000), (1, 0x100100000000A000)]
    vfbind := [(1, 0x8000000000000005)], bound := [(1, 0x8000000000000005)]
    kslot := [(9, 0x5000500010000000), (11, 0x5000500010000000), (12, 0x6000500000000000)]
    windows := [testWindow, bounceWindow] }

/-- Its memory: entry 2 is window 9 of tenants 5 and of the host of function 1, entry 4 a plain buffer, entry 20 a paged
one without pages, and entry 6 window 11, which begins with 1 and 3. -/
def sealedMem : List Host.Cell :=
  let s := (twoTenants.setEntry 0 5 2 ⟨windowW0 15 1 0 9 5, 0x10000, 0x2000, 0⟩).setEntry 0 5 4 ⟨0x8F04000C00001400, 0x20000, 0x2000, 0⟩
  let s := (s.setEntry 0 5 6 ⟨windowW0 15 16 0 11 5, 0x10000, 0x2000, 0⟩).setEntry 0 5 20 ⟨0xCF04000C00001400, 0x200000, 0x40000000, 0⟩
  writeBytes (writeBytes s.mem (s.homeOf 16 0x10000) 8 1) (s.homeOf 16 0x10008) 8 3

def sealed : State := { twoTenants with mem := sealedMem }

/-- Context 3 of tenant 5, or 9 of tenant 6, calls function `f` of the seal service. -/
def sealCall (f g5 g6 g7 : Word) (ctx : Nat := 3) (tenant : BitVec 16 := 5) : State :=
  sealed.setCtxAt ctx { st := .blocked (.service 0x400), pc := codeBase + 0x1000, tenant := tenant
                        g := [(4, ok f), (5, ok g5), (6, ok g6), (7, ok g7)] }

/-- A re-key of window 9 under way, at offset `next`. -/
def rekeying (next : Nat) : State :=
  { sealed with kslot := [(9, 0x9000500018000000), (12, 0x6000500000000000)], rekeys := [{ slot := 9, part := 0, idx := 2, started := true, next := next }] }

theorem test_witness_Seal_keys :
    ({ quarantines := [⟨0, 1, 0, 512, 1⟩] } : State).quarantines[0]? = some ⟨0, 1, 0, 512, 1⟩ ∧
      (rekeying 0).windows.find? (fun w => w.slot == 9) = some testWindow ∧ 0 < testWindow.size ∧ (rekeying 0).readsWell = true ∧
      (rekeying 0).rekeys = [{ slot := 9, part := 0, idx := 2, started := true, next := 0 }] ∧
      fld ((rekeying 0).kslotAt 9) 63 62 = 2 ∧ dpaLoft ((rekeying 0).homeOf 1 0x10000) = false ∧
      (rekeying 0).lineKey (lineOf ((rekeying 0).homeOf 1 0x10000)) = 0 ∧
      (rekeying 0).windowOf (lineOf ((rekeying 0).homeOf 1 0x10000)) = some testWindow ∧
      (rekeying 0x2000).windows.find? (fun w => w.slot == 9) = some testWindow ∧ testWindow.size ≤ 0x2000 ∧
      fld ((rekeying 0).kslotAt 9) 63 62 = 2 ∧
      fld (({ kslot := [(9, 0xD000500000000000)] } : State).kslotAt 9) 63 62 = 3 ∧
      ({ kslot := [(9, 0xD000500000000000)] } : State).keyInUse 9 = false := by decide +kernel

/-- The re-key is over, and its completion word, the first of the plain buffer, is to fill. -/
def refilling : State :=
  { rekeying 0 with
    rekeys := [{ slot := 9, part := 0, idx := 2, started := true, finished := true, done := some (bufPtr 4 0), tile := 0, tenant := 5 }] }

theorem test_witness_Seal_refill :
    let v := refilling.portRead 0 0 (bufPtr 4 0)
    refilling.tables.any (fun x => x.1 == 5) = false ∧ refilling.tenantIn 0 0 = 5 ∧
      v.reach 0 0 5 (bufPtr 4 0) 8 needWS = .ok { dpa := v.homeOf 1 0x20000, gen := 3 } ∧
      State.open8 v (v.homeOf 1 0x20000) 5 (some (unitRank 0)) := by
  unfold State.open8 State.alone; decide +kernel

theorem test_witness_Seal_calls :
    (State.calls (sealCall 1 8 16 0) 3 0x400 1 ∧ 16 ≤ ((sealCall 1 8 16 0).callOf 3).g6.toNat) ∧
      State.calls (sealCall 1 8 15 0) 3 0x400 1 ∧
      (let x := (sealCall 1 8 15 0).callOf 3
       x.g5.toNat ≠ 0 ∧ x.g5.toNat % 8 = 0 ∧ x.g5.toNat ≤ 2 ^ 46 ∧ x.g6.toNat < 16 ∧
        (sealCall 1 8 15 0).placeFits x 0x1000000040000 10 7 ((x.g5.toNat + 63) / 64 * 64) = true ∧ (sealCall 1 8 15 0).entryStuck x.part 7 = false) ∧
      (State.calls (sealCall 2 2 6 1) 3 0x400 2 ∧ ((sealCall 2 2 6 1).windowAt ((sealCall 2 2 6 1).callOf 3) 2).isSome = true) ∧
      State.calls (sealCall 5 2 0 0) 3 0x400 5 ∧ (sealCall 5 2 0 0).entryBusy 0 2 = false ∧ (sealCall 5 2 0 0).entryStuck 0 2 = false := by
  unfold State.calls; decide +kernel

theorem test_witness_Seal_join :
    State.calls (sealCall 3 0x140002 0 0 9 6) 9 0x400 3 ∧
      (let s := sealCall 3 0x140002 0 0 9 6
       let x := s.callOf 9
       s.windows.find? (fun w => w.idx == fld x.g5 17 0 && w.creator == fld x.g5 33 18 && s.joinable w) = some testWindow ∧
        testWindow.offers.any (fun o => o.1 == x.tenant) = true ∧ testWindow.sharers.all (fun y => y.2.1 != x.part) = true ∧
        (testWindow.sharers.filter (fun y => y.2.1 < 16)).length < 16 ∧ s.indexFree x.part 7 = true ∧ s.entryStuck x.part 7 = false) ∧
      testWindow.offers.all (fun o => o.1 != ((sealCall 3 0x140002 0 0).callOf 3).tenant) = true := by
  unfold State.calls; decide +kernel

theorem test_witness_Seal_rights :
    State.calls (sealCall 4 2 0xF001 3) 3 0x400 4 ∧ ((sealCall 4 2 0xF001 3).callOf 3).g7.toNat < 16 ∧
      (sealCall 4 2 0xF001 3).entryBusy 1017 3 = false ∧ ((sealCall 4 2 0xF001 3).asTenant 1017 0xF001).entryStuck 1017 3 = false ∧
      (sealCall 4 2 0xF001 3).windowAt ((sealCall 4 2 0xF001 3).callOf 3) 2 = some testWindow ∧
      testWindow.sharers.find? (fun y => y.1 == 0xF001) = some (0xF001, 1017, 3) ∧ testWindow.creator = 5 ∧
      State.calls (sealCall 6 2 (bufPtr 4 0) 0) 3 0x400 6 ∧
      isOk (((sealCall 6 2 (bufPtr 4 0) 0).portRead 0 0 (bufPtr 4 0)).reach 0 0 5 (bufPtr 4 0) 8 needWS) = true := by
  unfold State.calls; decide +kernel

theorem unitList_of_reach {s : State} {tile part tenant : Nat} {need : Need} {f : Word → Target} {ps : List Word}
    (h : ∀ p ∈ ps, s.reach tile part tenant p 8 need = .ok (f p)) : s.unitList tile part tenant need ps = .ok (ps.map f) := by
  induction ps with
  | nil => rfl
  | cons p ps ih => simp [State.unitList, h p (by simp), ih fun q hq => h q (by simp [hq])]

/-- An unpaged entry that the port has cached is not read again. -/
theorem portRead_cached {s : State} {tile part idx : Nat} {p : Word} (hf : s.xlateFront tile part p 1 = .ok idx)
    (hb : (s.tileAt tile).bcache.any (fun c => c.part == part && c.idx == idx) = true)
    (he : (s.portEntry tile part idx).paged = false) : s.portRead tile part p = s := by
  simp [State.portRead, hf, hb, he]

theorem portReads_cached {s : State} {tile part : Nat} {ps : List Word} (h : ∀ p ∈ ps, s.portRead tile part p = s) :
    ps.foldl (fun (s : State) p => s.portRead tile part p) s = s := by
  induction ps with
  | nil => rfl
  | cons p ps ih => rw [List.foldl_cons, h p (by simp)]; exact ih fun q hq => h q (by simp [hq])

theorem span_eq {s u : State} {x : SealCall} {p : Word} {bytes : Nat} {need : Need} {ts : List Target}
    (hu : (wordsFrom p ((bytes + 7) / 8)).foldl (fun (s : State) p => s.portRead x.tile x.part p) s = u)
    (hl : u.unitList x.tile x.part x.tenant need (wordsFrom p ((bytes + 7) / 8)) = .ok ts) :
    s.span x p bytes need = (.ok ts, u) := by
  simp only [State.span, State.unitReads, hu, hl]

/-- A line of another package is not opened here. -/
theorem openSpan_away {x : SealCall} {p : Word} {write : Bool} (ts : List Target) :
    ∀ {s : State}, (∀ t ∈ ts, (dpaPkg t.dpa != s.package.toNat) = true) → s.openSpan x ts p write = s := by
  induction ts with
  | nil => exact fun _ => rfl
  | cons t ts ih =>
    intro s h
    have ht := h t (by simp)
    have : s.openUnit t.dpa x.tenant x.part p write = s := by simp only [State.openUnit, State.openLine]; rw [if_pos ht]
    rw [State.openSpan, List.foldl_cons, this]
    exact ih fun u hu => h u (by simp [hu])

/-- The home of the first word of the window of package 1, and of the word at `p`. -/
def bounceHome : Nat := mkDpa false 1 0 1 0
def bounceWord (p : Word) : Target := { dpa := bounceHome + ptrOff p, win := true, key := 11 }

theorem homeOf_bounce {off : Nat} (h : off < 0x10000) : twoTenants.homeOf 16 (0x10000 + off) = bounceHome + off := by
  have hr : twoTenants.region 16 = regionOf 0xF400000800000150 := by decide +kernel
  have hg : (regionOf 0xF400000800000150).glog = 10 := by decide +kernel
  have hh : (regionOf 0xF400000800000150).h = 15 := by decide +kernel
  have h1 : (0x10000 + off) / 0x10000 = 1 := by omega
  have h2 : (0x10000 + off) % 0x10000 = off := by omega
  have hs : twoTenants.selector 16 1 0 15 = 1 := by decide +kernel
  have hc : (regionOf 0xF400000800000150).scope = 3 ∧ (regionOf 0xF400000800000150).rdx = false ∧
      (regionOf 0xF400000800000150).pkgBase = 1 ∧ (regionOf 0xF400000800000150).bankBase = 0 := by decide +kernel
  have hp : (2 : Nat) ^ (6 + 10) = 0x10000 := by decide
  simp only [State.homeOf, hr, hg, hh, hp, h1, h2, hc.1, hc.2.1, hc.2.2.1, hc.2.2.2]
  rw [show 1 % 2 ^ 15 = 1 from by decide, show 1 / 2 ^ 15 = 0 from by decide, hs]
  exact (Nat.add_assoc _ _ _).symm

/-- The 512 words of a record there. -/
def bounceRecord : List Target := (wordsFrom (bufPtr 6 0) 512).map bounceWord

/-- What holds of word `j` for every `j` holds of every target. -/
theorem bounce_all {P : Target → Prop} (h : ∀ j < 512, P (bounceWord (padd (bufPtr 6 0) (wd (8 * j))))) : ∀ t ∈ bounceRecord, P t := by
  intro t ht
  rw [bounceRecord, List.mem_map] at ht
  obtain ⟨p, hp, rfl⟩ := ht
  rw [wordsFrom, List.mem_map] at hp
  obtain ⟨j, hj, rfl⟩ := hp
  exact h j (by simpa using hj)

/-- Where a region address has its home rests on the regions, their hashes and the package. -/
theorem targetOf_congr {s u : State} (h : s.ircfg = u.ircfg ∧ s.irhash = u.irhash ∧ s.package = u.package) (e : BufEntry) (ra : Nat) :
    s.targetOf e ra = u.targetOf e ra := by
  obtain ⟨h1, h2, h3⟩ := h
  have hs : State.selector s = State.selector u := by
    funext k l q n
    induction n with
    | zero => rfl
    | succ n ih => simp only [State.selector, State.hashRow, h2, ih]
  have hr : State.region s = State.region u := by funext k; rw [State.region, h1, State.region]
  unfold State.targetOf State.homeOf
  rw [hr, hs, h3]

/-- The entry of that window. -/
def bounceEntry : BufEntry := ⟨windowW0 15 16 0 11 5, 0x10000, 0x2000, 0⟩

theorem span_bounce {s : State} {need : Need} (x : SealCall) (hx : x.tile = 0 ∧ x.part = 0 ∧ x.tenant = 5)
    (hf : ∀ j < 512, ∀ w, w = 1 ∨ w = 8 → s.xlateFront 0 0 (padd (bufPtr 6 0) (wd (8 * j))) w = .ok 6)
    (hb : (s.tileAt 0).bcache.any (fun c => c.part == 0 && c.idx == 6) = true) (he : s.portEntry 0 0 6 = bounceEntry)
    (hr : ∀ j < 512, s.xlateEntry bounceEntry 5 (ptrOff (padd (bufPtr 6 0) (wd (8 * j)))) 8 need =
      .ok (some (0x10000 + ptrOff (padd (bufPtr 6 0) (wd (8 * j))))))
    (ht : ∀ ra, s.targetOf bounceEntry ra = { dpa := twoTenants.homeOf 16 ra, win := true, key := 11 }) :
    s.span x (bufPtr 6 0) 4096 need = (.ok bounceRecord, s) := by
  obtain ⟨h1, h2, h3⟩ := hx
  have hw {q : Word} (hq : q ∈ wordsFrom (bufPtr 6 0) 512) : ∃ j < 512, q = padd (bufPtr 6 0) (wd (8 * j)) := by
    rw [wordsFrom, List.mem_map] at hq
    obtain ⟨j, hj, rfl⟩ := hq
    exact ⟨j, by simpa using hj, rfl⟩
  refine span_eq (portReads_cached fun q hq => ?_) ?_
  · obtain ⟨j, hj, rfl⟩ := hw hq
    rw [h1, h2]
    exact portRead_cached (hf j hj 1 (.inl rfl)) hb (by rw [he]; decide +kernel)
  · rw [h1, h2, h3]
    refine unitList_of_reach fun q hq => ?_
    obtain ⟨j, hj, rfl⟩ := hw hq
    have hoff : ∀ j < 512, ptrOff (padd (bufPtr 6 0) (wd (8 * j))) < 0x10000 := by decide +kernel
    simp only [State.reach, State.unitXlate, hf j hj 8 (.inr rfl), he, hr j hj, ht, bounceWord, homeOf_bounce (hoff j hj)]

theorem bounceRecord_away : ∀ t ∈ bounceRecord, (dpaPkg t.dpa != 0) = true ∧ dpaLoft t.dpa = false ∧ dpaTile t.dpa = 0 :=
  bounce_all (by decide +kernel)

/-- Functions 7 and 8 on that window, whose entry the port has cached: an import to the plain buffer, an export from it. -/
def cachedCall (f g5 g6 g7 : Word) : State :=
  let s := sealCall f g5 g6 g7
  s.setTileAt 0 { s.tileAt 0 with bcache := [⟨0, 6, bounceEntry⟩] }
def importing : State := cachedCall 7 (bufPtr 6 0) (bufPtr 4 0) 12
def exporting : State := cachedCall 8 (bufPtr 4 0) (bufPtr 6 0) 12
def exportingBad : State := cachedCall 8 (bufPtr 4 0) (bufPtr 6 0) 13

/-- The export once its source has been translated. -/
def exportRead : State := (wordsFrom (bufPtr 4 0) 1).foldl (fun (s : State) p => s.portRead 0 0 p) exporting

theorem importing_front : ∀ j < 512, ∀ w, w = 1 ∨ w = 8 → importing.xlateFront 0 0 (padd (bufPtr 6 0) (wd (8 * j))) w = .ok 6 := by
  rintro j hj w (rfl | rfl) <;> revert j <;> decide +kernel
theorem exporting_front : ∀ j < 512, ∀ w, w = 1 ∨ w = 8 → exportRead.xlateFront 0 0 (padd (bufPtr 6 0) (wd (8 * j))) w = .ok 6 := by
  rintro j hj w (rfl | rfl) <;> revert j <;> decide +kernel
theorem importing_checks : ∀ j < 512, importing.xlateEntry bounceEntry 5 (ptrOff (padd (bufPtr 6 0) (wd (8 * j)))) 8 needR =
    .ok (some (0x10000 + ptrOff (padd (bufPtr 6 0) (wd (8 * j))))) := by decide +kernel
theorem exporting_checks : ∀ j < 512, exportRead.xlateEntry bounceEntry 5 (ptrOff (padd (bufPtr 6 0) (wd (8 * j)))) 8 needW =
    .ok (some (0x10000 + ptrOff (padd (bufPtr 6 0) (wd (8 * j))))) := by decide +kernel

/-- No word of the record waits for its home. -/
theorem bounce_spanWaits {s : State} (hi : s.infraAt 0 ≠ .off ∧ s.waking = [] ∧ s.looked = false) : s.spanWaits bounceRecord = false := by
  rw [State.spanWaits, List.any_eq_false]
  intro t ht
  obtain ⟨-, hl, h0⟩ := bounceRecord_away t ht
  simp [State.homeWaits, hl, h0, hi]

/-- R129: a record of 3 bytes and sequence number 1 in that window; and a call whose record is at the null pointer. -/
theorem test_witness_Seal_import :
    let x := importing.callOf 3
    importing.calls 3 0x400 7 ∧ importing.span x x.g5 4096 needR = (.ok bounceRecord, importing) ∧
      importing.spanWaits bounceRecord = false ∧ importing.openSpan x bounceRecord x.g5 false = importing ∧
      (∀ t ∈ bounceRecord, (importing.readAt t.dpa).1.p = false) ∧ State.calls (sealCall 7 0 0 12) 3 0x400 7 ∧
      (match (sealCall 7 0 0 12).span ((sealCall 7 0 0 12).callOf 3) 0 4096 needR with
        | (.error (.cause _ _), _) => true
        | _ => false) = true :=
  ⟨by unfold State.calls; decide +kernel,
    span_bounce _ (by decide +kernel) importing_front (by decide +kernel) (by decide +kernel) importing_checks (fun _ => rfl),
    bounce_spanWaits (by decide +kernel), openSpan_away _ (fun t ht => (bounceRecord_away t ht).1), bounce_all (by decide +kernel),
    by unfold State.calls; decide +kernel, by decide +kernel⟩

theorem test_witness_Seal_import_bytes :
    let x := importing.callOf 3
    importing.bounceOk x x.g5 = true ∧ importing.sessionOk x = true ∧
      importing.word (bounceRecord.getD 0 { dpa := 0 }).dpa = 1 ∧ importing.word (bounceRecord.getD 1 { dpa := 0 }).dpa = 3 ∧
      (Map.get (fun _ => 0) importing.sessions x.g7.toNat : Word) < 1 ∧
      (match importing.span x x.g6 3 needW with
        | (.ok dst, w) => !w.spanWaits dst && dst.all (fun t => ((w.openSpan x dst x.g6 true).homeStop t.dpa true).isNone)
        | _ => false) = true := by decide +kernel

/-- The words of an export's source. -/
def exportSource : List Target := [{ dpa := exporting.homeOf 1 0x20000, gen := 3 }]

/-- A record of zeros (L is 0) for the export of a word of the plain buffer. -/
theorem test_witness_Seal_export :
    let s := exporting
    let x := s.callOf 3
    let o := (exportRead.openSpan x exportSource x.g5 false).openSpan x bounceRecord x.g6 true
    s.calls 3 0x400 8 ∧ s.span x x.g5 8 needR = (.ok exportSource, exportRead) ∧
      exportRead.span x x.g6 4096 needW = (.ok bounceRecord, exportRead) ∧
      exportRead.spanWaits bounceRecord = false ∧ ∀ t ∈ bounceRecord, o.homeStop t.dpa true = none := by
  refine ⟨by unfold State.calls; decide +kernel, span_eq rfl (by decide +kernel),
    span_bounce _ (by decide +kernel) exporting_front (by decide +kernel) (by decide +kernel) exporting_checks
      (fun ra => targetOf_congr (u := twoTenants) (by decide +kernel) _ ra),
    bounce_spanWaits (by decide +kernel), fun t ht => ?_⟩
  rw [openSpan_away]
  · obtain ⟨-, hl, -⟩ := bounceRecord_away t ht
    have hq : (exportRead.openSpan (exporting.callOf 3) exportSource (exporting.callOf 3).g5 false).quarantines = [] := by
      decide +kernel
    simp [State.homeStop, State.quarantined, hl, hq]
  · have hp : (exportRead.openSpan (exporting.callOf 3) exportSource (exporting.callOf 3).g5 false).package.toNat = 0 := by
      decide +kernel
    rw [hp]
    exact fun t ht => (bounceRecord_away t ht).1

theorem test_witness_Seal_export_bytes :
    let x := exporting.callOf 3
    exportRead.spanWaits exportSource = false ∧ exportRead.bounceOk x x.g6 = true ∧ exportRead.sessionOk x = true ∧
      exportSource.all (fun t => !((exportRead.openSpan x exportSource x.g5 false).readAt t.dpa).1.p) = true ∧
      exportingBad.sessionOk (exportingBad.callOf 3) = false ∧
      bytesNat (((List.replicate 4096 (0 : Byte)).drop 8).take 4) = 0 ∧ bytesNat (((List.replicate 4096 (0 : Byte)).drop 12).take 4) = 0 := by
  decide +kernel

/-- R123, R126: a create and a join answer their index; a swept line takes the slot's epoch, and an erased key opens nothing more. -/
theorem test_seal :
    ((after (exec (.sealCreate 3 0x1000000040000 10 7) (sealCall 1 8 15 0))).ctxAt 3).getG 5 = ok 7 ∧
      ((after (exec (.sealJoin 9 7) (sealCall 3 0x140002 0 0 9 6))).ctxAt 9).getG 5 = ok 7 ∧
      Map.get (fun _ => false) (after (exec (.rekeySweepLine 9) (rekeying 0))).epochs (lineOf ((rekeying 0).homeOf 1 0x10000)) = true ∧
      (let t := after (exec (.keyErase 9) { kslot := [(9, 0xD000500000000000)], lineKeys := [(64, keyMark (windowKey 9) 0)] })
       t.kslotAt 9 = 0 ∧ t.keyOpens 64 (windowKey 9) = false) := by decide +kernel
/-! ### Events of the buffer ports -/

/-- Entry 20 of partition 0: a paged buffer of tenant 5 in region 1 whose table root is at region address 0x200000. -/
def pagedUser : BufEntry := ⟨0xCF04000C00001400, 0x200000, 0x40000000, 0⟩

/-- Tile 0 has fetched entry 20, context 3 waits at its port for page 2, one walk runs, and the root entry holds `pte`. -/
def walking (level table : Nat) (pte : Word) (fault : Bool := false) : State :=
  let w : Walk := { part := 0, idx := 20, off := 0x2000, level := level, table := table, write := false }
  { twoTenants with
    tiles := [(0, { pcfg := [(0, 0x8000800000000005), (1, 0x8200800000000006)], bcache := [⟨0, 20, pagedUser⟩], walks := [w]
                    fetches := [(0, 20)], faults := if fault then [{ part := 0, idx := 20, page := 2, write := false }] else [], pcache := [⟨0, 20, 3, 3, 2, 0x5000, false⟩]
                    wakes := if fault then [(0, 20, 9, 70)] else [], shoot := [{ done := bufPtr 5 0, tenant := 0, awaited := [88] }] })]
    ctxs := [(3, { st := .blocked (.port 20 2 (bufPtr 20 0x2000) .trap), pc := codeBase + 0x1000, tenant := 5 })]
    mem := writeBytes [] (twoTenants.homeOf 1 (table + 8 * levelIndex 0x2000 level)) 8 pte.toNat }

/-- The walk of `walking`. -/
def walkOf (level table : Nat) : Walk := { part := 0, idx := 20, off := 0x2000, level := level, table := table, write := false }

/-- A table, a leaf, a miss and a malformed entry. -/
def pteTable : Word := 0x8000000000210000
def pteLeaf : Word := 0xC000000000005000

theorem test_witness_PortEvents_walk :
    let s := walking 0 0x200000 pteTable
    let found (s : State) (level table : Nat) : PteStep :=
      s.pteStep 1 1 level ((s.openTable 0 0 (table + 8 * levelIndex 0x2000 level)).regionWord 1 (table + 8 * levelIndex 0x2000 level))
    (s.tileAt 0).fetches[0]? = some (0, 20) ∧ s.partOf 3 = 0 ∧ (s.tileAt 0).walks[0]? = some (walkOf 0 0x200000) ∧ (walkOf 0 0x200000).stale = false ∧
      (s.tileAt 0).bcache.find? (fun b => b.part == 0 && b.idx == 20) = some ⟨0, 20, pagedUser⟩ ∧ pagedUser.region = 1 ∧
      btabRegion (s.btabOf 0) = 1 ∧ found s 0 0x200000 = .table 0x210000 ∧ found (walking 3 0x210000 pteLeaf) 3 0x210000 = .leaf 0x5000 false ∧
      found (walking 3 0x210000 0) 3 0x210000 = .miss ∧ (walking 3 0x210000 0 : State).tiles.all (fun t => t.2.wakes == []) = true ∧
      found (walking 3 0x210000 0x8000000000000000) 3 0x210000 = .malformed := by decide +kernel

/-- A request of `n` ports for page 2, granted or not, woken and reported at tile 0 or not. -/
def pageReq (granted : Bool) (refault : Nat := 0) (tile : Nat := 0) (woken : List Nat := []) : PageReq :=
  { num := 7, part := 0, tenant := 5, idx := 20, page := 2, write := false, ports := [tile], posted := 0, shared := false
    granted := granted, refault := refault, woken := woken }

/-- A fault of tile 0 that is not sent yet, with the unit's queue. -/
def faulting (q : List PageReq) : State := { walking 3 0x210000 0 true with pageReqs := q, cycle := 500000000 }

theorem test_witness_PortEvents_requests :
    ((faulting []).tileAt 0).faults[0]? = some { part := 0, idx := 20, page := 2, write := false } ∧ (faulting []).pageRoom 0 5 = some false ∧
      (faulting []).tenantIn 0 0 = 5 ∧ (faulting []).ownerFn 5 = some 1 ∧
      (faulting (List.replicate 8 { pageReq false with idx := 3 } ++ List.replicate 32 { pageReq false with idx := 3, shared := true })).pageRoom 0 5 = none ∧
      (pageReq false 0 9).ports.contains 0 = false ∧ 2 ≤ (pageReq true 2).refault ∧
      (faulting [pageReq false]).pageReqs.find? (fun q => q.num == 7 && !q.granted) = some (pageReq false) ∧ (pageReq false).ports ≠ [] ∧
      (pageReq false).posted + pageTimeout ≤ (faulting []).cycle.toNat ∧
      (walking 0 0 0).portIds 0 0 21 (some 2) = [] ∧ (walking 0 0 0).portIds 0 0 20 (some 2) = [3] ∧
      (let s := { twoTenants with pageReqs := [pageReq true 0 0 [0]] }
       s.pageReqs.find? (fun q => q.num == 7 && q.granted && q.woken.contains 0 && !q.reported.contains 0) = some (pageReq true 0 0 [0]) ∧
        s.rewalked (pageReq true 0 0 [0]) 0 = true) ∧
      (faulting []).waitingFor 0 0 21 2 = 0 := by decide +kernel

/-- The tables of entry 20 stand, but for the leaf of page 2. -/
def grantable : State :=
  let s := twoTenants.setEntry 0 5 20 pagedUser
  let put (m : List Host.Cell) (ra v : Nat) : List Host.Cell := writeBytes m (s.homeOf 1 ra) 8 v
  { s with mem := put (put (put s.mem 0x200000 0x8000000000210000) 0x210000 0x8000000000220000) 0x220000 0x8000000000230000
           pageReqs := [pageReq false] }

theorem test_witness_PortEvents_grant :
    grantable.pageReqs.find? (fun q => q.num == 7 && !q.granted) = some (pageReq false) ∧
      (grantable.asTenant 0 5).grantFits (pageReq false) [(0x230010, pteLeaf)] = true := by decide +kernel

/-- A shootdown for tile 0: of page 2 of index 20 (KIND 0), of the index (1), of the partition (2), or a record (3). -/
def shooting (kind : Nat) : State :=
  { walking 3 0x210000 0 with
    msgs := [{ id := 4, dst := 0, table := 16, type := 0xFF, m0 := wd (kind * 2 ^ 62 + 20 * 2 ^ 40 + 2), m1 := bufPtr 5 0, coord := 0, tenant := 0
               user := false, origin := .gang }] }

/-- Tile 0 has a shootdown to acknowledge: its completion pair is at the start of buffer 5 of house. -/
def acking : State :=
  let s : State := { ircfg := testRegions, houseBtab := 0x100400000000A000 }
  let s := s.setEntry 16 0 5 (plainEntry 0x400)
  { s with mem := writeBytes s.mem (s.homeOf 1 0x1008) 8 3 }.setTileAt 0 { testTile with shoot := [{ done := bufPtr 5 0, tenant := 0, awaited := [88] }] }

theorem test_witness_PortEvents_shootdown :
    ([0, 1, 2, 3].all fun k => fld (wd (k * 2 ^ 62 + 20 * 2 ^ 40 + 2)) 63 62 == k && fld (wd (k * 2 ^ 62 + 20 * 2 ^ 40 + 2)) 57 40 == 20) = true ∧
      (shooting 0).msgs[0]?.isSome = true ∧ (shooting 0).msgs.all (fun m => decide (m.type = 0xFF) && !m.away && (shooting 0).messageFirst 0 m) = true ∧
      (acking.tileAt 0).shoot = [{ done := bufPtr 5 0, tenant := 0, awaited := [88] }] ∧ acking.net = [] ∧
      (let v := (acking.portRead 0 16 (padd (bufPtr 5 0) 8)).portRead 0 16 (bufPtr 5 0)
       v.reach 0 16 0 (padd (bufPtr 5 0) 8) 8 { w := true, s := true } = .ok { dpa := acking.homeOf 1 0x1008, gen := 3 } ∧
        v.reach 0 16 0 (bufPtr 5 0) 8 { w := true, s := true } = .ok { dpa := acking.homeOf 1 0x1000, gen := 3 } ∧
        v.gated (acking.homeOf 1 0x1000) = false ∧ v.word (acking.homeOf 1 0x1008) = 3) := by
  decide +kernel

theorem test_witness_PortEvents_ack_open :
    ((acking.portRead 0 16 (padd (bufPtr 5 0) 8)).portRead 0 16 (bufPtr 5 0)).open8 (acking.homeOf 1 0x1008) 0 (some (unitRank 0)) := by
  unfold State.open8 State.alone; decide +kernel

/-- R45, R50, R54: a walk goes down, ends in the cache, or in a fault; and a shootdown is acknowledged. -/
theorem test_ports :
    ((after (exec (.pageWalk 0 0) (walking 0 0x200000 pteTable))).tileAt 0).walks.map (fun w => (w.level, w.table)) = [(1, 0x210000)] ∧
      ((after (exec (.pageWalk 0 0) (walking 3 0x210000 pteLeaf))).ctxAt 3).st = .ready ∧
      ((after (exec (.pageWalk 0 0) (walking 3 0x210000 0x8000000000000000))).ctxAt 3).st =
        .blocked (.escalated 0x04 (codeBase + 0x1000) (bufPtr 20 0x2000) none) ∧
      (after (exec (.shootdownAck 0) acking)).word (acking.homeOf 1 0x1008) = 2 ∧
      (after (exec (.pageRequest 0 0) (faulting []))).hostPosts = [(1, 0x0005000050001000, 0x2000)] := by decide +kernel
/-! ### Events of the matrix array and of the copy engine -/

/-- One command in the matrix queue of tile 0. -/
def arrayCmd (form : MForm) (running stale : Bool) : MCmd :=
  { id := 9, form := form, dst := 3, src := 4, lo := if form.isDrain then bufPtr 5 64 else 0x0000042000000000, part := 16, tenant := 0, ctx := 504
    running := running, stale := stale, done := if form.isDrain then some (bufPtr 5 0) else none }

def array (form : MForm) (running : Bool := false) (stale : Bool := false) : State :=
  (matrixRegs 0).setTileAt 0 { matrixTile 0 with mq := [arrayCmd form running stale], acc := [(accIndex 4 63 63, (7, true)), (accIndex 3 0 1, (6, false))] }

/-- The same, with one chunk of two still to be taken; and ended with a malformed mask. -/
def insideCmd : MCmd := { arrayCmd .mma true false with chunk := 1, left := 1 }
def inside (bad : Bool := false) : State :=
  (array .mma).setTileAt 0 { (array .mma).tileAt 0 with mq := [if bad then { arrayCmd .mma true false with badMask := true } else insideCmd] }

theorem test_witness_EngineEvents :
    ((array .acopy).tileAt 0).clocked = true ∧ ((array .acopy).tileAt 0).matrixDown = false ∧
      ((array .acopy).tileAt 0).inArray = none ∧ ((array .mma).tileAt 0).inArray = none ∧
      (inside.tileAt 0).inArray = some insideCmd ∧
      firstCmd ((array .acopy).matrixReady 0) [] ((array .acopy).tileAt 0).mq = some (arrayCmd .acopy false false) ∧
      firstCmd ((array .mma).matrixReady 0) [] ((array .mma).tileAt 0).mq = some (arrayCmd .mma false false) ∧
      ((array .mma).tileAt 0).descFault 16 3 .mma 0x0000042000000000 0 = none ∧
      (array .mma true).nextCmd 0 = none ∧ ((array .mma true).tileAt 0).firstRunning = some (arrayCmd .mma true false) ∧
      firstCmd (fun before m => m.stale && before.all (fun x => x.ghost || x.dst != m.dst) && !(array .mma false true).heldBack 0 m.part m.id) []
        ((array .mma false true).tileAt 0).mq = some (arrayCmd .mma false true) ∧
      ((array .drain).tileAt 0).mq.find? (fun m => m.form.isDrain && !((array .drain).tileAt 0).loadsRow m.dst &&
        !(array .drain).heldBack 0 m.part m.id) = some (arrayCmd .drain false false) ∧
      (at_ { st := .blocked (.await 3 8 (some 5)) }).me.st = .blocked (.await 3 8 (some 5)) ∧
      5 ≤ ({ cycle := 6 } : State).cycle.toNat := by decide +kernel

theorem test_witness_ChunkSums :
    inside.badBonds = [] ∧ insideCmd.form.kept = 24 ∧
      (pairPath (lfmtFmt ((inside.tileAt 0).fmtAt (descAbank insideCmd.lo))) (lfmtFmt ((inside.tileAt 0).fmtAt 32))).isSome = true ∧
      decodeElem fLG8 0 0x83 = .log true 3 ∧ decodeElem fLG6 0 0x02 = .log false 4 ∧ decodeElem fLG8 0 0x40 = .num false 0 0 ∧
      decodeElem fLG8 0 0xC0 = .nan 0x3FFFFF ∧ isNanF 23 0x7FC00000 = true ∧ isNanF 23 0x3F800000 = false ∧
      decodeF 23 0x3F800000 = .fin false (2 ^ 23) (-23) := by decide +kernel

/-- R132, R136 to R139, R142: log codes −3/8 and 4/8 make −T[7]; an i32 sum saturates; 1 + 2 × 3 is 7; a NaN term is the array NaN of tile 1
at position 5, and so are two infinities of unlike signs, in the chunk's first position. -/
theorem test_chunk :
    mulTerm .log fLG8 fLG6 0x83 0x02 = .num true 1878 (-10) ∧
      stepChunk .int 0 0 0x7FFFFFF0 [mulTerm .int fI8 fI8 0x7F 0x7F] none 0 = 0x7FFFFFFF ∧
      stepChunk .ieee 0 0 0x3F800000 [mulTerm .ieee fFP32 fFP32 0x40000000 0x40400000] none 0 = 0x40E00000 ∧
      stepChunk .ieee 1 0 0x3F800000 [.nan] (some 5) 0 = 0x7FC01005 ∧
      stepChunk .ieee 1 0 0xFF800000 [.inf false] (some 5) 3 = 0x7FC01003 := by decide +kernel

/-- R89: a store that races a running command leaves both its values to be read. -/
theorem test_operand_versions :
    let d := inside.loftDpa 0 0x40000
    ((inside.poke d 8 5).dataVersions d = [ok 5, ok 0] ∧ (inside.poke d 8 5).dataVersions (d + 8) = [ok 0]) := by decide +kernel

/-- Context 504 calls function 1 of the loft service for bank `bank`. -/
def formatCall (bank v : Word) : State :=
  (matrixRegs 0).setCtxAt 504 { st := .blocked (.service 0x401), pc := codeBase + 0x1000, g := [(4, ok 1), (5, ok bank), (6, ok v)] }

/-- The same with a change under way. -/
def formatWait : State := (formatCall 2 0x10030).setTileAt 0 { matrixTile 0 with formats := [(504, 2, 0x10030, 12)] }

theorem test_witness_FormatsAndService :
    State.calls (formatCall 2 0x10030) 504 0x401 1 ∧ ((formatCall 2 0x10030).tileAt 0).formats.all (fun x => x.1 != 504) = true ∧
      ((formatCall 2 0x10030).tileAt 0).lownAt 16 = 16 ∧ fld 0x10030 63 32 = 0 ∧ fld 0x10030 21 19 = 0 ∧ fld 0x10030 15 12 = 0 ∧
      fld 0x10030 23 22 ≠ 3 ∧ ((formatCall 3 0).tileAt 0).lownAt 17 ≠ 16 ∧
      (formatWait.tileAt 0).formats.find? (fun x => x.1 == 504) = some (504, 2, 0x10030, 12) ∧ formatWait.formatDue 0 504 12 = true ∧
      (formatWait.tileAt 0).running = true ∧ (formatWait.tileAt 0).herd.fenced = false := by
  unfold State.calls; decide +kernel

/-- R281, R288, R320, R332: a version more, a drain's copy half, a new format, and an engine's end. -/
theorem test_engines :
    ((after (exec (.matrixComplete 0) (array .mma true))).tileAt 0).version 3 = 1 ∧
      (after (exec (.matrixComplete 0) (inside true))).records.map (fun r => fld r.w0 63 48) = [0x10] ∧
      ((after (exec (.matrixComplete 0) inside)).tileAt 0).version 3 = 0 ∧
      ((after (exec (.drainRun 0) (array .drain))).tileAt 0).cq.map (fun c => (c.id, c.rows.length, c.rows.getD 1 (0, false))) =
        [(9, 4096, (6, false))] ∧
      ((after (exec (.loftFormatApply 504) formatWait)).tileAt 0).fmtAt 2 = 0x10030 ∧
      (after (exec (.awaitTimeout 504) (at_ { st := .blocked (.await 3 8 (some 0)) }))).me.st =
        .blocked (.escalated 0x09 0 8 none) := by decide +kernel

/-- A flat record of 2 raw elements of 8 bytes. -/
def flatRecord (base : Word) : List Word := [base, 0xF900000000000000, 0, 0x0000000100000002, 0, 0, 0, 0]

/-- The record's words as they stand in memory from region address `ra` of region 1 on. -/
def putWords (mem : List Host.Cell) (ra : Nat) : List Word → List Host.Cell
  | [] => mem
  | w :: ws => putWords (writeBytes mem (twoTenants.homeOf 1 ra) 8 w.toNat) (ra + 8) ws

/-- Records at offsets 0 and 64 of buffer 4, data at 0x200, the destination at 0x300. -/
def copyMem : List Host.Cell :=
  putWords (putWords (putWords sealedMem 0x20000 (flatRecord (bufPtr 4 0x200))) 0x20040 (flatRecord (bufPtr 4 0x300))) 0x20200 [0x1122, 0x3344]

/-- A copy command of tenant 5 on them; `going` once its records are read. -/
def copyCmd (form : CForm) (st : CState) (pos : Nat) (going : Bool) : CCmd :=
  { id := 7, form := form, lo := ok (if form = .fill then 0x77 else bufPtr 4 0), hi := ok (bufPtr 4 64), ctx := 3, part := 0, tenant := 5, st := st
    done := some (bufPtr 4 0x400), src := if going && form != .fill then flatRecord (bufPtr 4 0x200) else []
    dst := if going then flatRecord (bufPtr 4 0x300) else [], pos := pos }

def copying (c : CCmd) (m : List MCmd := []) : State :=
  { sealed with mem := copyMem, tiles := [(0, { pcfg := [(0, 0x8000800000000005), (1, 0x8200800000000006)], cq := [c], mq := m })] }

/-- Follow-ons: of `.mm` in tile 0, and of `.mm.mc` in tiles 0 and 1. -/
def followed (form : CForm) : CCmd :=
  { copyCmd form .running 2 true with follow := some 12, facc := 3, fdesc := (0x0000042000000000, 0), mask := 3 }

/-- The records of a command are read, and R297 finds `x` in them. -/
def recordsSay (c : CCmd) (x : Option (Nat × Word)) : Bool :=
  match (copying c).readRecord 0 c [] (wordsFrom c.lo.v 8 ++ wordsFrom c.hi.v 8) with
  | (.ok ws, u) =>
    let y : CCmd := { c with st := .running, src := ws.take (ws.length - 8), dst := ws.drop (ws.length - 8), page := none }
    decide ((u.updCopy 0 c.id (fun _ => some y)).recordFault 0 y = x)
  | _ => false

theorem test_witness_CopyEvents_start :
    let c := copyCmd .cpy .queued 0 false
    let s := copying c
    (s.tileAt 0).clocked = true ∧ (s.tileAt 0).copyFree = true ∧
      (s.tileAt 0).cq.find? (fun c => decide (c.st = .queued) && !s.heldBack 0 c.part c.id) = some c ∧ c.noSource = false ∧
      recordsSay c none = true ∧ recordsSay { c with hi := ok (bufPtr 4 0x800) } (some (0x02, bufPtr 4 0x800)) = true := by decide +kernel

theorem test_witness_CopyEvents_walk :
    let c := copyCmd .cpy .running 0 true
    let paged := { c with dst := flatRecord (bufPtr 20 0x2008) }
    (copying c).tiles.all (fun x => x.2.cq[0]? == some c) = true ∧ (copying c).lateDue 0 c = none ∧ c.pos < c.count ∧
      (copying c).handing c.part = false ∧ ((copying c).copyElem 0 c).1 = .ok () ∧
      ((copying { c with dst := flatRecord (bufPtr 9 0) }).copyElem 0 { c with dst := flatRecord (bufPtr 9 0) }).1 = .error (.cause 0x04 (bufPtr 9 0)) ∧
      ((copying paged).copyElem 0 paged).1 =
        .error (.page { part := 0, idx := 20, page := 2, write := false, ptr := bufPtr 20 0x2008 } true) ∧
      (copyCmd .cpy .suspended 1 true).page = none ∧ (copyCmd .cpy .suspended 1 true).dst ≠ [] ∧
      ((copying (copyCmd .cpy .suspended 1 true)).tileAt 0).copyFree = true := by decide +kernel

/-- A fill at its second element, once its port has the entry. -/
def filling : CCmd := copyCmd .fill .running 1 true
def fillAt : State := (copying filling).portElem 0 filling filling.dst 1

theorem test_witness_CopyEvents_fill :
    filling.destIndex = some 1 ∧
      fillAt.destPlaces 0 filling 1 ⟨filling.lo.v.toNat, filling.lo.p, fRAW, 0⟩ {} [0] =
        .ok { now := [⟨bufPtr 4 0x308, fillAt.homeOf 1 0x20308, fillAt.homeOf 1 0x20308, { dpa := fillAt.homeOf 1 0x20308, gen := 3 }, 0, 64, fRAW, 0⟩] } := by
  decide +kernel

theorem test_witness_CopyEvents_open : fillAt.open8 (fillAt.homeOf 1 0x20308) 5 (some (unitRank 0)) := by
  unfold State.open8 State.alone; decide +kernel

/-- A multicast copy, one of whose writes waits for tile `t`. -/
def lateCopy (t : Nat) : CCmd := { copyCmd .mc .running 2 true with mask := 6, late := [⟨t, 0, ⟨5, false, fRAW, 0⟩⟩] }
def lateState (t : Nat) : State := (copying (lateCopy t)).setTileAt 2 { point := .off }

theorem test_witness_CopyEvents_late :
    ((lateState 1).tileAt 0).cq[0]? = some (lateCopy 1) ∧ (lateState 1).lateDue 0 (lateCopy 1) = some ⟨1, 0, ⟨5, false, fRAW, 0⟩⟩ ∧
      ((lateState 1).tileAt 1).running = true ∧ ((lateState 2).tileAt 0).cq[0]? = some (lateCopy 2) ∧
      (lateState 2).lateDue 0 (lateCopy 2) = some ⟨2, 0, ⟨5, false, fRAW, 0⟩⟩ ∧ ((lateState 2).tileAt 2).running = false := by decide +kernel

/-- A copy at its end, once its port has the entry of its completion word. -/
def endedCopy : CCmd := copyCmd .cpy (.ending 0 0) 2 true
def endAt : State := (copying endedCopy).portRead 0 0 (bufPtr 4 0x400)

theorem test_witness_CopyEvents_end :
    ((copying endedCopy).tileAt 0).cq[0]? = some endedCopy ∧ ((copying endedCopy).tileAt 0).clocked = true ∧ endedCopy.page = none ∧
      (copying endedCopy).handing 0 = false ∧ endedCopy.fate = some (0, 0) ∧ (copyCmd .cpy .running 2 true).fate = some (0, 0) ∧
      endedCopy.unsent 0 = [] ∧ endedCopy.done = some (bufPtr 4 0x400) ∧
      endAt.reach 0 0 5 (bufPtr 4 0x400) 8 needWS = .ok { dpa := endAt.homeOf 1 0x20400, gen := 3 } ∧
      (followed .mm).st = .running ∧ (followed .mm).over_ 0 = true ∧ (followed .mm).fsent.contains 0 = false ∧
      ((followed .mm).targets 0).contains 0 = true ∧ ((followed .mmMc).unsent 0).contains 1 = true ∧
      ((copying (followed .mmMc)).tileAt 1).mq.length < 32 ∧ ((copying (followed .mmMc)).tileAt 1).clocked = true := by decide +kernel

theorem test_witness_CopyEvents_end_open : endAt.open8 (endAt.homeOf 1 0x20400) 5 (some (unitRank 0)) := by unfold State.open8 State.alone; decide +kernel

/-- R300, R301, R304: two steps of a copy, a filled word, and the completion word. -/
theorem test_copies :
    ((after (exec (.copyStart 0) (copying (copyCmd .cpy .queued 0 false)))).tileAt 0).cq = [copyCmd .cpy .running 0 true] ∧
      (after (exec (.copyElement 0 0) (copying (copyCmd .cpy .running 1 true)))).word (twoTenants.homeOf 1 0x20308) = 0x3344 ∧
      (after (exec (.copyElement 0 0) (copying (copyCmd .fill .running 0 true)))).word (twoTenants.homeOf 1 0x20300) = 0x77 ∧
      ((after (exec (.copyComplete 0 0) (copying (copyCmd .cpy (.ending 9 0) 2 true))))).word (twoTenants.homeOf 1 0x20400) = 9 := by
  decide +kernel
/-! ### Events of the task unit -/

/-- A frame of tenant 5 at offset 0x800 of buffer 4: UNSTARTED, entry at the start of the code banks, arguments 44 to 77. -/
def framePtr : Word := bufPtr 4 0x800
def frameWordsAt (state : Word) : List Word := [0, state, codeBase + 0x40, 0, 44, 55, 66, 77]

/-- The deque of partition 0 in tiles 0 and 1, and what slot 3 of tile 0 is. -/
def tasks (own victim : Deque) (st : SlotState := .idle) (state : Word := 0x8000000000000000) : State :=
  let p : Map Word := [(0, 0x8000800000000005)]
  { sealed with
    tiles := [(0, { pcfg := p, deque := [(0, own)], lown := [(8, 0)] }), (1, { pcfg := p, deque := [(0, victim)] })]
    ctxs := [(3, { st := st, tenant := 5, g := [(3, ok 33)] })], mem := putWords sealedMem 0x20800 (frameWordsAt state) }

/-- A deque with one visible entry, and with two. -/
def oneEntry : Deque := { tail := 1, entries := [⟨8, framePtr, .visible⟩] }
def twoEntries : Deque := { tail := 2, entries := [⟨8, framePtr, .visible⟩, ⟨9, framePtr, .visible⟩] }

/-- Where the frame's state word is, as the port of a tile finds it. -/
def frameHome : Target := { dpa := twoTenants.homeOf 1 0x20808, gen := 3 }

theorem test_witness_TaskEvents_pop :
    let s := tasks oneEntry {}
    s.takesWork 3 = true ∧ ((s.tileAt 0).dequeAt 0).entries = [] ++ [⟨8, framePtr, .visible⟩] ∧
      ((s.setDeque 0 0 { oneEntry with tail := 0, entries := [] }).portRead 0 0 (padd framePtr 8)).reach 0 0 5 (padd framePtr 8) 8 needRWS =
        .ok frameHome := by decide +kernel

/-- The claim of `framePtr` for slot 3 of tile 0, and its answer. -/
def claimReq : Req := { id := 5, src := 0, slot := 3, op := .claim, dpa := twoTenants.homeOf 1 0x20808, ptr := framePtr, tenant := 5, part := 0 }
def claimed (a : Answer) (stolen : Bool := false) : State := { tasks {} {} (.blocked (.claim stolen)) with replies := [⟨claimReq, a⟩] }

theorem test_witness_TaskEvents_start :
    (claimed .notClaimed).replies[0]? = some ⟨claimReq, .notClaimed⟩ ∧
      (claimed (.claimed [ok (codeBase + 0x40)])).replies[0]? = some ⟨claimReq, .claimed [ok (codeBase + 0x40)]⟩ ∧
      (claimed .notClaimed).replyFirst 0 ⟨claimReq, .notClaimed⟩ = true ∧
      (claimed (.claimed [ok (codeBase + 0x40)])).replyFirst 0 ⟨claimReq, .claimed [ok (codeBase + 0x40)]⟩ = true ∧ claimReq.op = .claim ∧
      ((claimed .notClaimed).tileAt 0).point ≠ .g ∧ claimReq.slot < 512 ∧
      ((claimed .notClaimed).ctxAt (ctxId 0 3)).st = .blocked (.claim false) ∧
      ((claimed .notClaimed true).ctxAt (ctxId 0 3)).st = .blocked (.claim true) ∧ targetFault (codeBase + 0x40) = none := by decide +kernel

theorem test_witness_TaskEvents_steal :
    let s := tasks {} twoEntries (.blocked (.steal 1))
    ((tasks {} {}).takesWork 3 = true ∧ (((tasks {} {}).tileAt 0).dequeAt 0).count = 0 ∧ (((tasks {} {}).tileAt 0).dequeAt 0).wait = none ∧
      (((tasks {} {}).tileAt 0).dequeAt 0).attempts < 62) ∧
      (s.ctxAt 3).st = .blocked (.steal 1) ∧ (1 : Nat) ≠ tileOf 3 ∧ (s.tileAt 1).running = true ∧ (s.tileAt 1).point ≠ .g ∧
      (s.tileAt 1).tenantOf (s.partOf 3) = (s.tileAt 0).tenantOf (s.partOf 3) ∧ (s.tileAt 0).point ≠ .g ∧
      s.ownerFirst 1 0 = false ∧ s.served = [] ∧ ((s.tileAt 1).dequeAt 0).entries = ⟨8, framePtr, .visible⟩ :: [⟨9, framePtr, .visible⟩] ∧
      (let u : State := { s.setDeque 1 0 { twoEntries with head := 1, entries := [⟨9, framePtr, .visible⟩] } with
         served := [(dequeUnit 1, 3)] }
       (u.portRead 0 0 (padd framePtr 8)).reach 0 0 5 (padd framePtr 8) 8 needRWS = .ok frameHome) ∧
      (((tasks {} {} (.blocked (.steal 1))).tileAt 1).dequeAt 0).entries = [] ∧ (tasks {} {} (.blocked (.steal 1))).ownerFirst 1 0 = false ∧
      (((tasks { wait := some 0 } {}).tileAt 0).dequeAt 0).wait = some 0 := by decide +kernel

/-- A mark of slot 3 on its way to the frame's state word, which names it RUNNING there. -/
def markOf (parked : Option (Nat × Nat × Bool × Nat)) : Mark := ⟨3, framePtr, parked, 5, none⟩
def marking (parked : Option (Nat × Nat × Bool × Nat)) : State :=
  { tasks {} {} .ready (swWith (swRunning 0 0 3 0) (if parked.isSome then 1 else 2)) with marks := [markOf parked] }

def markAt (parked : Option (Nat × Nat × Bool × Nat)) : State := (marking parked).portRead 0 0 (padd framePtr 8)

theorem test_witness_TaskEvents_mark :
    let s := marking (some (0, 9, false, 4))
    let u := markAt (some (0, 9, false, 4))
    s.marks[0]? = some (markOf (some (0, 9, false, 4))) ∧ s.partOf 3 = 0 ∧
      u.reach 0 0 5 (padd framePtr 8) 8 needWS = .ok frameHome ∧ (u.tagAt frameHome.dpa).poison = false ∧
      (markWord (u.word frameHome.dpa) 0 3 (some (0, 9, false, 4))).isSome = true ∧
      (markWord ((markAt none).word frameHome.dpa) 0 3 none).isSome = true := by decide +kernel

theorem test_witness_TaskEvents_mark_open : (markAt none).open8 frameHome.dpa 5 (some (unitRank 0)) ∧
    (markAt (some (0, 9, false, 4))).open8 frameHome.dpa 5 (some (unitRank 0)) := by
  unfold State.open8 State.alone; decide +kernel

/-- A spawn of the frame: its reservation (entry 0) for tile 1, or its release part for entry 8. -/
def spawnReq (entry : Nat) : Req :=
  { id := 5, src := 0, slot := 3, op := .spawn 1 0 entry, tenant := 5, part := 0, ptr := framePtr
    dpa := if entry = 0 then 0 else twoTenants.homeOf 1 0x20808, val := ok framePtr, cmp := ok (wd (twoTenants.homeOf 1 0x20808)) }
def spawning (entry : Nat) (d : Deque) : State := { tasks {} d with net := [spawnReq entry] }

/-- The deque of tile 1, whose ring begins at offset 0x1000 of buffer 4; its entry is reserved. -/
def ringed : Deque := { base := bufPtr 4 0x1000, tail := 1, entries := [⟨8, framePtr, .reserved⟩] }

theorem test_witness_TaskEvents_spawn :
    (spawning 0 {}).net[0]? = some (spawnReq 0) ∧ (spawning 0 {}).mayArrive 0 (spawnReq 0) = true ∧ ((spawning 0 {}).tileAt 1).running = true ∧
      (((spawning 0 {}).tileAt 1).dequeAt 0).count < 4096 ∧ 4096 ≤ (((spawning 0 { tail := 4096 }).tileAt 1).dequeAt 0).count := by
  decide +kernel

/-- The release part at its home: tile 1 has found the place of its entry in the ring; then the frame is UNSTARTED. -/
def ringFound : Except Stop (Option Nat) × State :=
  (spawning 8 ringed).ringPlace 1 0 5 ((((spawning 8 ringed).tileAt 1).dequeAt 0).placeOf 8)
def released : State := (((ringFound.2.taken 0).openLine (spawnReq 8)).spawnHome (spawnReq 8) 1 0 8).answer (spawnReq 8) .done

theorem test_witness_TaskEvents_release :
    ringFound.2.arrives 0 (spawnReq 8) ∧ ringFound.2.net = (spawning 8 ringed).net ∧ (spawnReq 8).dpa % 8 = 0 ∧ 8 ≤ (spawnReq 8).dpa ∧
      ringFound.2.alone (spawnReq 8).dpa ∧ ringFound.2.alone ((spawnReq 8).dpa - 8) ∧
      ringFound.2.retiredAt ((spawnReq 8).dpa - 8) = false ∧
      ¬(bit (ringFound.2.word (spawnReq 8).dpa) 63 = true ∧
        (swState (ringFound.2.word (spawnReq 8).dpa) = 1 ∨ swState (ringFound.2.word (spawnReq 8).dpa) = 2)) := by
  unfold State.arrives State.alone; decide +kernel

theorem test_witness_TaskEvents_ring :
    (match ringFound.1 with
      | .ok place => decide (place = some (twoTenants.homeOf 1 0x21000))
      | .error _ => false) = true ∧
      ((released.tileAt 1).dequeAt 0).entries.find? (fun e => e.id == 8 && decide (e.st = .visible)) = some ⟨8, framePtr, .visible⟩ := by
  decide +kernel

theorem test_witness_TaskEvents_ring_open : released.open8 (twoTenants.homeOf 1 0x21000) 5 := by
  unfold State.open8 State.alone; decide +kernel

/-- An adoption stack in the own loft. -/
def loftStack : Word := bufPtr 0x3FFFE 0x20000

/-- Slot 3 waits with a help-qualified reference (or the help instruction) on a word that the frame owns; its adoption stack is at
`stack` and its depth limit is `limit`. -/
def helpReq (op : MemOp) : Req := { id := 5, src := 0, slot := 3, op := op, dpa := 64, ptr := bufPtr 4 0x900, dest := [6], limit := 12 }
def helping (op : MemOp) (stack : Word) (limit : BitVec 3) : State :=
  let s := tasks {} {}
  s.setCtxAt 3 { st := .blocked (.helping (helpReq op) framePtr none), tenant := 5, g := [(2, ok (bufPtr 4 0x1000)), (3, ok 33)], limit := limit
                 adoptsp := stack, pc := codeBase + 0x1000 }

/-- What the procedure comes to, and the state that it leaves. -/
def helpFound (op : MemOp) (stack : Word) (limit : BitVec 3) : HelpEnd × State :=
  (helping op stack limit).helpLoop 3 limit.toNat (if op = .probe then 1 else 8) 1 framePtr

theorem test_witness_TaskEvents_help :
    ((helping (.help true) loftStack 3).ctxAt 3).st = .blocked (.helping (helpReq (.help true)) framePtr none) ∧
      (helping (.help true) loftStack 3).quiet 3 = true ∧ ((helping (.help true) loftStack 3).tileAt 0).clocked = true ∧
      ((helping (.help true) loftStack 3).ctxAt 3).deferred = none ∧ ((helping (.help true) loftStack 3).ctxAt 3).adoptOff = false ∧
      (helpFound (.help true) loftStack 0).1 = .reissue ∧ (helpFound .probe loftStack 0).1 = .reissue ∧
      (helpFound .probe loftStack 3).1 = .claim framePtr frameHome.dpa := by decide +kernel

theorem test_witness_TaskEvents_help_open : (helpFound .probe loftStack 3).2.open8 frameHome.dpa 5 := by
  unfold State.open8 State.alone; decide +kernel

/-- A help that has met a failure since; one whose frame is claimed, and one whose adopted frame has ended. -/
def helpLate : State :=
  let s := helping .probe loftStack 3
  s.setCtxAt 3 { s.ctxAt 3 with deferred := some (0x0A, bufPtr 4 0) }
def adopting : State :=
  let s := helping .probe loftStack 3
  s.setCtxAt 3 { s.ctxAt 3 with st := .blocked (.adopting (helpReq .probe) framePtr [ok (codeBase + 0x40), ok 44, ok 55, ok 66, ok 77] false none) }
def giving : State :=
  let s := helping .probe (loftStack + 512) 3
  s.setCtxAt 3 { s.ctxAt 3 with st := .blocked (.returning false none), depth := 1, frames := [framePtr, bufPtr 4 0x1000] }

/-- What the words of the stack are, and what is left. -/
def adoptAt : Except Stop (List Target) × State := adopting.unitReads 0 0 5 needWS (wordsFrom loftStack 50)

theorem test_witness_TaskEvents_adopt :
    (helpLate.ctxAt 3).deferred.isSome = true ∧ adopting.quiet 3 = true ∧ (adopting.tileAt 0).clocked = true ∧
      (adopting.ctxAt 3).tenant = 5 ∧ (adopting.ctxAt 3).adoptsp = loftStack ∧
      (match adoptAt with
        | (.ok ts, u) =>
          let ds := ts.map (fun t => t.dpa)
          let o := ds.foldl (fun (s : State) x => s.openUnit x 5 0 loftStack true (some (unitRank 0))) u
          !ds.any (fun x => u.gated x (some (unitRank 0))) && !ds.any o.quarantined && !ds.any (fun x => (o.homeStop x true).isSome)
        | _ => false) = true ∧
      giving.quiet 3 = true ∧ (giving.tileAt 0).clocked = true ∧
      isOk (giving.stackWords 3 false [] (wordsFrom ((giving.ctxAt 3).adoptsp - 512) 50)).1 = true := by decide +kernel

/-- R156, R159, R160, R163: a frame starts with its arguments, a pop takes the newest entry, a thief the oldest, a failed claim of a stolen
entry is a failed attempt, and a helper claims its frame, and goes one level down. -/
theorem test_tasks :
    let c := (after (exec (.frameStart 0) (claimed (.claimed [ok (codeBase + 0x40), ok 44, bad 55, ok 66, ok 77])))).ctxAt 3
    (c.pc = codeBase + 0x40 ∧ c.getG 2 = ok framePtr ∧ c.getG 3 = ok 33 ∧ c.getG 5 = bad 55 ∧ c.getG 7 = ok 77 ∧ c.retry = 12) ∧
      ((after (exec (.pop 3) (tasks oneEntry {}))).net.map (fun r => (r.op, r.ptr)) = [(.claim, framePtr)]) ∧
      ((after (exec (.stealAttempt 3) (tasks {} {}))).ctxAt 3).st = .blocked (.steal 1) ∧
      (((after (exec (.stealAnswer 3) (tasks {} {} (.blocked (.steal 1))))).tileAt 0).dequeAt 0).failed = 1 ∧
      (((after (exec (.frameStart 0) (claimed .notClaimed true))).tileAt 0).dequeAt 0).failed = 1 ∧
      swState ((after (exec (.helpProcedure 3) (helping .probe loftStack 3))).word frameHome.dpa) = 1 := by
  decide +kernel

theorem test_adopts :
    let c := (after (exec (.helpProcedure 3) adopting)).ctxAt 3
    c.depth = 1 ∧ c.adoptsp = bufPtr 0x3FFFE 0x20200 ∧ c.getG 2 = ok framePtr ∧ c.getG 4 = ok 44 ∧ c.pc = codeBase + 0x40 := by
  decide +kernel

/-! ### Messages, barriers and members -/

/-- Context 3 of tenant 5 has sent a message of type 7 to partition 0 of tile 1, at its `tries`-th retry. -/
def sentMsg (tries : Nat) : Msg :=
  { id := 4, dst := 1, table := 0, type := 7, m0 := 11, m1 := 22, coord := 33, tenant := 5, user := true, origin := .ctx 3 6, target := 0x1007
    tries := tries, limit := 2 }

/-- Its destination: slots 0 and 1 of tile 1 for tenant `tenant`, busy or not; entry 7 of its table is `e`; the inbox is empty or full. -/
def receiving (tries : Nat) (off busy full : Bool) (e tenant : Word) : State :=
  let there : Tile :=
    { pcfg := [(0, 0x8000200000000000 + tenant)], vect := [(7, e)]
      inbox := if full then List.replicate 32 { sentMsg 0 with id := 90 } else [] }
  { tiles := [(0, { pcfg := [(0, 0x8000800000000005)] }), (1, if off then { there with point := .off } else there)]
    ctxs := [(3, { st := .blocked (.answer 4), pc := codeBase + 0x1000, tenant := 5 })]
      ++ (if busy then [(512, { st := .ready, g := [(3, ok 9)] }), (513, { st := .ready })] else [])
    msgs := [sentMsg tries] }

/-- A vector entry: valid, of table 0, priority 1, handler at 0x200 of the code banks. -/
def vectEntry : Word := 0x8100000000000200

theorem test_witness_MessageEvents_arrive :
    let s := receiving 0 false false false vectEntry 5
    (s.msgs[0]? = some (sentMsg 0) ∧ (sentMsg 0).type ≠ 0xFF ∧ (sentMsg 0).away = false ∧ s.messageFirst 0 (sentMsg 0) = true ∧
      (s.tileAt 1).inbox.any (fun x => x.table == (sentMsg 0).table) = false ∧ (s.ctxAt 3).st = .blocked (.answer 4) ∧ (s.tileAt 1).running = true ∧
      vectOk 0 ((s.tileAt 1).vectAt 0 7) = true ∧ (s.tileAt 1).tenantOf 0 = 5 ∧ (s.tileAt 1).point ≠ .g ∧ s.turning 0 = false ∧
      s.idleOf 1 0 = some 0) ∧
      ((receiving 0 true false false 0 5).tileAt 1).running = false ∧
      vectOk 0 (((receiving 0 false false false 0 5).tileAt 1).vectAt 0 7) = false ∧
      ((receiving 0 false false false vectEntry 6).tileAt 1).tenantOf 0 ≠ (sentMsg 0).tenant ∧
      (receiving 0 false true false vectEntry 5).idleOf 1 0 = none ∧ ((receiving 0 false true false vectEntry 5).tileAt 1).inboxRoom 0 = true ∧
      ((receiving 0 false true true vectEntry 5).tileAt 1).inboxRoom 0 = false ∧ (sentMsg 0).tries < (sentMsg 0).limit ∧
      (sentMsg 2).limit ≤ (sentMsg 2).tries := by decide +kernel

/-- The message is in the inbox of tile 1, whose slot 0 is IDLE. -/
def queuedMsg : State :=
  { tiles := [(1, { pcfg := [(0, 0x8000200000000005)], vect := [(7, vectEntry)], inbox := [sentMsg 0, { sentMsg 0 with id := 6, m0 := 12 }] })] }

theorem test_witness_MessageEvents_start :
    (sentMsg 0).origin = .ctx 3 6 ∧ (queuedMsg.tileAt 1).clocked = true ∧ queuedMsg.turning 0 = false ∧
      queuedMsg.idleOf 1 (queuedMsg.partOf 512) = some (slotOf 512) ∧ (queuedMsg.tileAt 1).nextMsg 0 = some (sentMsg 0) := by decide +kernel

/-- Object 2 of tile 0 with members 504 and 505, of which 504 waits; an arrival of slot 505 is in flight. -/
def arriving : State :=
  { tiles := [(0, { bars := [(2, { members := 3 <<< 504, arrived := 1 <<< 504, v := true, root := true, episode := 6 })] })]
    ctxs := [(504, { st := .blocked (.barrier 6), pc := codeBase + 0x1000, gang := true, obj := some 2, arrived := true })]
    net := [{ id := 3, src := 0, slot := 505, op := .arrive 0 2, dpa := 0, ptr := 0 }] }

/-- The release of that object is due. -/
def releasing : State := { arriving with net := [], releases := [(0, 2, barStatus 7 true)] }

theorem test_witness_MessageEvents_barrier :
    (arriving.net[0]?.isSome = true ∧ (arriving.net.all fun r => arriving.mayArrive 0 r) = true ∧ (arriving.barAt 0 2).v = true ∧
      (arriving.barAt 0 2).members.getLsbD 505 = true ∧ (arriving.barAt 0 2).root = true ∧ (arriving.barAt 0 2).reported = false ∧
      (arriving.barAt 0 2).rootless = none ∧ (arriving.tileAt 0).point ≠ .g ∧
      { arriving.barAt 0 2 with arrived := setBitIf (arriving.barAt 0 2).arrived 505 true }.complete = true) ∧
      (releasing.releases[0]? = some (0, 2, barStatus 7 true) ∧ (releasing.tileAt 0).running = true ∧ (releasing.tileAt 0).point ≠ .g ∧
        (releasing.barAt 0 2).arrived.getLsbD 504 = true ∧ (releasing.ctxAt (ctxId 0 504)).st = .blocked (.barrier 6) ∧
        releasing.handedOver (ctxId 0 504) = none ∧ (releasing.barAt 0 2).members.getLsbD 504 = true ∧
        releasing.releases.any (fun x => !(releasing.barAt 0 2).root && (x.1 == (releasing.barAt 0 2).ptile.toNat && x.2.1 == (releasing.barAt 0 2).pobj.toNat)) =
          false) := by decide +kernel

/-- A launch whose plan starts member 1 in context 3. -/
def memberLaunch : Launch := { id := 8, fn := 1, words := [0, 0x00000040, 77], part := 0, tenant := 5, plan := [(1, 3)] }
def starting : State :=
  { launches := [memberLaunch], ctxs := [(3, { st := .blocked (.member 8), obj := some 2, stage := 1, g := [(2, ok 5)] })] }

theorem test_witness_MessageEvents_member :
    starting.launches[0]? = some memberLaunch ∧ memberLaunch.plan = (1, 3) :: [] ∧ (starting.ctxAt 3).st = .blocked (.member memberLaunch.id) := by
  decide +kernel

/-- R167, R169, R246, R247: a handler starts in slot 0; a complete barrier releases its waiting member; a member starts. -/
theorem test_messages_arrive :
    ((after (exec (.messageArrive 0) (receiving 0 false false false vectEntry 5))).ctxAt 512).getG 4 = ok 11 ∧
      ((after (exec (.messageArrive 0) (receiving 2 false true true vectEntry 5))).ctxAt 3).st =
        .blocked (.escalated 0x0B (codeBase + 0x1000) 0x1007 none) ∧
      (after (exec (.barrierReport 0) arriving)).releases = [(0, 2, 14)] ∧
      ((after (exec (.barrierRelease 0) releasing)).ctxAt 504).getG 6 = ok 15 ∧
      ((after (exec (.gangMemberStart 0) starting)).ctxAt 3).getG 4 = ok 77 := by decide +kernel
/-! ### Contexts, launches and rotation -/

/-- Slots 504 and 506 of tile 0 are READY, slot 505 naps until 9; the clock is at 10. -/
def three : State :=
  { ctxs := [(504, { st := .ready, lastIssue := some 8, lastTurn := 8 }), (505, { st := .blocked (.nap 9), pc := codeBase + 0x1000 }), (506, { st := .ready, pc := 8 })], cycle := 10 }

/-- Context 504 calls function `f` of service `n`, or has an escalated trap. -/
def calling (n f : Nat) : State :=
  { ctxs := [(504, { st := .blocked (.service n), pc := codeBase + 0x1000, g := [(4, ok (wd f))] })] }
def escalated (h : Option Nat := none) : State :=
  { ctxs := [(504, { st := .blocked (.escalated 0x08 codeBase 5 none), handledBy := h })] }

theorem test_witness_ContextEvents :
    (three.issuing = false ∧ (three.tileAt 0).clocked = true ∧ three.issued 0 = false ∧ three.candidates 0 16 ≠ [] ∧
        (three.tileAt 0).point.ticks three.cycle.toNat = true ∧ three.eligible 0 506 = true ∧ three.rotations = [] ∧
        { three with rotations := [{ part := 16, incoming := 6, outgoing := 5, left := [506], tiles := [] }] }.candidates 0 16 = [506]) ∧
      (∀ p, p < 17 → ({} : State).candidates 0 p = []) ∧
      (∀ h, (h = none ∨ h = some 505) → ((escalated h).ctxAt 504).st = .blocked (.escalated 0x08 codeBase 5 none) ∧ (escalated h).houseFault 0 = false ∧
        ((escalated h).tileAt 0).clocked = true ∧ (escalated h).quiet 504 = true ∧ (escalated h).marksDone 504 = true ∧
        (((escalated h).ctxAt 504).getG 2).v = 0 ∧ ((escalated h).ctxAt 504).depth = 0 ∧ ((escalated h).ctxAt 504).gang = false ∧
        ((escalated h).ctxAt 504).handledBy = h) ∧ escalated.houseFor 504 = some 505 ∧ 504 ≠ ctxId 0 505 ∧
      serviceHas 0x400 9 = false ∧ serviceHas 0x401 2 = false ∧ ((three.ctxAt 505).st = .blocked (.nap 9) ∧ 9 ≤ three.cycle.toNat) ∧
      ((three.ctxAt 504).st ≠ .idle ∧ (three.ctxAt 504).st ≠ .swapping ∧ (three.ctxAt 504).st ≠ .borrowed ∧ (three.tileAt 0).running = true ∧
        (three.ctxAt 504).held = [] ∧ (three.ctxAt 504).gang = false) := by
  refine ⟨by decide +kernel, by decide +kernel, ?_, by decide +kernel⟩
  rintro h (rfl | rfl) <;> decide +kernel

theorem test_witness_ContextEvents_call : (calling 0x400 9).calls 504 0x400 9 := by unfold State.calls; decide +kernel

/-- R148, R320: the next slot after the pointer issues; an unknown function returns 2. -/
theorem test_contexts :
    (after (exec (.carouselIssue 0) three)).cur = 506 ∧ ((after (exec (.serviceCall 504) (calling 0x400 9))).ctxAt 504).getG 4 = ok 2 ∧
      ((after (exec (.napExpiry 505) three)).ctxAt 505).pc = codeBase + 0x1004 ∧
      (after (exec (.escalation 504) (escalated (some 505)))).records.map (fun r => fld r.w0 63 48) = [8] ∧
      ((after (exec (.escalation 504) escalated)).ctxAt 504).handledBy = some 505 ∧
      (after (exec (.contextStateError 504) three)).records.map (fun r => fld r.w0 63 48) = [0x0D] := by decide +kernel

/-- Function 1 is bound to partition 0 of tenant 5; its ring of 2 records is at the start of buffer 3 of its host tenant, and its second
record is full. -/
def ring : State :=
  let s : State :=
    { booted := true, ircfg := testRegions, btab := [(17, 0x1001000000008000)], vfbind := [(1, 0x8000000000000005)]
      bound := [(1, 0x8000000000000005)], vfEnable := [(0, true)], fns := [(1, { lqbase := bufPtr 3 0, lqcfg := 0x8100000000000000, lqnext := 1 })] }
  let s := s.setEntry 1017 (hostTenant 1) 3 ⟨0x8F04000C03C00400, 0x20000, 0x1000, 0⟩
  { s with mem := putWords s.mem 0x20040 [0x3000000040000000, 0x40, 77, 0, 0, 0, bufPtr 3 0x800, 0] }

/-- The launcher's read of the record: where its words are, and the state that it leaves; then the line of the record is open. -/
def ringRead : Except Stop (List Target) × State :=
  ring.unitReads 0 (hostPartOf 1) (hostTenant 1) needRWS (wordsFrom (padd (bufPtr 3 0) (wd (64 * (1 % 2)))) 8)
def ringWords : List Target := match ringRead.1 with | .ok ts => ts | .error _ => []
def ringAtDoor : State := ringRead.2.openUnit (ring.homeOf 1 0x20040) (hostTenant 1) (hostPartOf 1) (bufPtr 3 0x40)

theorem test_witness_LaunchAcquire :
    let f := ring.fnAt 1
    ring.booted = true ∧ ring.present 1 = true ∧ bit f.lqcfg 63 = true ∧ fld f.lqcfg 59 56 = 1 ∧ fld f.lqbase 5 0 = 0 ∧
      f.lqbase = bufPtr 3 0 ∧ f.lqnext = 1 ∧ ring.launches = [] ∧ f.lqhold = none ∧
      (match ringRead.1 with | .ok ts => ts == (List.range 8).map (fun j => { dpa := ring.homeOf 1 (0x20040 + 8 * j), gen := 3 }) | _ => false) = true ∧
      ringWords.all (fun t => !ringRead.2.gated t.dpa && (ringAtDoor.homeStop t.dpa true).isNone) = true ∧ ring.bindWaits 1 = false ∧
      (ringRead.2.tagAt (ringWords.getD 0 { dpa := 0 }).dpa).full = true := by decide +kernel

theorem test_witness_LaunchAcquire_open : ringRead.2.open8 (ringWords.getD 0 { dpa := 0 }).dpa (hostTenant 1) := by
  unfold State.open8 State.alone; decide +kernel

/-- A launch that is over, with a completion word or without one. -/
def overLaunch (done : Word) (failed : Option (Nat × Nat)) : Launch :=
  { id := 8, fn := 1, words := [0x3000000040000000, 0x40, 77, 0, 0, 0, done, 0], part := 0, tenant := 5, gang := 1, failed := failed }
def ended (done : Word) (failed : Option (Nat × Nat)) : State := { ring with launches := [overLaunch done failed] }

/-- The launcher's reach for its completion word. -/
def doneRead (failed : Option (Nat × Nat)) : Except Stop (List Target) × State :=
  (ended (bufPtr 3 0x800) failed).unitReads 0 (hostPartOf 1) (hostTenant 1) needWS [bufPtr 3 0x800]

/-- A KIND 1 record whose source record pointer names no buffer. -/
def moving : Launch := { id := 8, fn := 1, words := [0x3400000000000000, 0, 0, 0, 0, 0, 0, 0], part := 0, tenant := 5 }

theorem test_witness_LaunchDone :
    (overLaunch 0 none).placed = true ∧ (overLaunch 0 none).live = [] ∧ (overLaunch 0 none).w 6 = 0 ∧ (overLaunch (bufPtr 3 0x800) none).w 6 ≠ 0 ∧
      (overLaunch (bufPtr 3 0x800) none).kind = 0 ∧ (overLaunch (bufPtr 3 0x800) none).hold = none ∧
      (match (doneRead none).1 with | .ok ts => ts.map (fun x => x.dpa) == [ring.homeOf 1 0x20800] | _ => false) = true ∧
      { overLaunch 0 none with invalid := true }.placed = true := by decide +kernel

def movingAt : State := { ring with launches := [moving] }

theorem test_witness_LaunchDone_transfer :
    moving.placed = true ∧ moving.live = [] ∧ moving.kind = 1 ∧ moving.result = none ∧
      ∃ v u, movingAt.transferRun moving = (.ok v, u) := by
  have h : (movingAt.transferRecord moving (moving.w 2)).1 = .ok (.error (copyStatus 1 4 allOnes48)) := by
    have hb : (match (movingAt.transferRecord moving (moving.w 2)).1 with
        | .ok (.error v) => v == copyStatus 1 4 allOnes48 | _ => false) = true := by decide +kernel
    revert hb
    split
    · intro hb; simp_all
    · simp
  refine ⟨by decide +kernel, by decide +kernel, by decide +kernel, by decide +kernel, copyStatus 1 4 allOnes48,
    (movingAt.transferRecord moving (moving.w 2)).2, ?_⟩
  unfold State.transferRun
  rw [show movingAt.transferRecord moving (moving.w 2) = (.ok (.error (copyStatus 1 4 allOnes48)), (movingAt.transferRecord moving (moving.w 2)).2)
    from Prod.ext h rfl]

theorem test_witness_LaunchDone_open : (doneRead none).2.open8 (ring.homeOf 1 0x20800) (hostTenant 1) := by
  unfold State.open8 State.alone; decide +kernel

/-- Partition 0 has slots 0 and 1 of tile 0 for tenant 5; slot 0 waits at a barrier. Tenant 6 is bound to it too, by function 2. -/
def rotating (rs : List Rotation) (st : SlotState := .blocked (.barrier 4)) : State :=
  { tiles := [(0, { pcfg := [(0, 0x8000200000000005)] })], vfbind := [(1, 0x8000000000000005), (2, 0x8000000000000006)]
    ctxs := [(0, { st := st, pc := 64, g := [(4, bad 4)], e := [(3, ok 3)], tenant := 5 })], rotations := rs
    tables := [(6, 0x100100000000A000)] }

/-- The partition has slots in tile 1 too, which is at OFF. -/
def rotatingOff : State := { rotating [] with tiles := [(0, { pcfg := [(0, 0x8000200000000005)] }), (1, { point := .off, pcfg := [(0, 0x8000200000000005)] })] }

/-- A rotation with slot 0 still to save, and one with every slot saved. -/
def leaving : Rotation := { part := 0, outgoing := 5, incoming := 6, left := [0], tiles := [0, 1] }
def handing : Rotation := { part := 0, outgoing := 5, incoming := 6, left := [], tiles := [0, 1] }

/-- Slot 0 as tenant 6 left it. -/
def backFrom : Saved := { tenant := 6, ctx := 0, c := { st := .ready, pc := 72 } }

theorem test_witness_Rotation :
    (((rotating []).tileAt 0).tenantOf 0 ≠ 6 ∧ (rotating []).turning 0 = false ∧
      (rotating []).vfbind.any (fun x => bindValid x.2 && bindPart x.2 == 0 && bindTenant x.2 == 6) = true ∧ (rotating []).tables.any (fun x => x.1 == 6) = true) ∧
      (rotating []).offTile 0 = none ∧ rotatingOff.offTile 0 = some 1 ∧
      ((rotating [leaving]).rotations.find? (fun r => r.left.contains 0) = some leaving ∧
        ((rotating [leaving]).tileAt 0).clocked = true ∧ (((rotating [leaving]).ctxAt 0).forSaving 0).isSome = true ∧
        (rotating [leaving]).quiet 0 = true ∧ ((rotating [leaving]).ctxAt 0).pend = [] ∧ ((rotating [leaving]).ctxAt 0).borrowed = [] ∧
        (rotating [leaving]).marksDone 0 = true ∧ (rotating [leaving]).issuing = false ∧ (rotating [leaving]).sweeps leaving 0 = true ∧
        leaving.outgoing ≠ 0 ∧ leaving.incoming ≠ leaving.outgoing ∧ (rotating [leaving]).saved = [] ∧
        (({ rotating [leaving] with saved := [backFrom] } : State).saved.find? (fun y => y.tenant == 6 && y.ctx == 0)) = some backFrom ∧
        backFrom.c.st = .ready) ∧
      ((rotating [handing] .swapping).rotations = [handing] ∧ 0 ∈ handing.tiles ∧ ((rotating [handing] .swapping).tileAt 0).clocked = true ∧
        (rotating [handing] .swapping).handQuiet 0 handing = true ∧ (rotating [handing] .swapping).savedTiles = []) := by decide +kernel

/-- R364, R366: the record's words, and the status of a failed launch. -/
theorem test_launches :
    (after (exec (.launchAcquire 1) ring)).launches.map (fun l => (l.w 1, l.w 2, l.tenant)) = [(0x40, 77, 5)] := by decide +kernel

theorem test_launch_status :
    (after (exec (.launchDone 0) (ended (bufPtr 3 0x800) (some (2, 0x08))))).word (ring.homeOf 1 0x20800) = 0x4008000000000002 := by
  decide +kernel

/-- R175: a saved slot, and the tiles that are still to hand over their loft. -/
theorem test_rotation :
    (after (exec (.slotSwap 0) (rotating [leaving]))).saved.map (fun x => (x.tenant, x.ctx, x.c.getG 4)) = [(5, 0, bad 4)] ∧
      (after (exec (.loftHandover 0 0) (rotating [handing] .swapping))).rotations.map (fun r => r.tiles) = [[1]] := by decide +kernel

/-! ### Power, memory faults and links -/

/-- Tile 0 has slots of tenant 5; the spare of tile 3 copies bank 7, whose row `bnd` is next, or is in use. -/
def powered (bnd : Nat) (used : Bool := false) : State :=
  { tiles := [(0, { pcfg := [(0, 0x8000200000000005)] })], rm := { state := 1, owner := 0 }
    spares := [(3, { bank := if used then none else some 7, bnd := bnd, used := used })] }

theorem test_witness_PowerAndVault :
    ((powered 0).owned = true ∧ ({} : State).owned = false ∧ pointOf 2 = some .l2 ∧ pointOf 4 = some .off ∧ (powered 0).infraAt 0 ≠ .off ∧ ((powered 0).tileAt 1).mayStop = true ∧
        ((powered 0).tileAt 0).mayStop = false ∧ ((powered 0).tileAt 0).allocated = true) ∧
      (((powered 0).spareAt 4).retired.all (fun y => y.1 != 7) = true ∧ ((powered 0).spareAt 4).bank = none ∧ ((powered 0).spareAt 4).used = false) ∧
      ((((powered 0 true).spareAt 3).retired.all (fun y => y.1 != 9) = true) ∧ ((powered 0 true).spareAt 3).used = true ∧
        ((powered 0 true).spareAt 3).bank ≠ some 9) ∧
      (((powered 0).spareAt 3).bank = some 7 ∧ ((powered 0).spareAt 3).bnd + 1 < bankBytes / rowBytes) ∧
      (((powered 3071).spareAt 3).bank = some 7 ∧ bankBytes / rowBytes ≤ ((powered 3071).spareAt 3).bnd + 1) := by decide +kernel

/-- R25, R336, R337: a throttle, the record of a bank retired, and the end of sparing. -/
theorem test_power :
    ((after (exec (.thermalThrottle 2) (powered 0))).tileAt 0).point = .l2 ∧ ((after (exec (.thermalThrottle 2) (powered 0))).tileAt 1).point = .n ∧
      ((after (exec (.bankRetire 3 9) (powered 0 true))).spareAt 3).retired = [(9, 0)] ∧
      (after (exec (.sparingRowCopy 3) (powered 3071))).records.map (fun r => (fld r.w0 63 48, fld r.w6 63 48)) = [(0x0104, 11)] := by
  decide +kernel

/-! ### The Herd Vote -/

/-- Tile 9 (x 1, y 1) has neighbours 1, 10, 17 and 8. The first judges it SILENT, and knows that 10 and 17 do. -/
def herding (h : Herd) (judge : BitVec 2 := 1) : State :=
  let voter (j : Nat) (held : Map (BitVec 2)) : Tile := { herd := { nbr := [(j, { judge := judge })], held := held } }
  { tiles := [(1, voter 2 [(9 * 1024 + 10, 1), (9 * 1024 + 17, 1)]), (9, { herd := h, pcfg := [(0, 0x8000200000000005)] }), (10, voter 3 []), (17, voter 0 [])]
    ctxs := [(9 * 512, { st := .ready, tenant := 5 })], cycle := 8192
    net := [{ id := 4, src := 9, slot := 0, op := .load 8 false, dpa := 64, ptr := 0 }] }

/-- A heartbeat, the one before it having been number 6; a lost neighbour. -/
def beat (seq : BitVec 16) : Heartbeat :=
  let b : Heartbeat :=
    { seq := seq, hung := false, point := 0, fenced := false, appeal := false, judge := 3, relay0 := emptyRelay, relay1 := emptyRelay }
  { b with crc := b.check }
def hearing (seq : BitVec 16) : State := herding { wires := [(0, some (beat seq))], nbr := [(0, { seq := 6 })] }
def missing (n : Nat) : State := herding { nbr := [(0, { missed := n })] }

theorem test_witness_HerdVote :
    ((herding {}).cycle.toNat % 4096 = 0 ∧ ((herding {}).herd 9).sent ≤ (herding {}).period ∧ (herding {}).infraAt 0 ≠ .off ∧
        ((herding {}).herd 9).silent = false ∧ neighbour 9 0 = some 1 ∧ neighbour 9 1 = some 10 ∧ neighbour 9 2 = some 17 ∧ neighbour 9 3 = some 8) ∧
      (Map.get (fun _ => none) ((hearing 9).herd 9).wires 0 = some (beat 9) ∧ (beat 9).malformed 1 (((hearing 9).herd 9).nbrAt 0).seq true = true ∧
        (beat 7).malformed 1 6 true = false) ∧
      (((missing 2).herd 9).judged < (missing 2).period ∧ ((missing 2).herd 9).appealing = false ∧ ((missing 2).herd 1).fenced = false ∧
        (((missing 2).herd 9).nbrAt 0).broken = false ∧ (((missing 2).herd 9).nbrAt 0).bad = [] ∧ (((missing 2).herd 9).nbrAt 0).heard = false ∧
        2 ≤ (((missing 2).herd 9).nbrAt 0).missed ∧ (((missing 1).herd 9).nbrAt 0).missed < 2) ∧
      (((herding {}).herd 9).fenced = false ∧ (herding {}).fencer 9 = some (0, 1)) ∧
      (let s := herding { fenced := true, recovered := false }
       (s.tileAt 9).recover = [] ∧ (s.herd 9).fenced = true ∧ (s.herd 9).recovered = false ∧
        (s.tileAt 9).deque.all (fun x => x.2.entries.isEmpty) = true ∧ s.stranded 9 = none) ∧
      (let s := herding { fenced := true, selfTest := true }
       (s.herd 9).selfTest = true ∧ (s.herd 9).fenced = true ∧ (s.herd 9).recovered = true ∧ s.testOver 9 = false ∧ (s.herd 9).resetting = false ∧ s.appealsOf 9 < 3) ∧
      { herding { fenced := true, selfTest := true } with cycle := 5000000 }.testOver 9 = true ∧
      3 ≤ (herding { fenced := true, selfTest := true, appeals := [1, 2, 3] }).appealsOf 9 ∧
      (let s := herding { fenced := true, selfTest := true, resetting := true }
       (s.herd 9).selfTest = true ∧ (s.herd 9).resetting = true ∧ (s.herd 9).recovered = true ∧ s.testOver 9 = false) := by decide +kernel

/-- Slot 3 of tile 0 ran the frame, whose state word is `w`; the tile recovers it. -/
def rescueSpec : RecordSpec := { code := 0x0108, sev := 3, engine := 10, tile := 0, action := 8 }
def rescueOf : Recover := { what := .frame framePtr (some 3) rescueSpec, part := 0, tenant := 5 }
def rescuing (w : Word) : State :=
  let s := tasks {} {} .idle w
  s.setTileAt 0 { s.tileAt 0 with recover := [rescueOf] }
def rescueRead (w : Word) : Except Stop (List Target) × State := (rescuing w).unitReads 0 0 5 needRWS [padd framePtr 8]

/-- RUNNING in slot 3 of tile 0, restartable or not, and UNSTARTED. -/
def runningIn (rst : Bool) : Word := wd (2 ^ 63 + 2 ^ 60 + (if rst then 2 ^ 59 else 0) + 3 * 2 ^ 37)
def mineIn (w : Word) : Bool := bit w 63 && (swState w == 1 || swState w == 2) && swTile w == 0 && swSlot w == 3

/-- What the step of a recovery asks of the state, for the state word `w`. -/
def Rescues (w : Word) : Prop :=
  ((rescuing w).tileAt 0).recover = [rescueOf] ∧ ((rescuing w).recoverIn 0).head? = some 0 ∧ ((rescuing w).tileAt 0).clocked = true ∧
    (match (rescueRead w).1 with | .ok ts => ts.map (fun x => x.dpa) == [frameHome.dpa] | _ => false) = true ∧
    ((rescueRead w).2.tagAt frameHome.dpa).poison = false ∧ (rescueRead w).2.word frameHome.dpa = w ∧
    (rescueRead w).2.open8 frameHome.dpa 5 (some (houseRank 0))

theorem test_witness_HerdVote_not_mine : Rescues 0x8000000000000000 ∧ mineIn 0x8000000000000000 = false :=
  ⟨⟨by decide +kernel, by decide +kernel, by decide +kernel, by decide +kernel, by decide +kernel, by decide +kernel,
    by unfold State.open8 State.alone; decide +kernel⟩, by decide +kernel⟩

theorem test_witness_HerdVote_restarts : Rescues (runningIn true) ∧ mineIn (runningIn true) = true ∧ bit (runningIn true) 59 = true :=
  ⟨⟨by decide +kernel, by decide +kernel, by decide +kernel, by decide +kernel, by decide +kernel, by decide +kernel,
    by unfold State.open8 State.alone; decide +kernel⟩, by decide +kernel, by decide +kernel⟩

theorem test_witness_HerdVote_lost :
    Rescues (runningIn false) ∧ mineIn (runningIn false) = true ∧ bit (runningIn false) 59 = false ∧ 8 ≤ frameHome.dpa ∧
      (rescueRead (runningIn false)).2.open8 (frameHome.dpa - 8) 5 :=
  ⟨⟨by decide +kernel, by decide +kernel, by decide +kernel, by decide +kernel, by decide +kernel, by decide +kernel,
    by unfold State.open8 State.alone; decide +kernel⟩, by decide +kernel, by decide +kernel, by decide +kernel,
    by unfold State.open8 State.alone; decide +kernel⟩

/-- R348: a frame that may not start again becomes LOST, and its word 0 full and poisoned; one that may is UNSTARTED. -/
theorem test_recovery :
    (let t := after (exec (.frameRecovery 0) (rescuing (runningIn false)))
     swState (t.word frameHome.dpa) = 4 ∧ t.word (frameHome.dpa - 8) = framePtr ∧ (t.tagAt (frameHome.dpa - 8)).poison = true) ∧
      swState ((after (exec (.frameRecovery 0) (rescuing (runningIn true)))).word frameHome.dpa) = 0 := by decide +kernel

/-- R340, R342, R347, R352: a heartbeat reaches the neighbour above, three periods of silence are judged, and a fenced tile sends nothing. -/
theorem test_herd :
    ((((after (exec (.heartbeatSend 9) (herding {}))).herd 1).wires.map (fun w => (w.1, w.2.map (fun h => h.seq)))) = [(2, some 1)]) ∧
      ((((after (exec (.judgement 9 0) (missing 2))).herd 9).nbrAt 0).judge = 1 ∧
        (((after (exec (.judgement 9 1) (missing 2))).herd 9).nbrAt 0).judge = 2) ∧
      ((after (exec (.fence 9) (herding {}))).net = [] ∧ ((after (exec (.fence 9) (herding {}))).herd 9).fcause = 1) ∧
      ((after (exec (.selfTestEnd 9 false) (herding { fenced := true, selfTest := true }))).tileAt 9).point = .off := by decide +kernel
/-! ### The host side -/

/-- Function 1 reaches buffer 3 of its host tenant through BAR2; byte 0x800 of it is at `hostHome`. -/
def hosting (tag : Tag := {}) : State :=
  let s : State := { ring with fns := [(1, { baridx := 3 })] }
  { s with mem := writeBytes s.mem (s.homeOf 1 0x20800) 8 0x1122334455667788 }.setTagAt (s.homeOf 1 0x20800) tag
def hostHome : Nat := ring.homeOf 1 0x20800

/-- Offset 0x800 through alias `a`, and an offset past the end of the buffer. -/
def barOff (a : Nat) : Word := wd (a * 2 ^ 40 + 0x800)
def barOut (a : Nat) : Word := wd (a * 2 ^ 40 + 0x1800)

/-- The port of tile 0 once it has read for the access, and what it finds. -/
def hostAt (off : Word) : State := hosting.portRead 0 (hostPartOf 1) (hosting.barPtr 1 off)
def hostTo (off : Word) (width : Nat) (need : Need) : Except Stop Target :=
  (hostAt off).reach 0 (hostPartOf 1) (hostTenant 1) (hosting.barPtr 1 off) width need
def hostFinds (off : Word) (width : Nat) (need : Need) : Bool := match hostTo off width need with | .ok x => x.dpa == hostHome | _ => false

/-- Buffer 3 is paged, and no page of it stands. -/
def hostPaged : State := hosting.setEntry 1017 (hostTenant 1) 3 ⟨0xCF04000C03C00400, 0x400000, 0x1000, 0⟩
def hostPagedAt : State := hostPaged.portRead 0 (hostPartOf 1) (hostPaged.barPtr 1 (barOff 0))

theorem test_witness_HostMemory :
    (hosting.present 1 = true ∧ widthOk 4 = true ∧ hosting.barWaits = [] ∧ barAlias (barOut 0) = 0 ∧
        (match hostTo (barOut 0) 4 needW with | .error (.cause _ _) => true | _ => false) = true) ∧
      (hostFinds (barOff 0) 4 needW = true ∧ (hostAt (barOff 0)).gated hostHome = false ∧ (hostAt (barOff 0)).homeStop hostHome true = none ∧
        (hostAt (barOff 0)).readsWell = true ∧ (hostAt (barOff 0)).retiredAt hostHome = false ∧
        (hostAt (barOff 0)).opens ((hostAt (barOff 0)).unitReq hostHome (hostTenant 1)) = true) ∧
      (hostFinds (barOff 0) 4 needR = true ∧ (hostAt (barOff 0)).homeStop hostHome false = none ∧ hostHome % 8 = 0) ∧
      (barAlias (barOff 1) = 1 ∧ hostFinds (barOff 1) 8 needWS = true) ∧
      (barAlias (barOff 2) = 2 ∧ hostFinds (wd ((barOff 2).toNat / 8 * 8)) 8 needR = true) ∧
      barAlias (barOff 3) = 3 ∧ hostPaged.present 1 = true ∧
      (match hostPagedAt.reach 0 (hostPartOf 1) (hostTenant 1) (hostPaged.barPtr 1 (barOff 0)) 4 needW with
        | .error (.page _ _) => true | _ => false) = true := by decide +kernel

theorem test_witness_HostMemory_open : (hostAt (barOff 1)).open8 hostHome (hostTenant 1) := by
  unfold State.open8 State.alone; decide +kernel

/-- R356: a byte is written in place, poison is an uncorrectable completion, and a fill sets the word full. -/
theorem test_hosts :
    (after (exec (.bar2PlainWrite 1 (barOff 0) 1 0xAB) hosting)).word hostHome = 0x11223344556677AB ∧
      (after (exec (.bar2PlainRead 1 (barOff 0) 2) hosting)).hostRead = some (0x7788, false) ∧
      (after (exec (.bar2PlainRead 1 (barOff 0) 2) (hosting ⟨true, false, true⟩))).hostRead = some (BitVec.allOnes 64, true) ∧
      ((after (exec (.bar2FillWrite 1 (barOff 1) 8 5) (hosting ⟨false, false, false⟩))).tagAt hostHome).full = true := by decide +kernel

/-- Function 1 with two pending events at vector 2, unmasked or not, and a ring of records from 5 to 9; function 0 holds none. -/
def events (masked : Bool) : State :=
  { vfbind := [(1, 0x8000000000000005)], bound := [(1, 0x8000000000000005)], vfEnable := [(0, true)], cycle := 1000000
    agenda := [.mgmtReads 0 0 0x50, .own]
    fns := [(1, { icoal := 0x100005, pending := [(2, 2)], since := [(2, 7)], eqhead := 5, eqtail := 9, pba := if masked then [(2, true)] else []
                  msix := if masked then [] else [(2, 0x77)] })]
    rm := { state := 1, owner := 0 }, records := [resetRecord], kslot := [(1, 0x6000500000000000)] }

/-- Records that tiles 7 and 2 posted in one cycle. -/
def lateTile : Record := { resetRecord with w1 := wd (7 * 2 ^ 12), w5 := 900 }
def earlyTile : Record := { resetRecord with w1 := wd (2 * 2 ^ 12), w5 := 900 }

theorem test_witness_HostRegisters :
    ((events true).window 0 1 0x10 = true ∧ quietOffset false 0x10 = false ∧ (((events true).fnAt 1).write 0x10 0xFFFFFFFF).isSome = true) ∧
      ((events true).window 0 0 0x50 = true ∧ (events true).owns 0 = true ∧ (events true).window 2 0 0x50 = true ∧ (events true).owns 2 = false) ∧
      ((events true).present 1 = true ∧ 2 < vectors 1) ∧
      (0 < Map.get (fun _ => 0) ((events true).fnAt 1).pending 2 ∧ fld ((events true).fnAt 1).icoal 15 0 ≠ 0 ∧
        Map.get (fun _ => 0) ((events true).fnAt 1).since 2 + fld ((events true).fnAt 1).icoal 15 0 * microCycles ≤ (events true).cycle.toNat ∧
        ((events true).fnAt 1).masked 2 = true ∧ ((events false).fnAt 1).masked 2 = false) ∧
      (((7 : BitVec 32) - ((events true).fnAt 1).eqtail).toInt ≤ 0 ∧ 0 < ((11 : BitVec 32) - ((events true).fnAt 1).eqtail).toInt) ∧
      ((events true).window 0 1 0x11 = true ∧ 0x11 % 8 ≠ 0) ∧
      ((events true).records = [resetRecord] ∧ resetRecord.wide = true ∧ resetRecord.w5 ≠ (events true).cycle ∧ fld resetRecord.w0 63 48 ≠ 0x010D ∧
        bit ((events true).fnAt 0).eqcfg 63 = false ∧
        fld ((events true).fnAt 0).eqcfg 50 48 ≤ recordSev resetRecord ∧ ((events true).fnAt 0).buffer.length < 256) ∧
      (let s := { events true with fns := [(0, { eqcfg := 0x0007000000000000 })] }
       recordSev resetRecord < fld (s.fnAt 0).eqcfg 50 48 ∧ s.records = [resetRecord] ∧ bit (s.fnAt 0).eqcfg 63 = false) ∧
      (lateTile.w5 = earlyTile.w5 ∧ lateTile.w5 ≠ (events true).cycle ∧ fld earlyTile.w1 21 12 < fld lateTile.w1 21 12) := by decide +kernel

theorem test_witness_HostRegisters_binding :
    ((events true).window 0 0 0x410 = true ∧ bit (0x8000000000010006 : Word) 63 = true ∧ bindTenant 0x8000000000010006 = 6 ∧
        (events true).window 2 0 0x410 = true) ∧
      (Map.get (fun _ => false) (events true).vfEnable 0 = true ∧
        (List.range 64).all (fun v => !(events true).turning (bindPart ((events true).bindOf (64 * 0 + v))) &&
          !(events true).turning (bindPart (Map.get (fun _ => 0) (events true).vfbind (64 * 0 + v)))) = true ∧
        bindValid ((events true).bindOf 1) = true) ∧
      (events true).teardowns.contains 1 = false ∧
      ((events true).issuing = false ∧ (events true).agenda = [.mgmtReads 0 0 0x50, .own] ∧ (events true).window 0 0 0x50 = true) ∧
      ((events true).vfbind.find? (fun x => bindValid x.2 && bindPart x.2 == 0) = some (1, 0x8000000000000005) ∧ (events true).kslotAt 256 = 0 ∧
        (List.range 256).find? (fun k => k != 0 && (events true).kslotAt k == 0) = some 2) := by decide +kernel

/-- R360, R367, R369: who may write PWRLIM, and what a vector sends. -/
theorem test_host_registers :
    (after (exec (.mgmtRegisterWrite 0 0 0x50 900) (events true))).pwrlim = 900 ∧
      (after (exec (.mgmtRegisterWrite 2 0 0x50 900) (events true))).pwrlim = 3600 ∧
      (after (step (events true))).hostRead = some (3600, false) ∧
      (after (exec .errorRecordWrite { events true with records := [lateTile, earlyTile] })).records = [lateTile] ∧
      (after (exec (.icoalTimer 1 2) (events false))).msixSent = [0x77] ∧ ((after (exec (.icoalTimer 1 2) (events true))).fnAt 1).pba = [(2, true)] := by
  decide +kernel

/-! ### Ownership and resets -/

/-- The Ringmaster of a package, as it may stand. -/
def ruled (r : Ringmaster) (cycle : Word := 4800000000) : State := { rm := r, cycle := cycle, ctr := [(128, 5)] }

theorem test_witness_Ownership :
    (ruled {}).rm.state = 0 ∧ ((ruled { state := 1, owner := 1 }).rm.state = 1 ∧ (ruled { state := 1, owner := 1 }).rm.owner.toNat = 1) ∧
      (let s := ruled { state := 2, owner := 1, target := 2, since := 4000000000 }
       s.rm.state = 2 ∧ s.rm.target.toNat = 2 ∧ s.cycle.toNat < s.rm.since + secondCycles ∧ s.rm.owner ≠ s.rm.target ∧ s.rm.owner.toNat = 1) ∧
      (let s := ruled { state := 2, owner := 1, target := 2 }; s.rm.state = 2 ∧ s.rm.since + secondCycles ≤ s.cycle.toNat) ∧
      (let s := ruled { state := 3, owner := 1, since := 5 }; s.rm.state = 3 ∧ s.cycle.toNat < s.rm.since + 2 * secondCycles) ∧
      (let s := ruled { state := 3, owner := 1 }; s.rm.state = 3 ∧ s.rm.since + 2 * secondCycles ≤ s.cycle.toNat) := by decide +kernel

/-- R359: of the claims of one cycle the lowest counts; a later one has no effect, nor has an acceptance past the second. -/
theorem test_claims :
    (let one := after (exec (.rmownClaim 1) (ruled {}))
     (after (exec (.rmownClaim 0) one)).rm.owner = 0 ∧ (after (exec (.rmownClaim 0) { one with cycle := 4800000001 })).rm.owner = 1 ∧
       one.rm.claimed = some 4800000000) ∧
      (after (exec (.rmownAccept 2) (ruled { state := 2, owner := 1, target := 2 }))).rm.owner = 1 := by decide +kernel

theorem test_witness_Ownership_lost :
    (ruled { state := 1, owner := 0 }).rm.owner ≠ 2 ∧
      (ruled { state := 2, owner := 2 }).rm.beat + 3 * beatCycles ≤ (ruled { state := 2, owner := 2 }).cycle.toNat := by decide +kernel

/-- Tile 9 is fenced after three appeals, and a master owns the device. -/
def condemned : State := { herding { fenced := true, appeals := [1, 2, 3] } with rm := { state := 1, owner := 0 } }

theorem test_witness_Resets :
    Map.wf freshLine (ruled {}).ctr = true ∧ (ruled { state := 1, owner := 1 }).owns 1 = true ∧ (ruled {}).owns 1 = false ∧ (ruled {}).booted = false ∧
      condemned.mayResetTile 9 9 = true ∧
      (ruled {}).rollback.toNat ≤ (ruled {}).image.rollback.toNat ∧
      (let s := { ruled {} with rollback := 2 }; s.booted = false ∧ s.image.rollback.toNat < s.rollback.toNat) := by decide +kernel

/-- R359, R380, R381, R353: EPOCH, the causes of two resets, and COUNT of a line. -/
theorem test_resets :
    (after (exec (.rmownAccept 2) (ruled { state := 2, owner := 1, target := 2, since := 4000000000 }))).rm.epoch = 1 ∧
      (after (exec .mcResetRequest (after (exec .thermalReset (ruled {}))))).rstcause = 0x0304000200000000 ∧
      (after (exec .powerOn (ruled {}))).ctr = [(128, BitVec.ofNat 56 (2 ^ 55 + 5))] ∧
      ((after (exec (.tileReset 9 9) condemned)).rstcause = 0x2490000 ∧ ((after (exec (.tileReset 9 9) condemned)).herd 9).selfTest = true) := by
  decide +kernel
/-! ### Frames -/

/-- Does a step go on? -/
def goesOn : Out → Bool
  | .next _ => true
  | _ => false

theorem next_of_goesOn {o : Out} (h : goesOn o = true) : ∃ t, o = .next t := by
  cases o with
  | next t => exact ⟨t, rfl⟩
  | fault => cases h
  | refused => cases h

theorem test_witness_MemoryChangesAtHomes :
    (Instr.stD 9 1 0).isInstruction = true ∧ actsAtOnce (.stD 9 1 0) = false ∧ ∃ t, exec (.stD 9 1 0) bufRegs = .next t :=
  ⟨by decide +kernel, by decide +kernel, next_of_goesOn (by decide +kernel)⟩

theorem test_witness_InstructionFrames :
    (scalarDest (.sub 7 4 5) = some 7 ∧ ∃ t, exec (.sub 7 4 5) ints = .next t) ∧
      (isReference (.ldDWf 9 1 0) = true ∧ ∃ t, exec (.ldDWf 9 1 0) bufRegs = .next t) ∧
      (rowDest (.vaddFp32 63 0 1) = some 63 ∧ ∃ t, exec (.vaddFp32 63 0 1) fpRows = .next t) :=
  ⟨⟨by decide +kernel, next_of_goesOn (by decide +kernel)⟩, ⟨by decide +kernel, next_of_goesOn (by decide +kernel)⟩,
    by decide +kernel, next_of_goesOn (by decide +kernel)⟩

end Sys2Proof.Tests
end

section
/-! SUPPORT. What the functions of the scalar instructions give, bit by bit and as the operations of `BitVec` (R203 to R206, R209 to
R211), and what an instruction with register operands does once they are there. -/

namespace Sys2Proof.Proofs

open Sys2Proof Sys2Proof.Machine Sys2Proof.Laws

/-! ### Operands -/

/-- What an instruction reads is there when more is. -/
theorem there_left {s : State} {k j : Nat} (h : s.there [k, j] = true) : s.there [k] = true := by
  rw [there_cons, Bool.and_eq_true] at h
  exact h.1

theorem there_right {s : State} {k j : Nat} (h : s.there [k, j] = true) : s.there [j] = true := by
  rw [there_cons, Bool.and_eq_true] at h
  exact h.2

theorem alu2_wrote {s : State} {a b : BitVec 5} (d : BitVec 5) {f : Word → Word → Word} {v : Word} (h : s.there [gr a, gr b] = true)
    (hv : f (s.gv a) (s.gv b) = v) : s.alu2 {} (gr d) (gr a) (gr b) f = .next (s.wrote d v (s.gp a || s.gp b) 4) := by
  rw [alu2_eq h, ← hv]; rfl

theorem alu1_wrote {s : State} {a : BitVec 5} (d : BitVec 5) {f : Word → Word} {v : Word} (h : s.there [gr a] = true)
    (hv : f (s.gv a) = v) : s.alu1 {} (gr d) (gr a) f = .next (s.wrote d v (s.gp a) 4) := by
  rw [alu1_eq h, ← hv]; rfl

/-! ### Minimum, maximum and division (R203, R204) -/

theorem mul_eq (x y : Word) : x * y = BitVec.ofNat 64 (x.toNat * y.toNat) := by
  rw [BitVec.ofNat_mul, BitVec.ofNat_toNat, BitVec.ofNat_toNat, BitVec.setWidth_eq, BitVec.setWidth_eq]

/-- The model compares by `≤` and the table by `<`, which differ on equal operands alone. -/
theorem slt_iff_le_of_ne {x y : Word} (h : x ≠ y) : x.slt y = true ↔ x.toInt ≤ y.toInt := by
  have hne : x.toInt ≠ y.toInt := fun he => h (BitVec.toInt_inj.mp he)
  rw [BitVec.slt_iff_toInt_lt]
  omega

theorem minS_eq (x y : Word) : minS x y = if x.slt y then x else y := by
  by_cases h : x = y
  · rw [minS, h, ite_self, ite_self]
  · simp only [minS, slt_iff_le_of_ne h]

theorem maxS_eq (x y : Word) : maxS x y = if x.slt y then y else x := by
  by_cases h : x = y
  · rw [maxS, h, ite_self, ite_self]
  · simp only [maxS, slt_iff_le_of_ne h]

@[simp] theorem divS_zero (x : Word) : divS x 0 = BitVec.allOnes 64 := rfl
@[simp] theorem divU_zero (x : Word) : divU x 0 = BitVec.allOnes 64 := rfl
@[simp] theorem remS_zero (x : Word) : remS x 0 = x := by simp [remS]
@[simp] theorem remU_zero (x : Word) : remU x 0 = x := by simp [remU]

theorem divS_eq_sdiv {x y : Word} (hy : y ≠ 0) : divS x y = x.sdiv y := by
  rw [divS, if_neg hy]
  apply BitVec.eq_of_toInt_eq
  rw [BitVec.toInt_ofInt, BitVec.toInt_sdiv]

theorem divU_eq_udiv {x y : Word} (hy : y ≠ 0) : divU x y = x / y := by
  rw [divU, if_neg hy, wd, ← BitVec.toNat_udiv, BitVec.ofNat_toNat, BitVec.setWidth_eq]

/-- The remainder of a truncated quotient is the truncated remainder, and so takes the sign of `x`. -/
theorem remS_eq_srem {x y : Word} (hy : y ≠ 0) : remS x y = x.srem y := by
  have hm : BitVec.ofInt 64 (x.toInt.tmod y.toInt) = x.srem y := by rw [← BitVec.toInt_srem, BitVec.ofInt_toInt]
  rw [remS, divS, if_neg hy, ← hm, Int.tmod_def, Int.sub_eq_add_neg, BitVec.ofInt_add, BitVec.ofInt_neg, BitVec.ofInt_mul,
    BitVec.ofInt_toInt, BitVec.ofInt_toInt, BitVec.sub_eq_add_neg]

theorem remU_eq_umod {x y : Word} (hy : y ≠ 0) : remU x y = x % y := by
  have h : y * (x / y) + x % y = x := by
    apply BitVec.eq_of_toNat_eq
    rw [BitVec.toNat_add, BitVec.toNat_mul, BitVec.toNat_udiv, BitVec.toNat_umod, Nat.mod_add_mod, Nat.div_add_mod,
      Nat.mod_eq_of_lt x.isLt]
  rw [remU, divU_eq_udiv hy]
  nth_rewrite 1 [← h]
  rw [BitVec.add_comm, BitVec.add_sub_cancel]

/-- The quotient 2^63 of −2^63 by −1 has no word, and wraps. -/
theorem div_intMin_neg_one :
    divS (BitVec.intMin 64) (BitVec.allOnes 64) = BitVec.intMin 64 ∧ divU (BitVec.intMin 64) (BitVec.allOnes 64) = 0 ∧
      remS (BitVec.intMin 64) (BitVec.allOnes 64) = 0 ∧ remU (BitVec.intMin 64) (BitVec.allOnes 64) = BitVec.intMin 64 := by
  decide

/-! ### Shifts by an immediate, counts (R205, R206) -/

theorem wd_toNat {n : Nat} (h : n < 2 ^ 64) : (wd n).toNat = n := by
  rw [wd, BitVec.toNat_ofNat, Nat.mod_eq_of_lt h]

theorem wd_mod_64 {n : Nat} (h : n ≤ 63) : (wd n).toNat % 64 = n := by
  rw [wd_toNat (by omega), Nat.mod_eq_of_lt (by omega)]

theorem shl64_wd (x : Word) {n : Nat} (h : n ≤ 63) : shl64 x (wd n) = x <<< n := by rw [shl64, wd_mod_64 h]
theorem shr64_wd (x : Word) {n : Nat} (h : n ≤ 63) : shr64 x (wd n) = x >>> n := by rw [shr64, wd_mod_64 h]
theorem sra64_wd (x : Word) {n : Nat} (h : n ≤ 63) : sra64 x (wd n) = x.sshiftRight n := by rw [sra64, wd_mod_64 h]

@[simp] theorem leadingZeros_zero : leadingZeros 0 = 64 := rfl

/-- A word with a one has its highest at bit `63 - leadingZeros`. -/
theorem leadingZeros_bounds {x : Word} (hx : x ≠ 0) :
    leadingZeros x ≤ 63 ∧ 2 ^ (63 - leadingZeros x) ≤ x.toNat ∧ x.toNat < 2 ^ (64 - leadingZeros x) := by
  have hx' : x.toNat ≠ 0 := fun h => hx (BitVec.eq_of_toNat_eq h)
  have hlog : Nat.log2 x.toNat < 64 := (Nat.log2_lt hx').mpr x.isLt
  have hlow : 63 - leadingZeros x = Nat.log2 x.toNat := by rw [leadingZeros, if_neg hx]; omega
  have hhigh : 64 - leadingZeros x = Nat.log2 x.toNat + 1 := by rw [leadingZeros, if_neg hx]; omega
  rw [hlow, hhigh]
  exact ⟨by rw [leadingZeros, if_neg hx]; omega, Nat.log2_self_le hx', Nat.lt_log2_self⟩

theorem countOnes_eq (n : Nat) : ∀ x, countOnes x n = ((List.range n).filter (x.testBit ·)).length := by
  induction n with
  | zero => exact fun _ => rfl
  | succ n ih =>
    intro x
    have hshift : ((List.range n).filter (fun i => x.testBit (i + 1))).length = countOnes (x / 2) n := by
      simp only [ih, Nat.testBit_succ]
    have hbit : x.testBit 0 = decide (x % 2 = 1) := Nat.testBit_zero ..
    rw [List.range_succ_eq_map, List.filter_cons, List.filter_map, countOnes, hbit, ← hshift]
    rcases Nat.mod_two_eq_zero_or_one x with h | h
    · simp [h, Function.comp_def]
    · simp [h, Function.comp_def, Nat.add_comm]

/-! ### Pointers (R210) -/

theorem fld_eq_extract (x : Word) (hi lo : Nat) : fld x hi lo = (x.extractLsb' lo (hi + 1 - lo)).toNat := by
  rw [fld, BitVec.extractLsb'_toNat, Nat.shiftRight_eq_div_pow]

theorem ptrIdx_eq (x : Word) : ptrIdx x = (x.extractLsb' 46 18).toNat := fld_eq_extract x 63 46
theorem ptrOff_eq (x : Word) : ptrOff x = (x.extractLsb' 0 46).toNat := fld_eq_extract x 45 0

/-- A pointer is its index above its offset. -/
theorem wd_pointer (a : BitVec 18) (b : BitVec 46) : wd (a.toNat * 2 ^ 46 + b.toNat) = a ++ b := by
  apply BitVec.eq_of_toNat_eq
  have ha := a.isLt
  have hb := b.isLt
  rw [wd_toNat (by omega), BitVec.toNat_append, ← Nat.shiftLeft_add_eq_or_of_lt hb, Nat.shiftLeft_eq]

theorem wd_make (x y : Word) : wd (fld x 17 0 * 2 ^ 46 + fld y 45 0) = x.extractLsb' 0 18 ++ y.extractLsb' 0 46 := by
  rw [fld_eq_extract x 17 0, fld_eq_extract y 45 0]
  exact wd_pointer ..

theorem wd_ptrIdx (x : Word) : wd (ptrIdx x) = (x.extractLsb' 46 18).setWidth 64 := by rw [ptrIdx_eq, wd, BitVec.ofNat_toNat]
theorem wd_ptrOff (x : Word) : wd (ptrOff x) = (x.extractLsb' 0 46).setWidth 64 := by rw [ptrOff_eq, wd, BitVec.ofNat_toNat]

/-- The offset wraps at 2^46, so the index stays. -/
theorem padd_eq (x y : Word) : padd x y = x.extractLsb' 46 18 ++ (x.extractLsb' 0 46 + y.extractLsb' 0 46) := by
  have hoff : (ptrOff x + y.toNat) % 2 ^ 46 = (x.extractLsb' 0 46 + y.extractLsb' 0 46).toNat := by
    rw [BitVec.toNat_add, ptrOff_eq, BitVec.extractLsb'_toNat 0 46 y, Nat.shiftRight_zero, Nat.add_mod_mod]
  rw [padd, ptrIdx_eq, hoff, wd_pointer]

/-! ### Bit fields (R211) -/

/-- A number of `w` bits as a signed one. -/
theorem signed_eq_toInt {w : Nat} (hw : 0 < w) (n : Nat) : signed w n = (BitVec.ofNat w n).toInt := by
  have hpow : 2 ^ w = 2 * 2 ^ (w - 1) := (mul_pow_sub_one hw.ne' 2).symm
  have hpow' : (2 : Int) ^ w = 2 * 2 ^ (w - 1) := (mul_pow_sub_one hw.ne' 2).symm
  rw [signed, BitVec.toInt_eq_toNat_cond, BitVec.toNat_ofNat, hpow]
  by_cases h : n % (2 * 2 ^ (w - 1)) < 2 ^ (w - 1)
  · rw [if_pos h, if_pos (by omega)]; simp [hpow']
  · rw [if_neg h, if_neg (by omega)]; simp [hpow']

theorem ofNat_div_pow (x : Word) (lo w : Nat) : BitVec.ofNat w (x.toNat / 2 ^ lo) = x.extractLsb' lo w := by
  apply BitVec.eq_of_toNat_eq
  rw [BitVec.toNat_ofNat, BitVec.extractLsb'_toNat, Nat.shiftRight_eq_div_pow]

theorem fieldU_eq_setWidth (x : Word) (lo w : Nat) : fieldU x lo w = (x.extractLsb' lo w).setWidth 64 := by
  rw [fieldU, wd, ← BitVec.ofNat_toNat, BitVec.extractLsb'_toNat, Nat.shiftRight_eq_div_pow]

theorem fieldS_eq_signExtend (x : Word) (lo : Nat) {w : Nat} (hw : 0 < w) : fieldS x lo w = (x.extractLsb' lo w).signExtend 64 := by
  rw [fieldS, signed_eq_toInt hw, ofNat_div_pow, BitVec.signExtend]

theorem getLsbD_fieldU (x : Word) (lo w : Nat) {i : Nat} (hi : i < 64) :
    (fieldU x lo w).getLsbD i = (decide (i < w) && x.getLsbD (lo + i)) := by
  rw [fieldU_eq_setWidth, BitVec.getLsbD_setWidth, BitVec.getLsbD_extractLsb']
  simp [hi]

/-- Above the field its highest bit is repeated. -/
theorem getLsbD_fieldS (x : Word) (lo : Nat) {w i : Nat} (hw : 0 < w) (hi : i < 64) :
    (fieldS x lo w).getLsbD i = x.getLsbD (lo + min i (w - 1)) := by
  rw [fieldS_eq_signExtend x lo hw, BitVec.getLsbD_signExtend, BitVec.msb_eq_getLsbD_last, BitVec.getLsbD_extractLsb',
    BitVec.getLsbD_extractLsb']
  by_cases h : i < w
  · simp [hi, h, Nat.min_eq_left (Nat.le_sub_one_of_lt h)]
  · simp [hi, h, Nat.min_eq_right (by omega : w - 1 ≤ i), hw]

/-- Below the field and above it stand the old bits, in it those of `x`. -/
theorem getLsbD_fieldInsert (old x : Word) {lo w i : Nat} (hi : i < 64) :
    (fieldInsert old x lo w).getLsbD i = if lo ≤ i ∧ i < lo + w then x.getLsbD (i - lo) else old.getLsbD i := by
  have hnest : old.toNat % 2 ^ lo + x.toNat % 2 ^ w * 2 ^ lo + old.toNat / 2 ^ (lo + w) * 2 ^ (lo + w) =
      2 ^ lo * (2 ^ w * (old.toNat / 2 ^ (lo + w)) + x.toNat % 2 ^ w) + old.toNat % 2 ^ lo := by
    rw [Nat.pow_add 2 lo w]; ring
  rw [fieldInsert, hnest, wd, BitVec.getLsbD_ofNat, decide_eq_true hi, Bool.true_and,
    Nat.testBit_two_pow_mul_add _ (Nat.mod_lt _ (Nat.two_pow_pos lo)),
    Nat.testBit_two_pow_mul_add _ (Nat.mod_lt _ (Nat.two_pow_pos w))]
  by_cases hlo : i < lo
  · rw [if_pos hlo, if_neg (by omega), Nat.testBit_mod_two_pow, decide_eq_true hlo, Bool.true_and, BitVec.getLsbD]
  rw [if_neg hlo]
  by_cases hw : i < lo + w
  · rw [if_pos (by omega), if_pos (by omega), Nat.testBit_mod_two_pow, decide_eq_true (by omega), Bool.true_and, BitVec.getLsbD]
  · rw [if_neg (by omega), if_neg (by omega), Nat.testBit_div_two_pow, BitVec.getLsbD, (by omega : i - lo - w + (lo + w) = i)]

end Sys2Proof.Proofs
end

section
/-! SUPPORT. The register operations of major 0x00 and the edges of division settled (R203, R204). -/

namespace Sys2Proof.Proofs

open Sys2Proof Sys2Proof.Machine Sys2Proof.Laws

/-- Settles O8: each operation is `alu2` of a function that is, or is shown to be, the one of the table. -/
theorem integerRegister : Obligations.IntegerRegister := by
  unfold Obligations.IntegerRegister
  refine ⟨fun s d a b h => ?_, fun s d a b h => ⟨fun hy => ?_, fun hx hy => ?_, fun hy _ => ?_⟩⟩
  · exact ⟨(exec_add ..).trans (alu2_wrote d h rfl), (exec_sub ..).trans (alu2_wrote d h rfl),
      (exec_and ..).trans (alu2_wrote d h rfl), (exec_or ..).trans (alu2_wrote d h rfl),
      (exec_xor ..).trans (alu2_wrote d h rfl), (exec_andn ..).trans (alu2_wrote d h rfl),
      (exec_shl ..).trans (alu2_wrote d h rfl), (exec_shr ..).trans (alu2_wrote d h rfl),
      (exec_sra ..).trans (alu2_wrote d h rfl), (exec_mul ..).trans (alu2_wrote d h (mul_eq ..)),
      (exec_mulh ..).trans (alu2_wrote d h rfl), (exec_mulhu ..).trans (alu2_wrote d h rfl),
      (exec_min ..).trans (alu2_wrote d h (minS_eq ..)), (exec_max ..).trans (alu2_wrote d h (maxS_eq ..))⟩
  · exact ⟨(exec_div ..).trans (alu2_wrote d h (hy ▸ divS_zero _)), (exec_divu ..).trans (alu2_wrote d h (hy ▸ divU_zero _)),
      (exec_rem ..).trans (alu2_wrote d h (hy ▸ remS_zero _)), (exec_remu ..).trans (alu2_wrote d h (hy ▸ remU_zero _))⟩
  · obtain ⟨hdiv, hdivu, hrem, hremu⟩ := div_intMin_neg_one
    rw [← hx, ← hy] at hdiv hdivu hrem hremu
    exact ⟨(exec_div ..).trans (alu2_wrote d h hdiv), (exec_divu ..).trans (alu2_wrote d h hdivu),
      (exec_rem ..).trans (alu2_wrote d h hrem), (exec_remu ..).trans (alu2_wrote d h hremu)⟩
  · exact ⟨(exec_div ..).trans (alu2_wrote d h (divS_eq_sdiv hy)), (exec_divu ..).trans (alu2_wrote d h (divU_eq_udiv hy)),
      (exec_rem ..).trans (alu2_wrote d h (remS_eq_srem hy)), (exec_remu ..).trans (alu2_wrote d h (remU_eq_umod hy))⟩

end Sys2Proof.Proofs
end

section
/-! SUPPORT. The immediate, constant, pointer and bit-field instructions settled (R205, R206, R209 to R211), after the shifts and the
bit fields, which check their operands first. -/

namespace Sys2Proof.Proofs

open Sys2Proof Sys2Proof.Machine Sys2Proof.Laws

/-! ### Shifts by an immediate -/

theorem shiftImm_within {s : State} {a : BitVec 5} (d : BitVec 5) {imm : BitVec 11} (h : s.there [gr a] = true) (hi : imm.toNat ≤ 63) :
    exec (.shli d a imm) s = .next (s.wrote d (s.gv a <<< imm.toNat) (s.gp a) 4) ∧
      exec (.shri d a imm) s = .next (s.wrote d (s.gv a >>> imm.toNat) (s.gp a) 4) ∧
      exec (.srai d a imm) s = .next (s.wrote d ((s.gv a).sshiftRight imm.toNat) (s.gp a) 4) := by
  have hlim : decide (imm.toNat ≤ 63) = true := decide_eq_true hi
  exact ⟨((exec_shli ..).trans (checked_true hlim)).trans (alu1_wrote d h (shl64_wd _ hi)),
    ((exec_shri ..).trans (checked_true hlim)).trans (alu1_wrote d h (shr64_wd _ hi)),
    ((exec_srai ..).trans (checked_true hlim)).trans (alu1_wrote d h (sra64_wd _ hi))⟩

theorem shiftImm_beyond (s : State) (d a : BitVec 5) {imm : BitVec 11} (hi : 63 < imm.toNat) :
    exec (.shli d a imm) s = .next (s.trapAt s.cur cILLEGAL_OPERAND (wd (wordShli d a imm))) ∧
      exec (.shri d a imm) s = .next (s.trapAt s.cur cILLEGAL_OPERAND (wd (wordShri d a imm))) ∧
      exec (.srai d a imm) s = .next (s.trapAt s.cur cILLEGAL_OPERAND (wd (wordSrai d a imm))) := by
  have hlim : decide (imm.toNat ≤ 63) = false := decide_eq_false (Nat.not_le.mpr hi)
  exact ⟨(exec_shli ..).trans (checked_false hlim), (exec_shri ..).trans (checked_false hlim),
    (exec_srai ..).trans (checked_false hlim)⟩

/-! ### Bit fields -/

theorem bitField_within {s : State} {d a : BitVec 5} (b : BitVec 5) {imm : BitVec 6} (h : s.there [gr d, gr a] = true)
    (hw : imm.toNat + (b.toNat + 1) ≤ 64) :
    exec (.bfx d a b imm) s = .next (s.wrote d (fieldS (s.gv a) imm.toNat (b.toNat + 1)) (s.gp a) 4) ∧
      exec (.bfxu d a b imm) s = .next (s.wrote d (fieldU (s.gv a) imm.toNat (b.toNat + 1)) (s.gp a) 4) ∧
      exec (.bfi d a b imm) s =
        .next (s.wrote d (fieldInsert (s.gv d) (s.gv a) imm.toNat (b.toNat + 1)) (s.gp d || s.gp a) 4) := by
  have hlim : decide (imm.toNat + b.toNat + 1 ≤ 64) = true := decide_eq_true hw
  exact ⟨((exec_bfx ..).trans (checked_true hlim)).trans (alu1_wrote d (there_right h) rfl),
    ((exec_bfxu ..).trans (checked_true hlim)).trans (alu1_wrote d (there_right h) rfl),
    ((exec_bfi ..).trans (checked_true hlim)).trans (alu2_wrote d h rfl)⟩

theorem bitField_beyond (s : State) (d a : BitVec 5) {b : BitVec 5} {imm : BitVec 6} (hw : 64 < imm.toNat + (b.toNat + 1)) :
    exec (.bfx d a b imm) s = .next (s.trapAt s.cur cILLEGAL_OPERAND (wd (wordBfx d a b imm))) ∧
      exec (.bfxu d a b imm) s = .next (s.trapAt s.cur cILLEGAL_OPERAND (wd (wordBfxu d a b imm))) ∧
      exec (.bfi d a b imm) s = .next (s.trapAt s.cur cILLEGAL_OPERAND (wd (wordBfi d a b imm))) := by
  have hlim : decide (imm.toNat + b.toNat + 1 ≤ 64) = false := decide_eq_false (Nat.not_le.mpr hw)
  exact ⟨(exec_bfx ..).trans (checked_false hlim), (exec_bfxu ..).trans (checked_false hlim),
    (exec_bfi ..).trans (checked_false hlim)⟩

/-! ### Counts -/

theorem clz_wrote {s : State} {a : BitVec 5} (d : BitVec 5) (h : s.there [gr a] = true) :
    ∃ n : Nat, n ≤ 64 ∧ exec (.clz d a) s = .next (s.wrote d (BitVec.ofNat 64 n) (s.gp a) 4) ∧ (s.gv a).toNat < 2 ^ (64 - n) ∧
      (s.gv a ≠ 0 → 2 ^ (63 - n) ≤ (s.gv a).toNat) ∧ (s.gv a = 0 → n = 64) := by
  refine ⟨leadingZeros (s.gv a), ?_⟩
  have hexec : exec (.clz d a) s = .next (s.wrote d (wd (leadingZeros (s.gv a))) (s.gp a) 4) :=
    (exec_clz ..).trans (alu1_wrote d h rfl)
  by_cases hx : s.gv a = 0
  · refine ⟨by rw [hx, leadingZeros_zero], hexec, by rw [hx, leadingZeros_zero]; decide, fun hne => absurd hx hne,
      fun _ => by rw [hx, leadingZeros_zero]⟩
  · obtain ⟨hle, hlow, hhigh⟩ := leadingZeros_bounds hx
    exact ⟨by omega, hexec, hhigh, fun _ => hlow, fun h0 => absurd h0 hx⟩

theorem popc_wrote {s : State} {a : BitVec 5} (d : BitVec 5) (h : s.there [gr a] = true) :
    exec (.popc d a) s =
      .next (s.wrote d (BitVec.ofNat 64 ((List.range 64).filter (fun i => (s.gv a).getLsbD i)).length) (s.gp a) 4) :=
  (exec_popc ..).trans (alu1_wrote d h (congrArg (BitVec.ofNat 64) (countOnes_eq 64 _)))

/-- Settles O10: each form is `alu1` or `alu2` of a function whose value was found above, after its operand check where it has one. -/
theorem immediatesPointersFields : Obligations.ImmediatesPointersFields := by
  unfold Obligations.ImmediatesPointersFields
  refine ⟨fun s d a b imm u h => ?_, fun s d a b imm h => ⟨fun hw => ?_, bitField_beyond s d a⟩⟩
  · have ha := there_left h
    exact ⟨(exec_addi ..).trans (alu1_wrote d ha rfl), (exec_andi ..).trans (alu1_wrote d ha rfl),
      (exec_ori ..).trans (alu1_wrote d ha rfl), (exec_xori ..).trans (alu1_wrote d ha rfl),
      shiftImm_within d ha, shiftImm_beyond s d a, clz_wrote d ha, popc_wrote d ha, exec_lui .., exec_lpc ..,
      (exec_pmk ..).trans (alu2_wrote d h (wd_make ..)), (exec_pidx ..).trans (alu1_wrote d ha (wd_ptrIdx _)),
      (exec_poff ..).trans (alu1_wrote d ha (wd_ptrOff _)), (exec_padd ..).trans (alu2_wrote d h (padd_eq ..))⟩
  · obtain ⟨hbfx, hbfxu, hbfi⟩ := bitField_within b h hw
    exact ⟨⟨_, hbfx, fun _ hi => getLsbD_fieldS _ _ (Nat.succ_pos _) hi⟩, ⟨_, hbfxu, fun _ hi => getLsbD_fieldU _ _ _ hi⟩,
      ⟨_, hbfi, fun _ hi => getLsbD_fieldInsert _ _ hi⟩⟩

end Sys2Proof.Proofs
end

section
/-! SUPPORT. What the shared operations of the row unit answer once the rows are ready and the accumulator has the type (R260, R263,
R274), and what the i32 lane functions give as the operations of `BitVec` (R267). -/

namespace Sys2Proof.Proofs

open Sys2Proof Sys2Proof.Machine Sys2Proof.Laws

/-! ### Rows -/

/-- An instruction that names fewer rows is ready when more are. -/
theorem rowReady_of_three {s : State} {d a b : Nat} (h : s.rowReady [d, a, b] = true) : s.rowReady [d, a] = true :=
  rowReady_mono h fun _ hx => List.mem_append_left [b] hx

section

variable {s : State} {d a b : BitVec 6} {ty : AType}

theorem row2_rowSet2 {f : Nat → Nat → Nat → Nat} (h : s.rowReady [gr d, gr a, gr b] = true) (ht : s.myTile.typeOf s.boundAcc = ty) :
    s.row2 ty (gr d) (gr a) (gr b) f = .next (s.rowSet2 d a b (f s.me.round.toNat)) := by
  rw [State.row2, onRow_typed h ht]; rfl

theorem row3_rowSet3 {f : Nat → Nat → Nat → Nat → Nat} (h : s.rowReady [gr d, gr a, gr b] = true)
    (ht : s.myTile.typeOf s.boundAcc = ty) :
    s.row3 ty (gr d) (gr a) (gr b) f = .next (s.rowSet3 d a b (f s.me.round.toNat)) := by
  rw [State.row3, onRow_typed h ht]; rfl

theorem row1_rowSet1 {f : Nat → Nat → Nat} (h : s.rowReady [gr d, gr a] = true) (ht : s.myTile.typeOf s.boundAcc = ty) :
    s.row1 (some ty) (gr d) (gr a) f = .next (s.rowSet1 d a (f s.me.round.toNat)) := by
  rw [State.row1, onRow_typed h ht]; rfl

/-- With a register as the second operand, its low half meets every lane, and its poison all of them (R265). -/
theorem rowG_row {f : Nat → Nat → Nat → Nat} (hb : s.there [gr b] = true) (h : s.rowReady [gr d, gr a] = true)
    (ht : s.myTile.typeOf s.boundAcc = .fp32) :
    s.rowG (gr d) (gr a) (gr b) f = .next (s.withTile (s.myTile.setRow s.boundAcc d.toNat fun i =>
      (el (f s.me.round.toNat (s.myTile.lane s.boundAcc a.toNat i).1.toNat ((s.me.getG (gr b)).v.toNat % 2 ^ 32)),
        (s.myTile.lane s.boundAcc a.toNat i).2 || (s.me.getG (gr b)).p))) := by
  rw [State.rowG, reading_there hb, onRow_typed h ht]; rfl

/-- A function of numbers that is one of elements writes it lane by lane. -/
theorem row2_elem {f : Nat → Nat → Nat → Nat} (h : s.rowReady [gr d, gr a, gr b] = true) (ht : s.myTile.typeOf s.boundAcc = ty)
    (g : Elem → Elem → Elem) (hf : ∀ x y : Elem, el (f s.me.round.toNat x.toNat y.toNat) = g x y) :
    s.row2 ty (gr d) (gr a) (gr b) f = .next (s.withTile (s.myTile.setRow s.boundAcc d.toNat fun i =>
      (g (s.myTile.lane s.boundAcc a.toNat i).1 (s.myTile.lane s.boundAcc b.toNat i).1,
        (s.myTile.lane s.boundAcc a.toNat i).2 || (s.myTile.lane s.boundAcc b.toNat i).2))) := by
  rw [row2_rowSet2 h ht, State.rowSet2]
  simp only [hf]

theorem row1_elem {f : Nat → Nat → Nat} (h : s.rowReady [gr d, gr a] = true) (ht : s.myTile.typeOf s.boundAcc = ty)
    (g : Elem → Elem) (hf : ∀ x : Elem, el (f s.me.round.toNat x.toNat) = g x) :
    s.row1 (some ty) (gr d) (gr a) f = .next (s.withTile (s.myTile.setRow s.boundAcc d.toNat fun i =>
      (g (s.myTile.lane s.boundAcc a.toNat i).1, (s.myTile.lane s.boundAcc a.toNat i).2))) := by
  rw [row1_rowSet1 h ht, State.rowSet1]
  simp only [hf]

end

/-! ### Elements as numbers -/

@[simp] theorem el_toNat (x : Elem) : el x.toNat = x := by rw [el, BitVec.ofNat_toNat, BitVec.setWidth_eq]

/-- An element keeps the low 32 bits of a number. -/
@[simp] theorem el_mod (n : Nat) : el (n % 2 ^ 32) = el n := BitVec.eq_of_toNat_eq (Nat.mod_mod ..)

@[simp] theorem el_wrap32 (v : Int) : el (wrap32 v) = BitVec.ofInt 32 v := by
  apply BitVec.eq_of_toNat_eq
  rw [wrap32, intBits, el, BitVec.toNat_ofNat, BitVec.toNat_ofInt]
  omega

@[simp] theorem signed_toNat (x : Elem) : signed 32 x.toNat = x.toInt := by
  rw [signed_eq_toInt (by decide), BitVec.ofNat_toNat, BitVec.setWidth_eq]

/-! ### i32 lanes (R267) -/

theorem el_add (x y : Elem) : el ((x.toNat + y.toNat) % 2 ^ 32) = x + y := BitVec.eq_of_toNat_eq (Nat.mod_mod ..)
theorem el_mul (x y : Elem) : el (x.toNat * y.toNat % 2 ^ 32) = x * y := BitVec.eq_of_toNat_eq (Nat.mod_mod ..)

theorem el_sub (x y : Elem) : el (wrap32 ((x.toNat : Int) - y.toNat)) = x - y := by
  rw [el_wrap32, Int.sub_eq_add_neg, BitVec.ofInt_add, BitVec.ofInt_neg, BitVec.ofInt_natCast, BitVec.ofInt_natCast,
    BitVec.ofNat_toNat, BitVec.ofNat_toNat, BitVec.setWidth_eq, BitVec.setWidth_eq, BitVec.sub_eq_add_neg]

theorem el_and (x y : Elem) : el (x.toNat &&& y.toNat) = x &&& y := by rw [← BitVec.toNat_and, el_toNat]
theorem el_or (x y : Elem) : el (x.toNat ||| y.toNat) = x ||| y := by rw [← BitVec.toNat_or, el_toNat]
theorem el_xor (x y : Elem) : el (x.toNat ^^^ y.toNat) = x ^^^ y := by rw [← BitVec.toNat_xor, el_toNat]

theorem el_shiftLeft (x y : Elem) : el (x.toNat * 2 ^ (y.toNat % 32) % 2 ^ 32) = x <<< (y.toNat % 32) := by
  apply BitVec.eq_of_toNat_eq
  rw [el_mod, BitVec.toNat_shiftLeft, Nat.shiftLeft_eq]; rfl

theorem el_sshiftRight (x y : Elem) :
    el (wrap32 (signed 32 x.toNat / 2 ^ (y.toNat % 32))) = x.sshiftRight (y.toNat % 32) := by
  rw [el_wrap32, signed_toNat, BitVec.sshiftRight, Int.shiftRight_eq_div_pow, Int.natCast_pow]; rfl

/-- The model chooses by `≤` and the table by `<` with the operands exchanged. -/
theorem el_choose (x y u v : Elem) :
    el (if signed 32 x.toNat ≤ signed 32 y.toNat then u.toNat else v.toNat) = if y.slt x then v else u := by
  rw [signed_toNat, signed_toNat, apply_ite el, el_toNat, el_toNat]
  simp only [BitVec.slt_iff_toInt_lt, ← not_lt, ite_not]

theorem el_min (x y : Elem) :
    el (if signed 32 x.toNat ≤ signed 32 y.toNat then x.toNat else y.toNat) = if y.slt x then y else x := el_choose x y x y

theorem el_max (x y : Elem) :
    el (if signed 32 x.toNat ≤ signed 32 y.toNat then y.toNat else x.toNat) = if y.slt x then x else y := el_choose x y y x

theorem el_relu (x : Elem) : el (if 0 < signed 32 x.toNat then x.toNat else 0) = if (0 : BitVec 32).slt x then x else 0 := by
  rw [signed_toNat, apply_ite el, el_toNat]
  simp only [BitVec.slt_iff_toInt_lt]; rfl

end Sys2Proof.Proofs
end

section
/-! SUPPORT. The row operations of majors 0x26 to 0x28 settled (R265 to R268). -/

namespace Sys2Proof.Proofs

open Sys2Proof Sys2Proof.Machine Sys2Proof.Laws

/-- Settles O32: each operation is one of the four shared forms of a row result, and is ready for it; vaddb and vmulb check the number of
their register first. -/
theorem rowsFp32 : Obligations.RowsFp32 := by
  unfold Obligations.RowsFp32
  intro s d a b h ht
  have h2 := rowReady_of_three h
  refine ⟨(exec_vaddFp32 ..).trans (row2_rowSet2 h ht), (exec_vsubFp32 ..).trans (row2_rowSet2 h ht),
    (exec_vmulFp32 ..).trans (row2_rowSet2 h ht), (exec_vdivFp32 ..).trans (row2_rowSet2 h ht),
    (exec_vfmaFp32 ..).trans (row3_rowSet3 h ht), (exec_vminFp32 ..).trans (row2_rowSet2 h ht),
    (exec_vmaxFp32 ..).trans (row2_rowSet2 h ht), (exec_vabsFp32 ..).trans (row1_rowSet1 h2 ht),
    (exec_vnegFp32 ..).trans (row1_rowSet1 h2 ht), (exec_vreluFp32 ..).trans (row1_rowSet1 h2 ht),
    (exec_vexpFp32 ..).trans (row1_rowSet1 h2 ht), (exec_vlogFp32 ..).trans (row1_rowSet1 h2 ht),
    (exec_vrcpFp32 ..).trans (row1_rowSet1 h2 ht), (exec_vrsqrtFp32 ..).trans (row1_rowSet1 h2 ht),
    (exec_vsqrtFp32 ..).trans (row1_rowSet1 h2 ht), (exec_vtanhFp32 ..).trans (row1_rowSet1 h2 ht),
    (exec_vsigmFp32 ..).trans (row1_rowSet1 h2 ht), fun hlt hb => ?_, fun hgt => ?_⟩
  · have hlim : decide (b.toNat < 32) = true := decide_eq_true hlt
    exact ⟨((exec_vaddbFp32 ..).trans (checked_true hlim)).trans (rowG_row hb h2 ht),
      ((exec_vmulbFp32 ..).trans (checked_true hlim)).trans (rowG_row hb h2 ht)⟩
  · have hlim : decide (b.toNat < 32) = false := decide_eq_false (by omega)
    exact ⟨(exec_vaddbFp32 ..).trans (checked_false hlim), (exec_vmulbFp32 ..).trans (checked_false hlim)⟩

/-- Settles O33: of type bf16 the model's function is the pair of the two lanes; of type i32 it is, or is shown to be, the operation of
`BitVec`. -/
theorem rowsBf16I32 : Obligations.RowsBf16I32 := by
  unfold Obligations.RowsBf16I32
  refine ⟨fun s d a b h ht => ?_, fun s d a b h ht => ?_⟩
  · exact ⟨(exec_vaddBf16 ..).trans (row2_rowSet2 h ht), (exec_vsubBf16 ..).trans (row2_rowSet2 h ht),
      (exec_vmulBf16 ..).trans (row2_rowSet2 h ht), (exec_vminBf16 ..).trans (row2_rowSet2 h ht),
      (exec_vmaxBf16 ..).trans (row2_rowSet2 h ht), (exec_vfmaBf16 ..).trans (row3_rowSet3 h ht),
      (exec_vreluBf16 ..).trans (row1_rowSet1 (rowReady_of_three h) ht)⟩
  · exact ⟨(exec_vaddI32 ..).trans (row2_elem h ht (· + ·) el_add), (exec_vsubI32 ..).trans (row2_elem h ht (· - ·) el_sub),
      (exec_vmulI32 ..).trans (row2_elem h ht (· * ·) el_mul),
      (exec_vminI32 ..).trans (row2_elem h ht (fun x y => if y.slt x then y else x) el_min),
      (exec_vmaxI32 ..).trans (row2_elem h ht (fun x y => if y.slt x then x else y) el_max),
      (exec_vandI32 ..).trans (row2_elem h ht (· &&& ·) el_and), (exec_vorI32 ..).trans (row2_elem h ht (· ||| ·) el_or),
      (exec_vxorI32 ..).trans (row2_elem h ht (· ^^^ ·) el_xor),
      (exec_vshlI32 ..).trans (row2_elem h ht (fun x y => x <<< (y.toNat % 32)) el_shiftLeft),
      (exec_vsraI32 ..).trans (row2_elem h ht (fun x y => x.sshiftRight (y.toNat % 32)) el_sshiftRight),
      (exec_vreluI32 ..).trans (row1_elem (rowReady_of_three h) ht (fun x => if (0 : Elem).slt x then x else 0) el_relu)⟩

end Sys2Proof.Proofs
end

section
/-! SUPPORT. brk, trap and tback settled (R316 to R320), after what a trap that an instruction raises on completing does. -/

namespace Sys2Proof.Proofs

open Sys2Proof Sys2Proof.Machine Sys2Proof.Laws

/-! ### A trap of the issuing context (R317, R318) -/

theorem trapAfter_eq (s : State) (cause : Nat) (tval : Word) :
    s.trapAfter cause tval = .next (s.setMe (s.me.enter cause (s.me.pc + 4) tval)) := rfl

theorem trapAt_cur (s : State) (cause : Nat) (tval : Word) :
    s.trapAt s.cur cause tval = s.setMe (s.me.enter cause s.me.pc tval) := rfl

theorem trapAfter_escalates {s : State} (cause : Nat) (tval : Word)
    (h : s.me.inTrap = true ∨ s.me.trapvec = 0 ∨ targetFault s.me.trapvec ≠ none) :
    s.trapAfter cause tval = .next (s.setMe (s.me.escalate cause (s.me.pc + 4) tval)) := by
  rw [← Option.isSome_iff_ne_none] at h
  rw [trapAfter_eq, enter_escalates _ _ _ h]

/-! ### The numbers of trap (R316, R320) -/

section

variable {s : State} {imm : BitVec 11} (hd : s.me.deferred = none)

include hd

theorem execTrap_syscall (hn : imm.toNat ≤ 0x3FF) : execTrap imm s = s.trapAfter cSYSCALL (wd imm.toNat) := by
  rw [execTrap, orderPoint_none hd, if_pos hn]

theorem execTrap_unassigned (hn : 0x402 ≤ imm.toNat) :
    execTrap imm s = .next (s.trapAt s.cur cILLEGAL_OPERAND (wd imm.toNat)) := by
  rw [execTrap, orderPoint_none hd, if_neg (by omega), if_pos hn, trap_eq]

/-- A service is called as a full fence goes on: once nothing is pending. -/
theorem execTrap_service (hlo : 0x400 ≤ imm.toNat) (hhi : imm.toNat ≤ 0x401) :
    execTrap imm s =
      if s.fenceWaits s.cur .all false then .next s.waiting else .next (s.setMe (s.me.block (.service imm.toNat))) := by
  rw [execTrap, orderPoint_none hd, if_neg (by omega), if_neg (by omega), stall_eq]

end

/-- Settles O22: brk and trap enter, or escalate, as `Ctx.enter` does; the numbers of trap are told apart first, and a service waits for
its fence. -/
theorem traps : Obligations.Traps := by
  unfold Obligations.Traps
  refine ⟨fun s imm hin hvec hfault => ?_, fun s imm h => (exec_brk ..).trans (trapAfter_escalates _ _ h), fun s imm himm hd => ?_⟩
  · have taken (cause : Nat) (epc tval : Word) := enter_taken cause epc tval hin hvec hfault
    refine ⟨?_, fun hd hn => ?_, fun hd hn => ?_⟩
    · rw [exec_brk, execBrk, trapAfter_eq, taken]
    · rw [exec_trap, execTrap_syscall hd hn, trapAfter_eq, taken]
    · rw [exec_trap, execTrap_unassigned hd hn, trapAt_cur, taken]
  · obtain ⟨hlo, hhi⟩ : 0x400 ≤ imm.toNat ∧ imm.toNat ≤ 0x401 := by obtain rfl | rfl := himm <;> decide
    rw [exec_trap, execTrap_service hd hlo hhi]
    exact ⟨fun hf => if_neg (Bool.eq_false_iff.mp hf), fun hf => if_pos hf⟩

/-- Settles O23: the three cases of `State.trapReturn`. -/
theorem trapReturn : Obligations.TrapReturn := by
  unfold Obligations.TrapReturn
  exact fun s => ⟨fun hin hok => (exec_tback s).trans (trapReturn_ok hin hok), fun hout => (exec_tback s).trans (trapReturn_outside hout),
    fun _ hin hbad => (exec_tback s).trans (trapReturn_bad hin hbad)⟩

end Sys2Proof.Proofs
end
